-- ==== Sys2Proof/Word.lean ====
section
/-! DEFINITION. The word and byte types of the model (00 R7) and keyed lists, the one form in which the
state holds anything that is indexed. -/

namespace Sys2Proof

abbrev Byte := BitVec 8
abbrev Bytes := List Byte
abbrev W64 := BitVec 64
abbrev V512 := BitVec 512

/-- A finite map: pairs with strictly rising keys; a key that is not listed has the map's default. -/
abbrev KList (α : Type) := List (Nat × α)

namespace KList

/-- The entry of a key. -/
def find? {α : Type} : KList α → Nat → Option α
  | [], _ => none
  | (k, v) :: t, n => if n = k then some v else if n < k then none else find? t n

/-- The entry of a key, or the default. -/
def getD {α : Type} (l : KList α) (n : Nat) (d : α) : α := (find? l n).getD d

/-- The map with an entry set; the keys stay strictly rising. -/
def put {α : Type} : KList α → Nat → α → KList α
  | [], n, x => [(n, x)]
  | (k, v) :: t, n, x =>
    if n = k then (k, x) :: t else if n < k then (n, x) :: (k, v) :: t else (k, v) :: put t n x

/-- The map without an entry. -/
def del {α : Type} : KList α → Nat → KList α
  | [], _ => []
  | (k, v) :: t, n => if n = k then t else if n < k then (k, v) :: t else (k, v) :: del t n

/-- The keys rise strictly, all above a bound. -/
def okFrom {α : Type} : Option Nat → KList α → Bool
  | _, [] => true
  | none, (k, _) :: t => okFrom (some k) t
  | some b, (k, _) :: t => decide (b < k) && okFrom (some k) t

/-- The canonical form: keys strictly rising. -/
def ok {α : Type} (l : KList α) : Bool := okFrom none l

/-- The smallest key from `n` upward, within `fuel`, that the map does not list. -/
def firstFree {α : Type} (l : KList α) : Nat → Nat → Option Nat
  | 0, _ => none
  | fuel + 1, n => match find? l n with
    | none => some n
    | some _ => firstFree l fuel (n + 1)

/-- Every entry changed by a function of its key. -/
def mapVals {α β : Type} (f : Nat → α → β) (l : KList α) : KList β := l.map fun p => (p.1, f p.1 p.2)

/-- The entries that a test keeps. -/
def filterVals {α : Type} (f : Nat → α → Bool) (l : KList α) : KList α := l.filter fun p => f p.1 p.2

end KList
end Sys2Proof
end

