-- ==== Sys2Proof/Syntax.lean ====
section
/-! DEFINITION. The commands: one constructor of `Instr` for each row of spec/opcode_table.json, with the
operands the model gives it (the table gives none: notes/assumptions/3.md). -/

namespace Sys2Proof

/-- A hardware thread, 06 R164: hub H0-H31, spoke 0-63, thread 0-3. -/
structure Thr where
  hub : Fin 32
  spoke : Fin 64
  thr : Fin 4
  deriving DecidableEq, Repr

/-- Format F1 of 06 Table 6.7, but for `OP` and `FN`, which the row fixes. -/
structure F1 where
  rd : BitVec 6
  ra : BitVec 6
  rb : BitVec 6
  rc : BitVec 6
  k : BitVec 3
  mz : BitVec 1
  et : BitVec 4
  rsv : BitVec 19
  deriving DecidableEq, Repr

/-- Format F2 of 06 Table 6.7. -/
structure F2 where
  rd : BitVec 6
  ra : BitVec 6
  rsv : BitVec 8
  imm : BitVec 32
  deriving DecidableEq, Repr

/-- Format F3 of 06 Table 6.7. -/
structure F3 where
  rd : BitVec 6
  ra : BitVec 6
  rb : BitVec 6
  sc : BitVec 2
  sp : BitVec 1
  x : BitVec 1
  k : BitVec 3
  ord : BitVec 2
  disp : BitVec 25
  deriving DecidableEq, Repr

/-- Format F4 of 06 Table 6.7. -/
structure F4 where
  ra : BitVec 6
  rb : BitVec 6
  rc : BitVec 6
  h : BitVec 2
  k : BitVec 3
  fl : BitVec 13
  imm : BitVec 16
  deriving DecidableEq, Repr

/-- Format F5 of 06 Table 6.7. -/
structure F5 where
  rd : BitVec 6
  imm : BitVec 48
  deriving DecidableEq, Repr

/-- Who sends a register access: the PF through BAR0, VF t through its window, an MCTP session's
REG_READ or REG_WRITE, or the management firmware (17 R537). -/
inductive Src where
  | pf
  | vf (tid : Fin 1024)
  | mctp (session : Nat)
  | fw
  deriving DecidableEq, Repr

/-- Where an SPDM request arrives (14 Table 14.4). -/
inductive Chan where
  | pfDoe
  | vfDoe (tid : Fin 1024)
  | mctp
  deriving DecidableEq, Repr

/-- The roles of 14 R457. -/
inductive Role where
  | operator
  | installer
  | maker
  deriving DecidableEq, Repr

/-- An index shard's name, 02: TID, index number, shard number. -/
structure ShardId where
  tid : Fin 1024
  index : Fin 4096
  shard : Fin 65536
  deriving DecidableEq, Repr

/-- The outcome of a DMA read of a ring (17 R539). -/
inductive DmaRes where
  | ok
  | unsupported
  | abort
  | poison
  deriving DecidableEq, Repr

/-- How a unified access ends at its tier (06 R185, 09 R290-R292): served, or failed with a status code. -/
inductive TierRes where
  | ok
  | fail (code : Nat)
  deriving DecidableEq, Repr

/-- A row of the firmware's program table (06 R168, R172, R173): entry, extent [lo, hi), pages. -/
structure Program where
  entry : Nat
  lo : Nat
  hi : Nat
  lsize : Nat
  deriving DecidableEq, Repr

/-- A merge stream (04 R120): the partial header of Table 4.4 and its entries (key, flags, generation, ID). -/
structure Entry where
  key : Nat
  flags : Nat
  gen : Nat
  id : Nat
  deriving DecidableEq, Repr

structure MergeMsg where
  status : Nat
  cond : Nat
  nposIn : Nat
  gen : Nat
  src : Nat
  qtag : Nat
  dropKey : Nat
  scanned : Nat
  filtered : Nat
  tombstoned : Nat
  pos : Nat
  entries : List Entry
  deriving DecidableEq, Repr

/-- A transaction packet (12 Table 12.1). -/
structure Packet where
  ptype : Nat
  poison : Bool
  len : Nat
  job : Nat
  dst : Nat
  src : Nat
  tag : Nat
  cls : Nat
  status : Nat
  load : Nat
  hops : Nat
  addr : Nat
  sinc : Nat
  data : Bytes
  port : Fin 16
  deriving DecidableEq, Repr

/-- The header fields of a flit (11 Table 11.2). -/
structure FlitHdr where
  keyPhase : Bool
  replayReq : Bool
  ackV : Bool
  seq : Nat
  ack : Nat
  cred : Nat
  src : Nat
  sport : Nat
  fctr : Nat
  mgmt : Bool
  deriving DecidableEq, Repr


/-- What a REKEY says of its new key (11 R356): the number of the flit from which it holds, and the `SRC` and `SPORT` of the flit
that carries it. -/
structure RekeyPoint where
  seq : Nat
  src : Nat
  sport : Nat
  deriving DecidableEq, Repr

/-- A primary's row record on its way to a replica (08 R257): the number of the write (09 R294) and the record. -/
structure RowRecord where
  seq : Nat
  bytes : Bytes
  deriving DecidableEq, Repr

/-- A die that retires (10 R319): which, and whether it has been silent for 100 ms. -/
structure DieEnd where
  die : Fin 256
  silent : Bool
  deriving DecidableEq, Repr

/-- The MGMT messages that name a switch (11 Table 11.3). -/
structure SwitchMsg where
  lane : Nat
  count : Nat
  deriving DecidableEq, Repr

/-- An ECC event (16 R506). -/
inductive EccErr where
  | corrected
  | memory (owner addr : Nat)
  | spokeSram (hub : Fin 32) (spoke : Fin 64)
  | hubStore (hub : Fin 32)
  | tileControl (tile : Fin 8)
  | hbmChannel (ch : Fin 128)
  deriving DecidableEq, Repr

/-- How the decoding of a codeword ended (10 R304, 14 R447). -/
inductive ReadOutcome where
  | hard (iters : Nat)
  | soft (retries iters : Nat)
  | rebuilt
  | uncorrectable
  | tagFail
  deriving DecidableEq, Repr

/-- The population that the parameter pages show (10 R298). -/
structure Population where
  cePerCh : Nat
  sameCount : Bool
  sameModel : Bool
  oneLun : Bool
  planes : Nat
  slcMode : Bool
  pageBytes : Nat
  spareBytes : Nat
  pagesPerDie : Nat
  pagesPerBlock : Nat
  slcBlockKiB : Nat
  tProgUs : Nat
  rateMts : Nat
  qlc : Bool
  peRated : Nat
  deriving DecidableEq, Repr

/-- What a start finds (15 R497): the strap's ADC value, the boot slots' images, the configuration block, the
population, and the tests of 16 R514. -/
structure StartInfo where
  adc : Nat
  slotAOk : Bool
  slotBOk : Bool
  progs : List (Nat × Program)
  words : List (Nat × BitVec 64)
  measure1 : Nat
  measure2 : Nat
  measure3 : Nat
  cfgBlock : Bytes
  cfgSigOk : Bool
  railsOk : Bool
  pop : Population
  badChannels : List Nat
  badSpokes : List Nat
  badCassettes : List Nat
  wrapOk : Bool
  journalOk : Nat
  deriving DecidableEq, Repr

/-- What of a certificate R454 (14) looks at. -/
structure CertInfo where
  role : Option Role
  ecdsaOk : Bool
  chainOk : Bool
  notBefore : Nat
  notAfter : Nat
  subject : Nat
  deriving DecidableEq, Repr

/-- A debug or maker token (14 R460, R461). -/
structure Token where
  serialOk : Bool
  challenge : Nat
  expiry : Nat
  sigOk : Bool
  deriving DecidableEq, Repr

/-- A HEARTBEAT (12 Table 12.6). -/
structure Heartbeat where
  node : Nat
  incarn : Nat
  state : Nat
  func : Nat
  digest : Nat
  nwatch : Nat
  round : Nat
  p50 : Nat
  port : Fin 16
  deriving DecidableEq, Repr

/-- The kinds of a peloton decision (12 R386, Table 12.6). -/
inductive DecisionKind where
  | nodeFailed
  | join
  | jobFault
  | function
  | absent
  | leaving
  deriving DecidableEq, Repr

/-- A DECIDE (12 Table 12.6). -/
structure Decision where
  dseq : Nat
  kind : DecisionKind
  subject : Nat
  incarn : Nat
  te : Nat
  /-- JOIN: SPARE; FUNCTION: the new function. -/
  arg : Nat
  port : Fin 16
  deriving DecidableEq, Repr

/-- Parameters of an index shard (02 Table 2.1). -/
structure ShardParams where
  vfSeg : Nat
  vfEx : Nat
  met : Nat
  d : Nat
  m : Nat
  p : Nat
  c : Nat
  ablk : Bool
  deriving DecidableEq, Repr

/-- What a shard's creation fixed, and its merge plan (topology, fan-in, list), for a node that has no such shard yet. -/
structure ShardHead where
  params : ShardParams
  centroids : Bytes
  codebook : Bytes
  plan : Option (Nat × Nat × List (Nat × Nat))
  segSerial : Nat
  deriving DecidableEq, Repr

/-- A segment as a copy streams it: its bytes and its current tombstone bitmap. -/
structure SegCopy where
  image : Bytes
  tomb : Nat
  deriving DecidableEq, Repr

/-- A partition of a sealed generation as a copy streams it: its segments, and its side list from `SIDE_FIRST` on. -/
structure PartCopy where
  part : Nat
  segs : List SegCopy
  sideFirst : Nat
  sideBits : Nat
  entries : List Bytes
  deriving DecidableEq, Repr

/-- A compaction that a seal commits: the new segments, where their slots came from, and the new `SIDE_FIRST`. -/
structure CompactCopy where
  part : Nat
  gen : Nat
  sideEnd : Nat
  segs : List Bytes
  origin : List (List (Nat × Nat))
  deriving DecidableEq, Repr

/-- Shard-pair traffic (12 R391, R392). `held` is the standby's word that it holds a side list up to an ordinal. -/
inductive ShardMsg where
  | append (sh : ShardId) (part ordinal : Nat) (entry : Bytes)
  | held (sh : ShardId) (part next src : Nat)
  | seal (sh : ShardId) (gen : Nat) (comps : List CompactCopy)
  | persisted (sh : ShardId) (gen src : Nat)
  | commit (sh : ShardId) (gen : Nat)
  | copyHead (sh : ShardId) (head : ShardHead)
  | copySealed (sh : ShardId) (gen : Nat) (parts : List PartCopy)
  deriving DecidableEq, Repr

/-- The commands, in the order of spec/opcode_table.json. -/
inductive Instr where
  | registerWrite (src : Src) (off width value : Nat)
  | tilePowerEstimate (tile : Fin 8) (milliwatt nodeW : Nat)
  | query (q : Fin 8192)
  | itemAdmit
  | mergeSessionReserve
  | itemDispatch
  | indexCreate (q : Fin 8192)
  | indexDrop (q : Fin 8192)
  | append (ctx : Nat)
  | sideAppend (t : Thr) (f : F1)
  | journalStage
  | seal (q : Fin 8192)
  | genSeal (t : Thr) (f : F1)
  | sealClose (sh : ShardId)
  | sealCommit (sh : ShardId) (persisted : Bool)
  | compactionStart (sh : ShardId) (part : Nat)
  | compactionSeal (sh : ShardId) (part : Nat)
  | genPin (t : Thr) (f : F1)
  | genUnpin (t : Thr) (f : F1)
  | lutBuild (t : Thr) (f : F4)
  | scanPq4 (t : Thr) (f : F4)
  | scanPq8 (t : Thr) (f : F4)
  | scanEx (t : Thr) (f : F4)
  | filtLd (t : Thr) (f : F4)
  | topkInit (t : Thr) (f : F4)
  | topkBlockGrant (hub : Fin 32)
  | topkPush (t : Thr) (f : F4)
  | topkMerge (t : Thr) (f : F4)
  | topkEmit (t : Thr) (f : F4)
  | nodeMerge (ctx : Nat)
  | mergeStream (m : MergeMsg)
  | mergeSessionClose (qtag : Nat)
  | mergeSessionTimeout (qtag : Nat)
  | heldStreamTimeout (qtag : Nat)
  | pinReleaseMessage (qtag : Nat)
  | shardPinTimeout (ctx : Nat)
  | mergePlan (q : Fin 8192)
  | argmax (t : Thr) (f : F1)
  | modelLoad (q : Fin 8192)
  | modelLoadDone (slot : Fin 64) (okay : Bool) (code : Nat)
  | modelUnload (q : Fin 8192)
  | cassetteBatchStart (tile : Fin 8)
  | cassetteBatchDone (tile : Fin 8)
  | cassetteWindow (tile : Fin 8)
  | casShift (t : Thr) (f : F4)
  | casRun (t : Thr) (f : F4)
  | free (t : Thr) (f : F4)
  | add (t : Thr) (f : F1)
  | sub (t : Thr) (f : F1)
  | and (t : Thr) (f : F1)
  | or (t : Thr) (f : F1)
  | xor (t : Thr) (f : F1)
  | shl (t : Thr) (f : F1)
  | shr (t : Thr) (f : F1)
  | sra (t : Thr) (f : F1)
  | slt (t : Thr) (f : F1)
  | sltu (t : Thr) (f : F1)
  | min (t : Thr) (f : F1)
  | max (t : Thr) (f : F1)
  | minu (t : Thr) (f : F1)
  | maxu (t : Thr) (f : F1)
  | sel (t : Thr) (f : F1)
  | popc (t : Thr) (f : F1)
  | clz (t : Thr) (f : F1)
  | ctz (t : Thr) (f : F1)
  | ptest (t : Thr) (f : F1)
  | mul (t : Thr) (f : F1)
  | mulh (t : Thr) (f : F1)
  | mulhu (t : Thr) (f : F1)
  | div (t : Thr) (f : F1)
  | divu (t : Thr) (f : F1)
  | rem (t : Thr) (f : F1)
  | remu (t : Thr) (f : F1)
  | fadd (t : Thr) (f : F1)
  | fsub (t : Thr) (f : F1)
  | fmul (t : Thr) (f : F1)
  | fdiv (t : Thr) (f : F1)
  | fsqrt (t : Thr) (f : F1)
  | fmin (t : Thr) (f : F1)
  | fmax (t : Thr) (f : F1)
  | feq (t : Thr) (f : F1)
  | flt (t : Thr) (f : F1)
  | fle (t : Thr) (f : F1)
  | fcvt (t : Thr) (f : F1)
  | kand (t : Thr) (f : F1)
  | kor (t : Thr) (f : F1)
  | kxor (t : Thr) (f : F1)
  | knot (t : Thr) (f : F1)
  | kmovS2k (t : Thr) (f : F1)
  | kmovK2s (t : Thr) (f : F1)
  | kpopc (t : Thr) (f : F1)
  | vadd (t : Thr) (f : F1)
  | vsub (t : Thr) (f : F1)
  | vmul (t : Thr) (f : F1)
  | vmin (t : Thr) (f : F1)
  | vmax (t : Thr) (f : F1)
  | vand (t : Thr) (f : F1)
  | vor (t : Thr) (f : F1)
  | vxor (t : Thr) (f : F1)
  | vshl (t : Thr) (f : F1)
  | vshr (t : Thr) (f : F1)
  | vsra (t : Thr) (f : F1)
  | vpopc (t : Thr) (f : F1)
  | vdotp (t : Thr) (f : F1)
  | vcmpEq (t : Thr) (f : F1)
  | vcmpNe (t : Thr) (f : F1)
  | vcmpLt (t : Thr) (f : F1)
  | vcmpLe (t : Thr) (f : F1)
  | vmov (t : Thr) (f : F1)
  | vbcast (t : Thr) (f : F1)
  | vext (t : Thr) (f : F1)
  | vperm (t : Thr) (f : F1)
  | vcvt (t : Thr) (f : F1)
  | vredAdd (t : Thr) (f : F1)
  | vredMin (t : Thr) (f : F1)
  | vredMax (t : Thr) (f : F1)
  | fence (t : Thr) (f : F1)
  | fenceRemote (t : Thr) (f : F1)
  | nop (t : Thr) (f : F1)
  | endThread (t : Thr) (f : F1)
  | yield (t : Thr) (f : F1)
  | addi (t : Thr) (f : F2)
  | andi (t : Thr) (f : F2)
  | ori (t : Thr) (f : F2)
  | xori (t : Thr) (f : F2)
  | shli (t : Thr) (f : F2)
  | shri (t : Thr) (f : F2)
  | srai (t : Thr) (f : F2)
  | slti (t : Thr) (f : F2)
  | sltiu (t : Thr) (f : F2)
  | beq (t : Thr) (f : F2)
  | bne (t : Thr) (f : F2)
  | blt (t : Thr) (f : F2)
  | bge (t : Thr) (f : F2)
  | bltu (t : Thr) (f : F2)
  | bgeu (t : Thr) (f : F2)
  | jal (t : Thr) (f : F2)
  | jalr (t : Thr) (f : F2)
  | srd (t : Thr) (f : F2)
  | swr (t : Thr) (f : F2)
  | li (t : Thr) (f : F5)
  | liu (t : Thr) (f : F5)
  | ldB (t : Thr) (f : F3)
  | ldBu (t : Thr) (f : F3)
  | ldH (t : Thr) (f : F3)
  | ldHu (t : Thr) (f : F3)
  | ldW (t : Thr) (f : F3)
  | ldWu (t : Thr) (f : F3)
  | ldD (t : Thr) (f : F3)
  | ldV (t : Thr) (f : F3)
  | stB (t : Thr) (f : F3)
  | stH (t : Thr) (f : F3)
  | stW (t : Thr) (f : F3)
  | stD (t : Thr) (f : F3)
  | stV (t : Thr) (f : F3)
  | amo (t : Thr) (fn : BitVec 5) (f : F3)
  | loadComplete (acc : Nat) (res : TierRes)
  | spokeKat (hub : Fin 32) (spoke : Fin 64) (sigOk : Bool)
  | tsRead (t : Thr) (f : F1)
  | snapArm (t : Thr) (f : F1)
  | qPop (t : Thr) (f : F1)
  | qPush (t : Thr) (f : F1)
  | qCommit (t : Thr) (f : F1)
  | semWait (t : Thr) (f : F1)
  | semPost (t : Thr) (f : F1)
  | barArrive (t : Thr) (f : F1)
  | evtSet (t : Thr) (f : F1)
  | evtWait (t : Thr) (f : F1)
  | waitTimeout (t : Thr)
  | contextDeadline (ctx : Nat)
  | tabGather (t : Thr) (f : F4)
  | tabPool (t : Thr) (f : F4)
  | tabUpdate (t : Thr) (f : F4)
  | tabReplace (t : Thr) (f : F4)
  | rowUpdateApply (eng : Fin 128)
  | rowReplaceApply (eng : Fin 128)
  | rowGatherRead (eng : Fin 128)
  | rowOwnerRecompute
  | replicaRowApply (owner addr : Nat) (rec : RowRecord)
  | tabGatherItem (ctx : Nat)
  | tabPoolItem (ctx : Nat)
  | tabUpdateItem (ctx : Nat)
  | tabReplaceItem (ctx : Nat)
  | lockAcquire (q : Fin 8192)
  | lockRelease (q : Fin 8192)
  | storeAmo (q : Fin 8192)
  | storeBandwidthGrant (client : Fin 1024)
  | leaseLapse (client : Fin 1024)
  | clientStatRead (src : Src) (client : Fin 1024)
  | stoCliIdWrite (src : Src) (client : Fin 1024) (value : Nat)
  | stoCliBwWrite (src : Src) (client : Fin 1024) (value : Nat)
  | cxlMemRead (dpa len : Nat) (nload : Fin 16)
  | cxlMemWrite (dpa : Nat) (data : Bytes) (nload : Fin 16)
  | cxlReadDeadline (id : Nat)
  | peerWindowAccess (off len : Nat) (data : Option Bytes)
  | regionMap (q : Fin 8192)
  | regionUnmap (q : Fin 8192)
  | regionUnmapComplete (owner region : Nat)
  | regionFlag (q : Fin 8192)
  | derailleurEpoch
  | capacityDemotion (tier : Fin 5)
  | quotaWrite (src : Src) (tid : Fin 1024) (second : Bool) (value : Nat)
  | tbCfgWrite (src : Src) (value : Nat)
  | chunkCommit (move : Nat)
  | moveStop (move code : Nat)
  | replicaWriteApply (owner addr seq : Nat) (data : Bytes)
  | replicaLagExceeded (owner region : Nat)
  | eccError (e : EccErr)
  | flashReadDone (unit codeword : Nat) (res : ReadOutcome)
  | flashProgramDone (die block : Nat) (okay erase : Bool)
  | dieRetire (die : DieEnd)
  | writeBack
  | mapPageWriteback (page : Nat)
  | garbageCollection (die : Fin 256)
  | slcFold (die : Fin 256) (idle : Bool)
  | wearLevelMove (die : Fin 256)
  | blockRefresh (die : Fin 256) (block : Nat)
  | patrolRead (die : Fin 256) (block : Nat) (iters retries : Nat)
  | zqCalibration (die : Fin 256)
  | pfSenseTrip (decivolt lowNs : Nat)
  | pfFreeze
  | pfPowerGate
  | journalSave
  | journalSaveComplete
  | busUndervoltage (decivolt : Nat)
  | busRecovery (decivolt goodMs : Nat)
  | laserPowerSample (port : Fin 16) (powers : List Nat)
  | codewordReceive (port : Fin 16) (count : Nat) (corrected : List Nat) (fecOk : Bool) (head payload tag tail : Bytes)
  | dataFlit (port : Fin 16) (f : FlitHdr)
  | ackFlit (port : Fin 16) (f : FlitHdr)
  | idleFlit (port : Fin 16) (f : FlitHdr)
  | ackTimer (port : Fin 16)
  | replayTimeout (port : Fin 16)
  | laneErrorWindow (port : Fin 16) (counts : List Nat)
  | laneSignalLoss (port : Fin 16) (lane : Fin 9)
  | spare (port : Fin 16) (m : SwitchMsg)
  | width (port : Fin 16) (m : SwitchMsg)
  | laneSwitch (port : Fin 16) (tx : Bool) (count : Nat)
  | rekey (port : Fin 16) (phase : Bool) (seq : RekeyPoint) (sigOk : Bool)
  | rekeyStart (port : Fin 16)
  | rekeyFail (port : Fin 16)
  | lcert (port : Fin 16) (index count : Nat) (certOk : Bool)
  | neigh (port : Fin 16) (node nport : Nat) (time : Nat) (digest : Nat)
  | portLight (port : Fin 16) (rxSignal : Nat)
  | portTrain (port : Fin 16) (elapsed : Nat)
  | portKey (port : Fin 16)
  | portNeigh (port : Fin 16)
  | portUp (port : Fin 16)
  | portStepTimeout (port : Fin 16)
  | portRetry (port : Fin 16)
  | timeExchange (port : Fin 16)
  | sync (port : Fin 16) (num t2 : Nat)
  | followUp (port : Fin 16) (num t1 t3 : Nat)
  | delayReq (port : Fin 16) (num t4 : Nat)
  | delayResp (port : Fin 16) (num t4 : Nat)
  | rd (p : Packet)
  | rdRsp (p : Packet)
  | wr (p : Packet)
  | wrRsp (p : Packet)
  | pwr (p : Packet)
  | pwrAck (p : Packet)
  | pwrAckTimer (src : Nat)
  | amoPacket (p : Packet)
  | amoRsp (p : Packet)
  | faultNote (p : Packet)
  | targetTimeout (tag : Nat)
  | postedWriteTimeout (tag : Nat)
  | heartbeatSend
  | heartbeat (m : Heartbeat)
  | heartbeatMiss (node : Nat)
  | suspect (subject incarn watcher tf : Nat)
  | vote (member subject incarn tf : Nat) (kind : DecisionKind)
  | decide (d : Decision)
  | beaconSend
  | beacon (leader bseq lastDecision : Nat) (port : Fin 16)
  | fenceTimeout
  | nodeFailedDecision
  | joinDecision
  | jobFaultDecision
  | functionDecision
  | absentDecision (node : Nat)
  | joinRequest (node incarn func : Nat) (spare : Bool)
  | jobFaultRequest (job : Nat) (te : Nat)
  | functionRequest (node func te : Nat) (lends serves : Bool)
  | leaveRequest (node te : Nat)
  | swapOutRequest (node : Nat) (lends replPrimary : Bool)
  | drainTimeout (sh : ShardId)
  | shardStream (m : ShardMsg)
  | windowCreate (q : Fin 8192)
  | windowRemove (q : Fin 8192)
  | jobStart (q : Fin 8192)
  | jobFault (q : Fin 8192)
  | jobStop (q : Fin 8192)
  | shardPair (q : Fin 8192)
  | replSet (q : Fin 8192)
  | routeSet (q : Fin 8192)
  | pelRequestJoin (q : Fin 8192)
  | pelRequestFunction (q : Fin 8192)
  | pelRequestLeave (q : Fin 8192)
  | pelRequestSwapOut (q : Fin 8192)
  | syncCreate (q : Fin 8192)
  | syncDestroy (q : Fin 8192)
  | syncSignal (q : Fin 8192)
  | doorbell (src : Src) (page : Nat) (value : Nat)
  | queueFlush (src : Src) (page : Nat) (value : Nat)
  | descriptorFetch (q : Fin 8192) (slots : List Bytes) (res : DmaRes)
  | ringDmaTimeout (q : Fin 8192)
  | qsyQcfgWrite (src : Src) (q : Fin 8192) (value : Nat)
  | bucketRefill
  | admShpCfgWrite (src : Src) (tid : Fin 1024) (value : Nat)
  | admClsCfgWrite (src : Src) (cls : Fin 8) (value : Nat)
  | gateOpen
  | gateClose
  | fixedSlotEntry (src : Src) (value : Nat)
  | fixedSlotExit (src : Src) (value : Nat)
  | tenantCreate (src : Src) (tid : Fin 1024) (value : Nat)
  | tenantDestroy (src : Src) (tid : Fin 1024) (value : Nat)
  | tenantDestroyComplete (tid : Fin 1024)
  | keyParityError (slot : Fin 1025) (both : Bool)
  | getVersion (ch : Chan)
  | getCapabilities (ch : Chan)
  | negotiateAlgorithms (ch : Chan) (offersAll : Bool)
  | getDigests (ch : Chan)
  | getCertificate (ch : Chan) (slot off len : Nat)
  | challenge (ch : Chan) (slot nonce : Nat)
  | getMeasurements (ch : Chan) (index nonce : Nat)
  | keyExchange (ch : Chan) (cert : Option CertInfo)
  | finish (session : Nat) (macOk : Bool)
  | spdmHeartbeat (session : Nat)
  | spdmHeartbeatTimeout (session : Nat)
  | keyUpdate (session : Nat)
  | endSession (session : Nat)
  | getCsr (ch : Chan)
  | setCertificate (session slot : Nat) (chain : Bytes)
  | chunkSend (ch : Chan) (seq : Nat) (data : Bytes) (last : Bool)
  | chunkGet (ch : Chan) (seq : Nat)
  | setTenantKey (session : Nat) (kpersist : Bool) (tid : Fin 1024) (key : Nat)
  | setConsent (session : Nat) (consent : Bool)
  | regRead (session off width : Nat)
  | regWrite (session off width value : Nat)
  | setAnchor (session : Option Nat) (digest : Nat) (sigOk : Bool)
  | debugToken (session : Nat) (tok : Token)
  | debugTokenExpiry
  | makerToken (session : Nat) (tok : Token)
  | bypass (tdi : List Bool)
  | idcode
  | samplePreload (pins : Nat)
  | extest (pins : Nat)
  | jtagSystemDebug (code : Nat)
  | jtagTenantDebug (code : Nat) (tid : Fin 1024) (t : Thr) (halt : Bool)
  | jtagMakerTest (code : Nat)
  | pmbusStatusPoll (faults : List Nat)
  | pmbusTelemetryPoll (mv ma dc : List Nat)
  | railFault (rail : Fin 17) (millivolt : Nat) (regulatorFault : Bool)
  | hubFreewheel (hub : Fin 32)
  | pllPowerDown (tile : Fin 8)
  | pllRelock (tile : Fin 8)
  | thermalSample (dies hbms : List Nat)
  | throttleWithdraw
  | throttleRelease
  | throttleReturn
  | powerOn
  | brownOut
  | nodeRstN (lowUs : Nat)
  | perstN
  | pcieHotReset
  | pcieLinkDown
  | managementWatchdog
  | tileWatchdog (hub : Fin 32) (stuckMs : Nat)
  | lockstepMismatch
  | clockLoss (which : Nat)
  | resetRequest (src : Src) (value : Nat)
  | resetL3 (tile : Fin 8)
  | resetL2
  | resetL1
  | resetL0
  | resetComplete (level : Nat) (tile : Fin 8) (lost : List (Nat × Nat))
  | resetFuseProgram (src : Src) (value : Nat)
  | strapOverrideWrite (src : Src) (value : Nat)
  | nodeStart (info : StartInfo)
  | nodeReady
  | startTimeout
  | mboxWrite (src : Src) (value : Nat) (data : Bytes)
  | mboxCommit (src : Src) (value : Nat) (sigOk : Bool)
  | mboxClear (src : Src) (value : Nat)
  | mboxReset (src : Src) (value : Nat)
  | mgtTimeSet (src : Src) (value : Nat)
  | cassetteKat (tile : Fin 8) (sigOk : Bool)
  | logTailWrite (src : Src) (value : Nat)
  | firstFaultClear (src : Src) (value : Nat)
  | suspectReportRelease (src : Src) (value : Nat)
  | snapshotArm (src : Src) (value : Nat)
  | snapshotPortArm (t issuer seq : Nat) (port : Fin 16)
  | snapshotLatch
  | snapshotComplete (bank : Fin 2)
  | functionLevelReset (func : Fin 1025)
  | vfEnableClear
  | poisonedTlp (func : Fin 1025)
  | identifyMemoryDevice
  | getSupportedLogs
  | getLog (off len : Nat)
  | getEventRecords (log : Fin 4)
  | clearEventRecords (log : Fin 4) (handles : List Nat)
  | getHealthInfo
  | setEndpointId (eid : Nat)
  | getPdr (record : Nat)
  | getSensorReading (sensor : Nat)
  | getStateSensorReadings (sensor : Nat)
  | pollForPlatformEventMessage
  | gpioFallingEdge (pin : Fin 8)
  | registerRead (src : Src) (off width : Nat)
  | unsupportedRequest (posted : Bool)
  | pcieLinkUp (width speed : Nat) (flit cxl : Bool)
  | storeComplete (acc : Nat) (res : TierRes)
  | flashServiceSlot (channel : Fin 16)
  | timeHoldEnd (parentTime : Nat)
  | sealAreaFold
  deriving DecidableEq, Repr

end Sys2Proof
end

