-- ==== Sys2Proof/WellFormed.lean ====
section
/-! DEFINITION. Which commands a sender of the spec can send: the checks on operands that no type makes. A command that
fails one still has the effect that its rule gives (00 R556: an access of a wrong width is an error of its own). -/

namespace Sys2Proof

/-- 00 R556: an access is of 4 or 8 bytes, aligned. -/
def accessOk (off width : Nat) : Bool := (width == 4 || width == 8) && off % width == 0

/-- A value fits the bytes of its access. -/
def valueOk (width v : Nat) : Bool := decide (v < 256 ^ width)

/-- An owner is a TID or the system context, 1,024. -/
def ownerOk (owner : Nat) : Bool := decide (owner ≤ 1024)

/-- 12 Table 12.1: the fields of a packet in their widths; its length is that of its data. -/
def packetOk (p : Packet) : Bool :=
  decide (p.ptype < 16 ∧ p.len ≤ 256 ∧ p.job < 65536 ∧ p.dst < 32768 ∧ p.src < 32768 ∧ p.tag < 65536 ∧ p.status < 65536
    ∧ p.load < 16 ∧ p.addr < 2 ^ 64 ∧ p.data.length ≤ 256)

/-- 06 R160: reserved bits of a Thilen instruction are 0. -/
def reservedOk (i : Instr) : Bool :=
  match i with
  | .add _ f | .sub _ f | .nop _ f | .fence _ f | .yield _ f | .endThread _ f => f.rsv == 0
  | .addi _ f | .beq _ f | .jal _ f | .srd _ f | .swr _ f => f.rsv == 0
  | _ => true

/-- The checks together. -/
def Instr.wf (i : Instr) : Bool :=
  reservedOk i && match i with
  | .registerWrite _ off w v => accessOk off w && valueOk w v
  | .registerRead _ off w | .regRead _ off w => accessOk off w
  | .regWrite _ off w v => accessOk off w && valueOk w v
  | .regionUnmapComplete o _ | .replicaWriteApply o _ _ _ | .replicaRowApply o _ _ | .replicaLagExceeded o _ => ownerOk o
  | .rd p | .rdRsp p | .wr p | .wrRsp p | .pwr p | .pwrAck p | .amoPacket p | .amoRsp p | .faultNote p => packetOk p
  | _ => true

end Sys2Proof
end

