-- ==== Sys2Proof/Decode.lean ====
section
/-! DEFINITION. The words that spell commands. -/

namespace Sys2Proof

/-- spec/opcode_table.json gives its rows no bits: no word spells a command. -/
def decodeTableWord (_nbits _w : Nat) : Option Instr := none

end Sys2Proof
end

