-- ==== Sys2Proof/Machine/Bits.lean ====
section
/-! DEFINITION. Bit fields, byte order (00 R7), CRC-32C and SHA-384. -/

namespace Sys2Proof.Machine

/-- The field of `v` that starts at bit `lo` and is `w` bits wide. -/
def fld (v lo w : Nat) : Nat := (v >>> lo) % 2 ^ w

/-- One bit of `v`. -/
def bitAt (v i : Nat) : Bool := fld v i 1 == 1

/-- A Bool as the bit it is in a register. -/
def b2n (b : Bool) : Nat := if b then 1 else 0

/-- A value placed at bit `lo`, cut to its width. -/
def put (v lo w : Nat) : Nat := (v % 2 ^ w) <<< lo

/-- The mask of a field. -/
def fmask (lo w : Nat) : Nat := (2 ^ w - 1) <<< lo

/-- The number that a list of bytes holds, little-endian (00 R7). -/
def leNat : Bytes → Nat
  | [] => 0
  | b :: t => b.toNat + 256 * leNat t

/-- A number as `n` bytes, little-endian. -/
def natLe : Nat → Nat → Bytes
  | 0, _ => []
  | n + 1, v => BitVec.ofNat 8 v :: natLe n (v / 256)

/-- A number as `n` bytes, big-endian. -/
def natBe (n v : Nat) : Bytes := (natLe n v).reverse

/-- `n` bytes from position `p`; a byte past the end reads 0. -/
def slice (b : Bytes) (p n : Nat) : Bytes :=
  let t := (b.drop p).take n
  t ++ List.replicate (n - t.length) 0

/-- The `n`-byte number at position `p`. -/
def getLe (b : Bytes) (p n : Nat) : Nat := leNat (slice b p n)

/-- The bytes with the ones at position `p` replaced. -/
def putBytes (b : Bytes) (p : Nat) (x : Bytes) : Bytes :=
  slice b 0 p ++ x ++ b.drop (p + x.length)

/-- Every byte of a stretch is zero: a reserved region (00 R8). -/
def zeros (b : Bytes) (p n : Nat) : Bool := getLe b p n == 0

/-- Two's complement. -/
def toSigned (w v : Nat) : Int := (BitVec.ofNat w v).toInt

/-- An integer cut to `w` bits. -/
def ofSigned (w : Nat) (i : Int) : Nat := (BitVec.ofInt w i).toNat

/-- Division that rounds up; 0 for a divisor of 0. -/
def ceilDiv (a b : Nat) : Nat := (a + b - 1) / b

/-- The smallest power of two that is at least `n`, within `fuel` doublings. -/
def pow2Above : Nat → Nat → Nat → Nat
  | 0, _, p => p
  | fuel + 1, n, p => if n ≤ p then p else pow2Above fuel n (2 * p)

/-- How many bits of a number, from bit 0 below `w`, are 1. -/
def popcount : Nat → Nat → Nat
  | 0, _ => 0
  | w + 1, v => v % 2 + popcount w (v / 2)

/-- The numbers of the bits that are 1, rising. -/
def setBits (w v : Nat) : List Nat := (List.range w).filter (bitAt v)

/-- The sum of a list. -/
def sumN (l : List Nat) : Nat := l.foldl (· + ·) 0

/-- The largest of a list; 0 when it is empty. -/
def maxN (l : List Nat) : Nat := l.foldl max 0

/-- CRC-32C (08 R244, 15 R495): reflected polynomial 0x82F6_3B78. -/
def crcBit : Nat → Nat → Nat
  | 0, c => c
  | n + 1, c => crcBit n (if c % 2 = 1 then (c / 2) ^^^ 0x82F63B78 else c / 2)

def crcStep (c : Nat) (b : Byte) : Nat := crcBit 8 (c ^^^ b.toNat)

def crc32c (b : Bytes) : Nat := (b.foldl crcStep 0xFFFFFFFF) ^^^ 0xFFFFFFFF

namespace Sha

/-! SHA-384 is named by 14 and 12 and stated by neither; what follows is FIPS 180-4's, over numbers below 2^64. Its
constants are fractions of roots of primes, and are computed as such. -/

/-- The primes below 410: the first eighty. -/
def primes : List Nat := (List.range' 2 408).filter fun n => [2, 3, 5, 7, 11, 13, 17, 19].all fun d => n % d != 0 || n == d

/-- The largest `x + y`, `y` below `2 ^ b`, whose `e`-th power is at most `n`. -/
def rootFrom (e n : Nat) : Nat → Nat → Nat
  | 0, x => x
  | b + 1, x => rootFrom e n b (if (x + 2 ^ b) ^ e ≤ n then x + 2 ^ b else x)

/-- The first 64 bits of the fraction of the `e`-th root of `p`. -/
def rootFraction (e p : Nat) : Nat := rootFrom e (p * 2 ^ (64 * e)) 70 0 % 2 ^ 64

/-- A number turned right by each of some distances, and by a shift, all joined by exclusive or. -/
def turns (l : List Nat) (drop : Nat) (x : Nat) : Nat :=
  l.foldl (fun a n => a ^^^ ((x >>> n) ||| (x <<< (64 - n)) % 2 ^ 64)) (x >>> drop)

/-- The words of a block that the message does not give; newest first. -/
def extend : Nat → List Nat → List Nat
  | 0, w => w
  | n + 1, w =>
    extend n ((turns [19, 61] 6 (w.getD 1 0) + w.getD 6 0 + turns [1, 8] 7 (w.getD 14 0) + w.getD 15 0) % 2 ^ 64 :: w)

/-- The eight working words as two shift registers of four, newest first. -/
structure Regs where
  hi : List Nat
  lo : List Nat

/-- One round, with its constant and its word of the message. -/
def stir (r : Regs) (c : Nat) : Regs :=
  let a := fun i => r.hi.getD i 0
  let e := fun i => r.lo.getD i 0
  let t := e 3 + turns [14, 18, 41] 64 (e 0) + ((e 0 &&& e 1) ||| ((2 ^ 64 - 1 - e 0) &&& e 2)) + c
  let major := (a 0 &&& (a 1 ||| a 2)) ||| (a 1 &&& a 2)
  ⟨(t + turns [28, 34, 39] 64 (a 0) + major) % 2 ^ 64 :: r.hi.take 3, (t + a 3) % 2 ^ 64 :: r.lo.take 3⟩

/-- One block of sixteen words taken into the chain of eight. -/
def absorb (chain ws : List Nat) : List Nat :=
  let cs := (primes.zip (extend 64 ws.reverse).reverse).map fun p => rootFraction 3 p.1 + p.2
  let r := cs.foldl stir ⟨chain.take 4, chain.drop 4⟩
  (chain.zip (r.hi ++ r.lo)).map fun p => (p.1 + p.2) % 2 ^ 64

/-- A message of whole blocks, block by block. -/
def absorbAll : Nat → Bytes → List Nat → List Nat
  | 0, _, chain => chain
  | n + 1, b, chain => absorbAll n (b.drop 128) (absorb chain ((List.range 16).map fun i => leNat (slice b (8 * i) 8).reverse))

/-- SHA-384, 48 bytes: the chain begins with fractions of the square roots of the ninth to the sixteenth prime. -/
def sha384 (m : Bytes) : Bytes :=
  let p := m ++ [0x80] ++ List.replicate ((239 - m.length % 128) % 128) 0 ++ natBe 16 (8 * m.length)
  ((absorbAll (p.length / 128) p (((primes.drop 8).take 8).map (rootFraction 2))).take 6).flatMap (natBe 8)

def pad128 (k : Bytes) (x : Byte) : Bytes := (slice (if k.length > 128 then sha384 k else k) 0 128).map (· ^^^ x)

/-- HMAC-SHA-384. -/
def hmac384 (k m : Bytes) : Bytes := sha384 (pad128 k 0x5c ++ sha384 (pad128 k 0x36 ++ m))

end Sha

/-- 14 R441: `derive(R, L, c)`, bytes 0–31 of HMAC-SHA-384(R, L ‖ c ‖ 0x01 ‖ 0x00). -/
def deriveKey (root label ctx : Bytes) : Bytes := (Sha.hmac384 root (label ++ ctx ++ [1, 0])).take 32

/-- 14 R436: the key ID, bytes 0–7 of the SHA-384 of the root key. -/
def keyIdOf (root : Nat) : Nat := leNat ((Sha.sha384 (natLe 32 root)).take 8)

/-- 14 R443: the 96-bit GCM IV. -/
def gcmIv (epoch unitAddr counter : Nat) : Nat := put epoch 72 24 + put unitAddr 32 40 + put counter 0 32

end Sys2Proof.Machine
end

