-- ==== Sys2Proof/Machine/Aes.lean ====
section
/-! DEFINITION. AES-256 and its Galois counter mode, with which model images (05 R143, R149), flits (11 R341, 14 R448) and lines of the pool (14 R446) are sealed and opened. -/

namespace Sys2Proof.Machine
namespace Aes

/-- A product of polynomials over two elements, modulo `x ^ w` plus a lower polynomial, by Horner's rule. -/
def fieldMul (w low a b : Nat) : Nat :=
  (List.range w).foldl (fun r i =>
    let twice := (2 * r) % 2 ^ w ^^^ (if bitAt r (w - 1) then low else 0)
    if bitAt b (w - 1 - i) then twice ^^^ a else twice) 0

/-- Two times a byte. -/
def twice (x : Nat) : Nat := (2 * x) % 256 ^^^ (if x < 128 then 0 else 0x1B)

/-- Successive multiples of a byte by 3. Those of 1 are its powers, which are all the bytes but 0. -/
def multiples : Nat → Nat → List Nat
  | 0, _ => []
  | n + 1, x => x :: multiples n (twice x ^^^ x)

/-- The substitution of a byte whose inverse (0 of 0) is given: five rotations of it added, and a constant. -/
def turned (inv : Nat) : Nat :=
  let b := inv * 0x101
  [0, 4, 5, 6, 7].foldl (fun r k => r ^^^ (b >>> k) % 256) 0x63

/-- The substitution as a table: byte `x` of a number is that of `x`. The inverse of 3 ^ i is 3 ^ (255 - i). -/
def subTable : Nat :=
  let l := multiples 255 1
  (l.zip (1 :: (l.drop 1).reverse)).foldl (fun t p => t + put (turned p.2) (8 * p.1) 8) (turned 0)

def look (t x : Nat) : Nat := fld t (8 * x) 8

def xorBytes (a b : List Nat) : List Nat := List.zipWith (fun x y => x ^^^ y) a b

/-- The key schedule: words of four bytes, newest first, from word `i` on; `c` is the round constant that is next. -/
def schedule (t : Nat) : Nat → Nat → Nat → List (List Nat) → List (List Nat)
  | 0, _, _, ws => ws
  | n + 1, i, c, ws =>
    let last := ws.headD []
    let s := fun (l : List Nat) => l.map (look t)
    let g := if i % 8 = 0 then xorBytes (s (last.drop 1 ++ last.take 1)) [c, 0, 0, 0] else if i % 8 = 4 then s last else last
    schedule t n (i + 1) (if i % 8 = 0 then twice c else c) (xorBytes (ws.getD 7 []) g :: ws)

/-- The fifteen round keys of a key of 32 bytes. -/
def roundKeys (t : Nat) (key : Bytes) : List (List Nat) :=
  let k := key.map BitVec.toNat
  let ws := (schedule t 52 8 1 ((List.range 8).reverse.map fun i => (k.drop (4 * i)).take 4)).reverse
  (List.range 15).map fun r => ((ws.drop (4 * r)).take 4).flatten

/-- One round: substitution, the rows turned, the columns mixed but in the last round, the round key. -/
def round (t : Nat) (mix : Bool) (st rk : List Nat) : List Nat :=
  let moved := fun (i : Nat) => look t (st.getD ((i + 4 * (i % 4)) % 16) 0)
  let out := fun (i : Nat) =>
    let at' := fun (k : Nat) => moved (4 * (i / 4) + (i + k) % 4)
    if mix then twice (at' 0 ^^^ at' 1) ^^^ at' 1 ^^^ at' 2 ^^^ at' 3 else moved i
  xorBytes ((List.range 16).map out) rk

/-- A block enciphered under round keys. -/
def cipher (t : Nat) (rks : List (List Nat)) (block : List Nat) : List Nat :=
  let start := xorBytes block (rks.headD [])
  round t false (((rks.drop 1).take 13).foldl (round t true) start) (rks.getD 14 [])

/-- A number with its low `w` bits in the opposite order. -/
def mirror (w x : Nat) : Nat := sumN ((List.range w).map fun i => put (b2n (bitAt x i)) (w - 1 - i) 1)

/-- Blocks of sixteen bytes, the last filled with zeros. -/
def blocks (b : Bytes) : List Bytes := (List.range (ceilDiv b.length 16)).map fun i => slice b (16 * i) 16

/-- The hash of blocks under a hash key, both with the first bit as the coefficient of 1. -/
def ghash (h : Nat) (bs : List Bytes) : Nat :=
  bs.foldl (fun y b => fieldMul 128 0x87 (y ^^^ mirror 128 (leNat b.reverse)) h) 0

/-- AES-256-GCM: a text under a key and a 96-bit IV, deciphered (or enciphered), and the tag of the ciphertext `c`. -/
def gcm (key iv aad text c : Bytes) : Bytes × Bytes :=
  let t := subTable
  let rks := roundKeys t key
  let pad := fun (n : Nat) => (cipher t rks ((iv ++ natBe 4 n).map BitVec.toNat)).map fun x => (BitVec.ofNat 8 x : Byte)
  let h := mirror 128 (leNat (((cipher t rks (List.replicate 16 0)).map fun x => (BitVec.ofNat 8 x : Byte)).reverse))
  let stream := (List.range (ceilDiv text.length 16)).flatMap fun i => pad (i + 2)
  let y := ghash h (blocks aad ++ blocks c ++ [natBe 8 (8 * aad.length) ++ natBe 8 (8 * c.length)])
  (List.zipWith (fun a b => a ^^^ b) text stream, List.zipWith (fun a b => a ^^^ b) (natBe 16 (mirror 128 y)) (pad 1))

end Aes

/-- What a ciphertext deciphers to; none where its tag does not check. -/
def gcmOpen (key iv aad c tag : Bytes) : Option Bytes :=
  let r := Aes.gcm key iv aad c c
  if r.2 == tag then some r.1 else none

/-- A text enciphered, and its tag. -/
def gcmSeal (key iv aad text : Bytes) : Bytes × Bytes :=
  let c := (Aes.gcm key iv aad text []).1
  (c, (Aes.gcm key iv aad [] c).2)

end Sys2Proof.Machine
end

