-- ==== Sys2Proof/Config.lean ====
section
/-! DEFINITION. The free values: what the spec leaves open, as constants without a body. -/

namespace Sys2Proof.Config

/-- The n-th free value drawn (notes/assumptions/18.md). -/
opaque free : Nat → Nat

/-- The pattern of a NaN result, of the operation and its operands (notes/assumptions/7.md). -/
opaque nanBits : Nat → Nat → Nat → Nat

/-- The digest of a measurement block's content, whose encoding the spec does not give (notes/assumptions/18.md). -/
opaque measured : Nat → List Nat → Nat

/-- The DeviceID public key of a device secret (14 R450): the derivation is not stated (notes/assumptions/10.md). -/
opaque devicePub : Nat → Bytes

/-- A value of a model's run that 05 does not state, of the payload, the operands and a number (notes/assumptions/97.md). -/
opaque unstated : Bytes → List Nat → Nat → Nat

/-- The size of an SPDM chunk (notes/assumptions/43.md). -/
opaque chunkSize : Nat

end Sys2Proof.Config
end

