-- ==== Sys2Proof/Machine/Regs.lean ====
section
/-! DEFINITION. The registers of BAR0 and of the VF windows: offsets, widths, fields, roles and the code of a
write out of range. Each row is a register description of spec/; which reserved bits a register has follows from the
fields listed (17 R534, 00 R9). -/

namespace Sys2Proof.Machine

/-- The registers and record windows, in the order of 17 Table 17.4. -/
inductive RegName where
  | devId | devStatus
  | rstCause | rstMap | rstProg | rstReq | rstRange | strapOvr | pfCfg | pfStat | time | timeSet | timeStat
  | clkCfg | tpwrLim | pwrStat | concRedCnt | therm | mboxCtl | mboxWin
  | logStat | logRing | logRdSel | logWin | ffTime | ffInfo | ffCtl | clsCnt | dropCnt | coalCnt | eccCnt
  | snapCfg | snapArm | snapStat | snapSel | snapData | suspSel | suspWin
  | tenCfg | kslot | fsLim | roleStat | dbgStat | audSeq | audSel | audWin
  | accErr | cxlCfg | p2pBase | linkStat | smbCfg | gpioCfg | gpioData
  | qcfg | qbase | qshd | qstat | syncStat | syncVal | genCfg | genStat | genSealCnt | genDelMissCnt
  | scnCfg | scnNanCnt
  | shpCfg | shpTok | clsCfg | clsTok | gateCfg | egrCfg | egrCfg3 | isoCfg | fsTen | fsSys
  | pfaultCnt | pfaultLast | hubOcc | spkRet
  | mrgCfg | selStat | bpCnt | blkWaitCnt | msWaitCnt | selMissCnt
  | casCfg | casSlot | casStat | casShiftCnt | casRunCnt
  | drlCfg | stallCfg | replCfg | tbCfg | drlStat | moveCnt | hbmRet | tq0 | tq1 | tuse0 | tuse1 | stallCnt | tmoCnt
  | stoCfg | stoStat | leaseLapseCnt | expBase | expLen | cliId | cliBw | cliStat
  | flsCfg | flsRdCfg | flsWlCfg | flsStat | flsPop | dieRet | healthWin
  | portCfg | portStat | laserPwr | portCnt | linkCfg | timeCfg | fabTimeStat
  | pelCfg | tmoCfg | pelCncl | digest | pelStat | membSel | membData | ledgerHead | ledgerOvfCnt | staleCnt | ledgerWin
  | qDb | qDbStat
  | tspId | tspAccErr | tspNan | tspTmo | tspStall | tspTuse0 | tspTuse1 | tspCli | tspLogCnt | tspLogSel | tspLdgSel
  | tspSuspSel | tspLogWin | tspLdgWin | tspSuspWin
  deriving DecidableEq, Repr

/-- The access codes of 00 Table 0.3 that a field can have (what no field covers is RSV). -/
inductive Acc where
  | ro | rw | w1c | wo
  deriving DecidableEq, Repr

structure Field where
  acc : Acc
  lo : Nat
  w : Nat
  reset : Nat
  deriving DecidableEq, Repr

def rw (lo w : Nat) (reset : Nat := 0) : Field := ⟨.rw, lo, w, reset⟩
def ro (lo w : Nat) : Field := ⟨.ro, lo, w, 0⟩
def w1c (lo w : Nat) : Field := ⟨.w1c, lo, w, 0⟩
def wo (lo w : Nat) : Field := ⟨.wo, lo, w, 0⟩

/-- Who may write or read: anyone, or sessions of the roles listed (14 R455, R457). -/
inductive Who where
  | any
  | roles (l : List Role)
  deriving DecidableEq, Repr

/-- A register, or an array of `count` registers `stride` apart. `width` is in bytes. -/
structure RegRow where
  name : RegName
  base : Nat
  stride : Nat
  count : Nat
  width : Nat
  writer : Who
  reader : Who
  fields : List Field
  deriving DecidableEq, Repr

def oper : Who := .roles [.operator]
def inst : Who := .roles [.installer]
def operInst : Who := .roles [.operator, .installer]
def allRoles : Who := .roles [.operator, .installer, .maker]

/-- A register that stands once. -/
def reg1 (n : RegName) (base width : Nat) (wr rd : Who) (fs : List Field) : RegRow := ⟨n, base, 8, 1, width, wr, rd, fs⟩

/-- A 64-bit counter, read-only for all. -/
def cnt1 (n : RegName) (base : Nat) : RegRow := ⟨n, base, 8, 1, 8, .any, .any, [ro 0 64]⟩

def rowsDevMgt : List RegRow := [
  reg1 .devId 0x0 4 .any .any [ro 16 16, ro 12 4, ro 8 4, ro 4 4],
  reg1 .devStatus 0x8 4 .any .any [ro 18 14],
  reg1 .rstCause 0x10000 4 .any .any [ro 16 16, ro 8 3, ro 6 2, ro 0 4],
  reg1 .rstMap 0x10008 8 .any .any [ro 32 1, ro 0 32],
  reg1 .rstProg 0x10010 4 inst .any [wo 0 32],
  reg1 .rstReq 0x10018 4 allRoles .any [wo 1 3, wo 0 1],
  reg1 .rstRange 0x10020 8 .any .any [ro 32 32, ro 0 32],
  reg1 .strapOvr 0x10028 4 inst .any [rw 4 1, rw 0 4],
  reg1 .pfCfg 0x10100 4 inst .any [rw 0 8 108],
  reg1 .pfStat 0x10108 8 .any .any [ro 32 32, ro 16 16, ro 1 1, ro 0 1],
  reg1 .time 0x10200 8 .any .any [ro 0 64],
  reg1 .timeSet 0x10208 8 oper .any [wo 0 64],
  reg1 .timeStat 0x10210 4 .any .any [ro 1 1, ro 0 1],
  reg1 .clkCfg 0x10300 4 oper .any [rw 16 16 10, rw 0 16 1],
  reg1 .tpwrLim 0x10800 4 inst .any [rw 0 8 50],
  reg1 .pwrStat 0x10808 8 .any .any [ro 32 32, ro 0 10],
  cnt1 .concRedCnt 0x10810,
  reg1 .therm 0x10818 4 inst .any [ro 16 1, rw 8 8 110, rw 0 8 100],
  reg1 .mboxCtl 0x10F00 8 .any .any [ro 48 16, ro 47 1, wo 16 1, wo 3 13, wo 0 3],
  ⟨.mboxWin, 0x11000, 8, 512, 8, .any, .any, [rw 0 64]⟩]

def rowsLogSec : List RegRow := [
  reg1 .logStat 0x20000 8 oper oper [ro 32 32, w1c 4 4, w1c 3 1, ro 2 1, ro 1 1, ro 0 1],
  reg1 .logRing 0x20008 8 oper oper [ro 32 32, rw 0 32],
  reg1 .logRdSel 0x20010 8 oper oper [rw 0 32],
  ⟨.logWin, 0x20040, 8, 8, 8, oper, oper, [ro 0 64]⟩,
  reg1 .ffTime 0x20100 8 oper oper [ro 0 64],
  reg1 .ffInfo 0x20108 8 oper oper [ro 48 16, ro 32 16, ro 0 32],
  reg1 .ffCtl 0x20110 8 oper oper [ro 32 32, wo 0 1],
  ⟨.clsCnt, 0x20200, 8, 12, 8, oper, oper, [ro 0 64]⟩,
  reg1 .dropCnt 0x20280 8 oper oper [ro 0 64],
  reg1 .coalCnt 0x20288 8 oper oper [ro 0 64],
  reg1 .eccCnt 0x20290 8 oper oper [ro 0 64],
  reg1 .snapCfg 0x20300 4 oper oper [rw 0 1],
  reg1 .snapArm 0x20308 8 oper oper [wo 0 64],
  reg1 .snapStat 0x20310 8 oper oper [ro 48 16, ro 32 16, ro 24 8, ro 0 3],
  reg1 .snapSel 0x20318 8 oper oper [rw 63 1, rw 3 23],
  reg1 .snapData 0x20320 8 oper oper [ro 0 64],
  reg1 .suspSel 0x20400 4 oper oper [rw 12 2, rw 0 12],
  ⟨.suspWin, 0x20420, 8, 4, 8, oper, oper, [ro 0 64]⟩,
  ⟨.tenCfg, 0x30000, 8, 1024, 8, oper, .any, [rw 63 1, rw 62 1, ro 61 1, ro 60 1, rw 0 32]⟩,
  ⟨.kslot, 0x32000, 8, 1025, 8, .any, .any, [ro 2 62, ro 0 2]⟩,
  ⟨.fsLim, 0x34100, 8, 1024, 8, oper, .any, [rw 48 16, rw 38 10, rw 26 12, rw 14 12, rw 2 12]⟩,
  reg1 .roleStat 0x38000 4 .any .any [ro 3 4, ro 2 1, ro 1 1, ro 0 1],
  reg1 .dbgStat 0x38008 4 .any .any [ro 6 2, ro 5 1, ro 4 1, ro 0 2],
  reg1 .audSeq 0x38010 8 .any .any [ro 0 64],
  reg1 .audSel 0x38080 8 operInst operInst [rw 0 64],
  ⟨.audWin, 0x38100, 8, 16, 8, .any, operInst, [ro 0 64]⟩]

def rowsHif : List RegRow := [
  reg1 .accErr 0x40000 8 .any .any [ro 48 16, ro 37 11, ro 36 1, w1c 35 1, w1c 34 1, ro 0 26],
  reg1 .cxlCfg 0x40008 4 inst .any [rw 0 9],
  reg1 .p2pBase 0x40010 8 oper .any [rw 0 27],
  reg1 .linkStat 0x40018 4 .any .any [ro 15 1, ro 14 1, ro 9 5, ro 6 3, ro 0 1],
  reg1 .smbCfg 0x40020 4 inst .any [rw 8 2 2, rw 0 7 0x3A],
  reg1 .gpioCfg 0x40028 4 inst .any [rw 0 16],
  reg1 .gpioData 0x40030 4 oper .any [ro 8 8, rw 0 8 0xFF]]

def rowsQsyAdm : List RegRow := [
  ⟨.qcfg, 0x100000, 32, 8192, 8, oper, .any, [rw 0 64]⟩,
  ⟨.qbase, 0x100008, 32, 8192, 8, oper, .any, [rw 12 52]⟩,
  ⟨.qshd, 0x100010, 32, 8192, 8, oper, .any, [rw 3 61]⟩,
  ⟨.qstat, 0x100018, 32, 8192, 8, .any, .any, [ro 0 64]⟩,
  ⟨.syncStat, 0x180000, 16, 4096, 8, .any, .any, [ro 50 14, ro 32 14]⟩,
  ⟨.syncVal, 0x180008, 16, 4096, 8, .any, .any, [ro 0 64]⟩,
  reg1 .genCfg 0x1C0000 4 oper .any [rw 16 8 25, rw 8 8 8],
  reg1 .genStat 0x1C0008 8 .any .any [ro 32 11, ro 0 17],
  cnt1 .genSealCnt 0x1C0010,
  cnt1 .genDelMissCnt 0x1C0018,
  reg1 .scnCfg 0x1D0000 4 oper .any [rw 0 3 7],
  ⟨.scnNanCnt, 0x1D2000, 8, 1024, 8, .any, .any, [ro 0 64]⟩,
  ⟨.shpCfg, 0x200000, 16, 1024, 8, oper, .any, [rw 40 24, rw 32 8, rw 0 24]⟩,
  ⟨.shpTok, 0x200008, 16, 1024, 8, .any, .any, [ro 0 34]⟩,
  ⟨.clsCfg, 0x210000, 16, 8, 8, oper, .any, [rw 40 24, rw 0 24]⟩,
  ⟨.clsTok, 0x210008, 16, 8, 8, .any, .any, [ro 0 34]⟩,
  reg1 .gateCfg 0x210100 8 oper .any [rw 40 24 4096, rw 20 20 10000, rw 0 20 2000],
  ⟨.egrCfg, 0x210208, 8, 2, 4, oper, .any, [rw 16 10 64, rw 0 10 400]⟩,
  reg1 .egrCfg3 0x210218 4 oper .any [rw 16 10 64, rw 0 10 200],
  reg1 .isoCfg 0x210300 4 oper .any [rw 16 16 500, rw 12 4 7, rw 0 1],
  ⟨.fsTen, 0x220000, 8, 1024, 8, oper, .any, [rw 32 32, rw 28 4, rw 0 10]⟩,
  reg1 .fsSys 0x222000 8 oper .any [rw 32 32]]

def rowsTilCas : List RegRow := [
  ⟨.pfaultCnt, 0x300000, 0x20000, 8, 8, .any, .any, [ro 0 64]⟩,
  ⟨.pfaultLast, 0x300008, 0x20000, 8, 8, .any, oper, [ro 48 16, ro 32 13, ro 0 26]⟩,
  reg1 .mrgCfg 0x400000 4 oper .any [rw 0 16 100],
  reg1 .selStat 0x400008 8 .any .any [ro 32 13, ro 0 12],
  cnt1 .bpCnt 0x400010,
  cnt1 .blkWaitCnt 0x400018,
  cnt1 .msWaitCnt 0x400020,
  cnt1 .selMissCnt 0x400028,
  ⟨.casStat, 0x440000, 0x8000, 8, 8, .any, .any, [ro 32 9, ro 14 1, ro 8 6, ro 6 1, ro 0 6]⟩,
  ⟨.casShiftCnt, 0x440008, 0x8000, 8, 8, .any, .any, [ro 0 64]⟩,
  ⟨.casRunCnt, 0x440010, 0x8000, 8, 8, .any, .any, [ro 0 64]⟩,
  reg1 .casCfg 0x480000 4 oper .any [rw 8 8 50, rw 0 6 16],
  ⟨.casSlot, 0x480100, 8, 64, 8, oper, .any, [ro 48 16, ro 32 16, rw 27 1, rw 26 1, rw 16 10, ro 4 3, ro 0 3]⟩]

def rowsMem : List RegRow := [
  reg1 .drlCfg 0x500000 4 oper .any [rw 24 8 10, rw 16 8 16, rw 8 8 2, rw 0 8 16],
  reg1 .stallCfg 0x500008 4 oper .any [rw 0 16 2],
  reg1 .replCfg 0x50000C 4 oper .any [rw 0 16 100],
  reg1 .tbCfg 0x500010 4 oper .any [rw 0 6 16],
  reg1 .drlStat 0x500018 8 .any .any [ro 32 17, ro 16 8, ro 0 7],
  cnt1 .moveCnt 0x500020,
  ⟨.hbmRet, 0x500030, 8, 2, 8, .any, .any, [ro 0 64]⟩,
  ⟨.tq0, 0x501000, 16, 1024, 8, oper, .any, [rw 32 25, rw 24 8, rw 0 17]⟩,
  ⟨.tq1, 0x501008, 16, 1024, 8, oper, .any, [rw 0 25]⟩,
  ⟨.tuse0, 0x505000, 16, 1024, 8, .any, .any, [ro 32 25, ro 24 8, ro 0 17]⟩,
  ⟨.tuse1, 0x505008, 16, 1024, 8, .any, .any, [ro 0 25]⟩,
  ⟨.stallCnt, 0x510000, 8, 4096, 8, .any, .any, [ro 0 64]⟩,
  ⟨.tmoCnt, 0x518000, 8, 1024, 8, .any, .any, [ro 0 64]⟩,
  reg1 .stoCfg 0x580000 4 oper .any [rw 16 16 500, rw 0 16 2000],
  reg1 .stoStat 0x580008 8 .any .any [ro 20 4, ro 0 17],
  cnt1 .leaseLapseCnt 0x580010,
  ⟨.expBase, 0x580100, 16, 64, 8, oper, .any, [rw 63 1, rw 48 10, rw 21 27]⟩,
  ⟨.expLen, 0x580108, 16, 64, 8, oper, .any, [rw 0 27]⟩,
  ⟨.cliId, 0x581000, 32, 1024, 8, oper, .any, [rw 63 1, rw 62 1, rw 47 15, rw 36 11, rw 26 10]⟩,
  ⟨.cliBw, 0x581008, 32, 1024, 8, oper, .any, [rw 16 16, rw 0 16]⟩,
  ⟨.cliStat, 0x581010, 32, 1024, 8, .any, .any, [ro 48 16, ro 32 16, ro 8 4, ro 0 1]⟩]

def rowsFls : List RegRow := [
  reg1 .flsCfg 0x600000 4 inst .any [rw 24 8 12, rw 16 8 3, rw 8 8 6, rw 0 8 10],
  reg1 .flsRdCfg 0x600004 4 oper .any [rw 24 8 72, rw 16 8 12, rw 8 8 3, rw 4 4 15],
  reg1 .flsWlCfg 0x600008 4 oper .any [rw 16 16 100, rw 0 16 100],
  reg1 .flsStat 0x600010 8 .any .any [ro 50 14, ro 36 14, ro 24 8, ro 8 9, ro 0 3],
  reg1 .flsPop 0x600018 8 .any .any [ro 48 16, ro 32 16, ro 28 2, ro 24 3, ro 16 5, ro 0 9],
  ⟨.dieRet, 0x600020, 8, 4, 8, .any, .any, [ro 0 64]⟩,
  ⟨.healthWin, 0x601000, 8, 32, 8, .any, operInst, [ro 0 64]⟩]

def rowsFab : List RegRow := [
  ⟨.portCfg, 0x700000, 0x10000, 16, 4, oper, .any, [rw 8 8 64, rw 1 1 1, rw 0 1 1]⟩,
  ⟨.portStat, 0x700008, 0x10000, 16, 8, .any, .any, [ro 47 17, ro 32 9, ro 16 9, ro 8 1, ro 0 3]⟩,
  ⟨.laserPwr, 0x700010, 0x10000, 16, 8, .any, .any, [ro 0 63]⟩,
  reg1 .linkCfg 0x800000 4 inst .any [rw 0 8 39],
  reg1 .timeCfg 0x800004 4 inst .any [rw 16 16 250, rw 5 1, rw 4 1, rw 0 4],
  reg1 .fabTimeStat 0x800008 8 .any .any [ro 32 32, ro 16 16, ro 0 2],
  reg1 .pelCfg 0x800100 4 inst .any [rw 22 10 50, rw 13 9 100, rw 9 4 4, rw 7 1, rw 4 3 1, rw 0 1],
  reg1 .tmoCfg 0x800104 4 oper .any [rw 0 14 1000],
  ⟨.pelCncl, 0x800110, 4, 5, 4, inst, .any, [rw 0 15]⟩,
  ⟨.digest, 0x800128, 8, 2, 8, .any, .any, [ro 0 64]⟩,
  reg1 .pelStat 0x800138 8 .any .any [ro 48 16, ro 47 1, ro 32 15, ro 0 4],
  reg1 .membSel 0x800140 4 oper .any [rw 0 15],
  reg1 .membData 0x800148 8 .any .any [ro 48 16, ro 36 1, ro 34 2, ro 30 4, ro 25 5],
  reg1 .ledgerHead 0x800150 8 .any .any [ro 0 32],
  cnt1 .ledgerOvfCnt 0x800158,
  cnt1 .staleCnt 0x800160,
  ⟨.ledgerWin, 0x810000, 8, 32768, 8, .any, oper, [ro 0 64]⟩]

/-- The registers of the four hubs in each tile block (06). -/
def rowsTilHub : List RegRow := (List.range 4).flatMap fun j =>
  [⟨.hubOcc, 0x300100 + 8 * j, 0x20000, 8, 8, .any, .any, [ro 32 9, ro 16 9, ro 0 7]⟩,
   ⟨.spkRet, 0x300200 + 8 * j, 0x20000, 8, 8, .any, .any, [ro 0 64]⟩]

/-- FAB_CNT of the sixteen ports: sixteen counters in each port block (11). -/
def rowsPortCnt : List RegRow := (List.range 16).map fun p => ⟨.portCnt, 0x700100 + p * 0x10000, 8, 16, 8, .any, .any, [ro 0 64]⟩

/-- The doorbell pages (13): `Q_DB` has no role of its own, 17 R533 says who may write it. -/
def rowsDb : List RegRow := [
  ⟨.qDb, 0x2000000, 0x1000, 8192, 4, .any, .any, [wo 31 1, wo 16 8, wo 0 16]⟩,
  ⟨.qDbStat, 0x2000008, 0x1000, 8192, 8, .any, .any, [ro 0 64]⟩]

def bar0Rows : List RegRow :=
  rowsDevMgt ++ rowsLogSec ++ rowsHif ++ rowsQsyAdm ++ rowsTilCas ++ rowsMem ++ rowsFls ++ rowsFab ++ rowsTilHub ++ rowsPortCnt ++ rowsDb

/-- The VF window (17 Tables 17.5 and 17.8). A doorbell page's number is the queue's `VPAGE`. -/
def vfRows : List RegRow := [
  ⟨.qDb, 0x0, 0x1000, 15, 4, .any, .any, [wo 31 1, wo 16 8, wo 0 16]⟩,
  ⟨.qDbStat, 0x8, 0x1000, 15, 8, .any, .any, [ro 0 64]⟩,
  reg1 .tspId 0xF000 8 .any .any [ro 59 5, ro 0 10],
  reg1 .tspAccErr 0xF008 8 .any .any [ro 48 16, ro 37 11, ro 36 1, w1c 35 1, w1c 34 1, ro 0 26],
  cnt1 .tspNan 0xF010,
  cnt1 .tspTmo 0xF018,
  ⟨.tspStall, 0xF020, 8, 4, 8, .any, .any, [ro 0 64]⟩,
  reg1 .tspTuse0 0xF040 8 .any .any [ro 32 25, ro 24 8, ro 0 17],
  reg1 .tspTuse1 0xF048 8 .any .any [ro 0 25],
  reg1 .tspCli 0xF050 8 .any .any [ro 48 16, ro 32 16, ro 8 4, ro 0 1],
  cnt1 .tspLogCnt 0xF058,
  reg1 .tspLogSel 0xF060 8 .any .any [rw 0 64],
  reg1 .tspLdgSel 0xF068 8 .any .any [rw 0 32],
  reg1 .tspSuspSel 0xF070 8 .any .any [rw 12 2, rw 0 12],
  ⟨.tspLogWin, 0xF100, 8, 8, 8, .any, .any, [ro 0 64]⟩,
  ⟨.tspLdgWin, 0xF140, 8, 8, 8, .any, .any, [ro 0 64]⟩,
  ⟨.tspSuspWin, 0xF180, 8, 4, 8, .any, .any, [ro 0 64]⟩]

/-- Whether an offset is inside a register of the row, and of which element. -/
def RegRow.index? (r : RegRow) (off : Nat) : Option Nat :=
  if off < r.base then none
  else
    let i := (off - r.base) / r.stride
    if i < r.count && decide ((off - r.base) % r.stride < r.width) then some i else none

/-- A register found: its row, its element, and the offset of its first byte. -/
structure RegAt where
  row : RegRow
  idx : Nat
  off : Nat
  deriving DecidableEq, Repr

/-- The register that holds the byte at an offset. -/
def findReg (rows : List RegRow) (off : Nat) : Option RegAt :=
  rows.findSome? fun r => (r.index? off).map fun i => ⟨r, i, r.base + i * r.stride⟩

/-- The bits of a row's fields that pass a test. -/
def RegRow.mask (r : RegRow) (p : Acc → Bool) : Nat :=
  (r.fields.filter fun f => p f.acc).foldl (fun m f => m ||| fmask f.lo f.w) 0

/-- The reserved bits of a write value (00 R8), bits above the register among them. -/
def RegRow.reserved (r : RegRow) (v : Nat) : Nat := v - (v &&& r.mask fun _ => true)

/-- The reset value of the RW fields. -/
def RegRow.resetVal (r : RegRow) : Nat :=
  (r.fields.filter fun f => f.acc == .rw).foldl (fun m f => m ||| put f.reset f.lo f.w) 0

/-- 17 R534: a write covers exactly one whole register at its own offset; a read may also cover either half of a
64-bit register. -/
def RegAt.alignedWrite (a : RegAt) (off width : Nat) : Bool := off == a.off && width == a.row.width

def RegAt.alignedRead (a : RegAt) (off width : Nat) : Bool :=
  (off == a.off && width == a.row.width) || (a.row.width == 8 && width == 4 && (off == a.off || off == a.off + 4))

/-- The offset of a register by name and element. -/
def regOff (n : RegName) (i : Nat) : Nat :=
  match bar0Rows.find? fun r => r.name == n && decide (i < r.count) with
  | some r => r.base + i * r.stride
  | none => 0

/-- The reset value of a register of BAR0 by name. -/
def regReset (n : RegName) : Nat :=
  match bar0Rows.find? fun r => r.name == n with
  | some r => r.resetVal
  | none => 0

/-- The registers that a snapshot latches (16 R523): those named `_CNT`, the counter arrays, and `MGT_TIME`. -/
def RegName.latched : RegName → Bool
  | .time | .concRedCnt | .clsCnt | .dropCnt | .coalCnt | .eccCnt | .genSealCnt | .genDelMissCnt | .scnNanCnt
  | .pfaultCnt | .bpCnt | .blkWaitCnt | .msWaitCnt | .selMissCnt | .casShiftCnt | .casRunCnt | .moveCnt | .stallCnt
  | .tmoCnt | .leaseLapseCnt | .portCnt | .ledgerOvfCnt | .staleCnt => true
  | _ => false

end Sys2Proof.Machine
end

