-- ==== Sys2Proof/Machine/Float.lean ====
section
/-! DEFINITION. IEEE binary arithmetic on bit patterns: binary16, bfloat16, binary32, binary64 and the two FP8
formats (05), each operation rounded to nearest even, subnormals kept (03 R79, 06). A NaN result is the format's
quiet NaN here; an instruction whose NaN payload the spec leaves open replaces it (notes/assumptions/7.md). -/

namespace Sys2Proof.Machine

/-- A binary format: exponent bits, fraction bits, and whether the top exponent holds infinities and NaNs (IEEE). -/
structure Fmt where
  eb : Nat
  mb : Nat
  ieee : Bool
  deriving DecidableEq, Repr

def Fmt.f16 : Fmt := ⟨5, 10, true⟩
def Fmt.bf16 : Fmt := ⟨8, 7, true⟩
def Fmt.f32 : Fmt := ⟨8, 23, true⟩
def Fmt.f64 : Fmt := ⟨11, 52, true⟩
def Fmt.e5m2 : Fmt := ⟨5, 2, true⟩
/-- E4M3: no infinity; one NaN pattern per sign. -/
def Fmt.e4m3 : Fmt := ⟨4, 3, false⟩

def Fmt.bias (f : Fmt) : Nat := 2 ^ (f.eb - 1) - 1
def Fmt.width (f : Fmt) : Nat := 1 + f.eb + f.mb
/-- The exponent of the least bit of a subnormal. -/
def Fmt.emin (f : Fmt) : Int := 1 - (f.bias : Int) - f.mb
/-- The pattern of +infinity (IEEE formats). -/
def Fmt.infBits (f : Fmt) : Nat := (2 ^ f.eb - 1) <<< f.mb
/-- The quiet NaN with a zero payload. -/
def Fmt.qnan (f : Fmt) : Nat := if f.ieee then f.infBits + 2 ^ (f.mb - 1) else 2 ^ (f.eb + f.mb) - 1
def Fmt.signBit (f : Fmt) : Nat := 2 ^ (f.eb + f.mb)
/-- The largest finite magnitude. -/
def Fmt.maxFin (f : Fmt) : Nat := if f.ieee then f.infBits - 1 else 2 ^ (f.eb + f.mb) - 2

/-- A value: NaN, an infinity, or ±m·2^e. -/
inductive Fp where
  | nan
  | inf (neg : Bool)
  | fin (neg : Bool) (m : Nat) (e : Int)
  deriving DecidableEq, Repr

/-- The value of a pattern. -/
def Fp.of (f : Fmt) (b : Nat) : Fp :=
  let neg := bitAt b (f.eb + f.mb)
  let ex := fld b f.mb f.eb
  let m := fld b 0 f.mb
  if f.ieee && ex == 2 ^ f.eb - 1 then (if m == 0 then .inf neg else .nan)
  else if !f.ieee && ex == 2 ^ f.eb - 1 && m == 2 ^ f.mb - 1 then .nan
  else if ex == 0 then .fin neg m f.emin
  else .fin neg (m + 2 ^ f.mb) (f.emin + ex - 1)

/-- `m / 2^k`, rounded to nearest even. -/
def rneShift (m k : Nat) : Nat :=
  let q := m >>> k
  let r := m - (q <<< k)
  let half := 2 ^ k / 2
  if k = 0 then m
  else if r > half then q + 1
  else if r = half then q + q % 2
  else q

/-- Round ±m·2^e to a pattern: nearest even; overflow gives infinity, or, in E4M3, the
largest finite value (05 R138). -/
def roundBits (f : Fmt) (neg : Bool) (m : Nat) (e : Int) : Nat :=
  let s := if neg then f.signBit else 0
  if m = 0 then s
  else
    let q := max (e + (Nat.log2 m + 1 : Nat) - (f.mb + 1 : Nat)) f.emin
    let sh := q - e
    let m' := if sh ≤ 0 then m <<< (-sh).toNat else rneShift m sh.toNat
    let mag := if m' < 2 ^ f.mb then m' else ((q - f.emin + 1).toNat <<< f.mb) + (m' - 2 ^ f.mb)
    if mag > f.maxFin then (if f.ieee then s + f.infBits else s + f.maxFin) else s + mag

/-- A value as a pattern. -/
def Fp.bits (f : Fmt) : Fp → Nat
  | .nan => f.qnan
  | .inf neg => (if neg then f.signBit else 0) + (if f.ieee then f.infBits else f.maxFin)
  | .fin neg m e => roundBits f neg m e

/-- The signed integer that a finite value's magnitude is at exponent `e0 ≤ e`. -/
def alignInt (neg : Bool) (m : Nat) (e e0 : Int) : Int :=
  let v : Int := (m <<< (e - e0).toNat : Nat)
  if neg then -v else v

/-- The exact sum; a zero sum of opposite signs is +0. -/
def Fp.add : Fp → Fp → Fp
  | .nan, _ | _, .nan => .nan
  | .inf a, .inf b => if a == b then .inf a else .nan
  | .inf a, _ => .inf a
  | _, .inf b => .inf b
  | .fin n1 m1 e1, .fin n2 m2 e2 =>
    let e := min e1 e2
    let v := alignInt n1 m1 e1 e + alignInt n2 m2 e2 e
    if v = 0 then .fin (n1 && n2) 0 e else .fin (decide (v < 0)) v.natAbs e

def Fp.neg : Fp → Fp
  | .nan => .nan
  | .inf n => .inf (!n)
  | .fin n m e => .fin (!n) m e

def Fp.isZero : Fp → Bool
  | .fin _ m _ => m == 0
  | _ => false

def Fp.isNan : Fp → Bool
  | .nan => true
  | _ => false

def Fp.isFin : Fp → Bool
  | .fin _ _ _ => true
  | _ => false

def Fp.sign : Fp → Bool
  | .nan => false
  | .inf n => n
  | .fin n _ _ => n

/-- The exact product. -/
def Fp.mul : Fp → Fp → Fp
  | .nan, _ | _, .nan => .nan
  | .inf a, y => if y.isZero then .nan else .inf (a != y.sign)
  | x, .inf b => if x.isZero then .nan else .inf (x.sign != b)
  | .fin n1 m1 e1, .fin n2 m2 e2 => .fin (n1 != n2) (m1 * m2) (e1 + e2)

/-- The quotient with enough bits, and a sticky last bit, for any format here. -/
def Fp.div : Fp → Fp → Fp
  | .nan, _ | _, .nan => .nan
  | .inf _, .inf _ => .nan
  | .inf a, y => .inf (a != y.sign)
  | x, .inf b => .fin (x.sign != b) 0 0
  | .fin n1 m1 e1, .fin n2 m2 e2 =>
    if m2 = 0 then (if m1 = 0 then .nan else .inf (n1 != n2))
    else
      let k := 128
      let num := m1 <<< k
      let q := num / m2
      let sticky := if num % m2 = 0 then 0 else 1
      .fin (n1 != n2) (2 * q + sticky) (e1 - e2 - k - 1)

/-- The largest r with r² ≤ n, bit by bit from 2^k. -/
def isqrtFrom : Nat → Nat → Nat → Nat
  | 0, _, r => r
  | k + 1, n, r => isqrtFrom k n (if (r + 2 ^ k) * (r + 2 ^ k) ≤ n then r + 2 ^ k else r)

def isqrt (n : Nat) : Nat := isqrtFrom (Nat.log2 n / 2 + 1) n 0

/-- The square root; −0 gives −0 and a negative value NaN. -/
def Fp.sqrt : Fp → Fp
  | .nan => .nan
  | .inf n => if n then .nan else .inf false
  | .fin n m e =>
    if m = 0 then .fin n m e
    else if n then .nan
    else
      let odd := e.emod 2
      let a := m <<< (odd.toNat + 160)
      let r := isqrt a
      let sticky := if r * r = a then 0 else 1
      .fin false (2 * r + sticky) ((e - odd) / 2 - 80 - 1)

/-- Whether x < y, as real numbers; false when either is NaN. -/
def Fp.lt : Fp → Fp → Bool
  | .nan, _ | _, .nan => false
  | .inf a, .inf b => a && !b
  | .inf a, _ => a
  | _, .inf b => !b
  | .fin n1 m1 e1, .fin n2 m2 e2 =>
    let e := min e1 e2
    decide (alignInt n1 m1 e1 e < alignInt n2 m2 e2 e)

/-- Whether x = y, as real numbers (−0 = +0); false when either is NaN. -/
def Fp.eq : Fp → Fp → Bool
  | .nan, _ | _, .nan => false
  | x, y => !Fp.lt x y && !Fp.lt y x

/-- A value as an integer rounded to nearest even; none for NaN and infinities. -/
def Fp.rint : Fp → Option Int
  | .fin n m e =>
    let v : Int := if 0 ≤ e then (m <<< e.toNat : Nat) else (rneShift m (-e).toNat : Nat)
    some (if n then -v else v)
  | _ => none

/-- A value as an integer rounded toward zero. -/
def Fp.trunc : Fp → Option Int
  | .fin n m e =>
    let v : Int := if 0 ≤ e then (m <<< e.toNat : Nat) else (m >>> (-e).toNat : Nat)
    some (if n then -v else v)
  | _ => none

/-- The reciprocal square root, correctly rounded by what follows it (05 R146): its bits and a sticky last bit. -/
def Fp.rsqrt : Fp → Fp
  | .nan => .nan
  | .inf n => if n then .nan else .fin false 0 0
  | .fin n m e =>
    if m = 0 then .inf n
    else if n then .nan
    else
      let odd := (e.emod 2).toNat
      let a := m <<< odd
      let r := isqrt (2 ^ 200 / a)
      let sticky := if r * r * a = 2 ^ 200 then 0 else 1
      .fin false (2 * r + sticky) (-((e - odd) / 2) - 100 - 1)

def Fp.ofInt (i : Int) : Fp := .fin (decide (i < 0)) i.natAbs 0

/-- The operations on patterns of one format. -/
def fAdd (f : Fmt) (a b : Nat) : Nat := (Fp.add (.of f a) (.of f b)).bits f
def fSub (f : Fmt) (a b : Nat) : Nat := (Fp.add (.of f a) (Fp.of f b).neg).bits f
def fMul (f : Fmt) (a b : Nat) : Nat := (Fp.mul (.of f a) (.of f b)).bits f
def fDiv (f : Fmt) (a b : Nat) : Nat := (Fp.div (.of f a) (.of f b)).bits f
def fSqrt (f : Fmt) (a : Nat) : Nat := (Fp.sqrt (.of f a)).bits f
def fLt (f : Fmt) (a b : Nat) : Bool := Fp.lt (.of f a) (.of f b)
def fEq (f : Fmt) (a b : Nat) : Bool := Fp.eq (.of f a) (.of f b)
def fIsNan (f : Fmt) (a : Nat) : Bool := (Fp.of f a).isNan
def fIsFin (f : Fmt) (a : Nat) : Bool := (Fp.of f a).isFin
/-- A pattern of one format converted to another, nearest even. -/
def fConv (f g : Fmt) (a : Nat) : Nat := (Fp.of f a).bits g
def fOfInt (f : Fmt) (i : Int) : Nat := (Fp.ofInt i).bits f
/-- The larger of two patterns, neither of them NaN. -/
def fMaxNum (f : Fmt) (a b : Nat) : Nat := if fLt f a b then b else a
def fMinNum (f : Fmt) (a b : Nat) : Nat := if fLt f b a then b else a

/-- A NaN pattern whose sign and payload are the bits of `x`: never an infinity (notes/assumptions/7.md). -/
def nanOf (f : Fmt) (x : Nat) : Nat :=
  let p := x % 2 ^ f.mb
  (if bitAt x (f.eb + f.mb) then f.signBit else 0) + (if f.ieee then f.infBits + (if p = 0 then 1 else p) else f.qnan)

end Sys2Proof.Machine
end

