-- ==== Sys2Proof/Machine/Model.lean ====
section
/-! DEFINITION. Cassette models (05): formats, images and their check, and what a run computes. -/

namespace Sys2Proof.Machine

/-- The float format of a cassette format code CF (05 Table 5.1). -/
def cfFmt : Nat → Fmt
  | 1 => .f16
  | 2 => .bf16
  | 5 => .e4m3
  | 6 => .e5m2
  | _ => .f32

def cfIsInt (cf : Nat) : Bool := cf == 3 || cf == 4

/-- Bits of an element of a cassette format. -/
def cfBits : Nat → Nat
  | 0 => 32 | 1 => 16 | 2 => 16 | 3 => 8 | 4 => 4 | 5 => 8 | 6 => 8 | 7 => 32 | _ => 8

/-- Bytes that `n` elements take. -/
def cfBytes (cf n : Nat) : Nat := ceilDiv (n * cfBits cf) 8

/-- Element `i` of packed data, as a pattern. -/
def cfElem (cf : Nat) (b : Bytes) (i : Nat) : Nat :=
  if cf == 4 then fld (getLe b (i / 2) 1) (4 * (i % 2)) 4 else getLe b (i * (cfBits cf / 8)) (cfBits cf / 8)

/-- A layer record (05 Table 5.5). -/
structure Layer where
  lkind : Nat
  lflags : Nat
  xFmt : Nat
  wFmt : Nat
  yFmt : Nat
  op : Nat
  n : Nat
  o : Nat
  wOff : Nat
  sOff : Nat
  tOff : Nat
  xZp : Int
  yZp : Int
  src2 : Nat
  yScale : Nat
  yInv : Nat
  param : Nat
  rows : Nat
  deriving DecidableEq, Repr

/-- A model header (05 Table 5.4) with its layer records. -/
structure Model where
  mkind : Nat
  inFmt : Nat
  inElems : Nat
  outElems : Nat
  inInv : Nat
  inZp : Int
  payBytes : Nat
  layers : List Layer
  deriving DecidableEq, Repr

def readLayer (b : Bytes) : Layer :=
  { lkind := getLe b 0 1, lflags := getLe b 1 1, xFmt := fld (getLe b 2 1) 0 4, wFmt := fld (getLe b 2 1) 4 4,
    yFmt := fld (getLe b 3 1) 0 4, op := fld (getLe b 3 1) 4 4, n := getLe b 4 2, o := getLe b 6 2,
    wOff := getLe b 8 4, sOff := getLe b 12 4, tOff := getLe b 16 4, xZp := toSigned 8 (getLe b 20 1),
    yZp := toSigned 8 (getLe b 21 1), src2 := getLe b 22 2, yScale := getLe b 24 4, yInv := getLe b 28 4,
    param := getLe b 32 4, rows := getLe b 36 4 }

def readModel (b : Bytes) : Model :=
  { mkind := fld (getLe b 6 1) 0 3, inFmt := fld (getLe b 7 1) 0 4, inElems := getLe b 8 4, outElems := getLe b 12 4,
    inInv := getLe b 16 4, inZp := toSigned 8 (getLe b 20 1), payBytes := getLe b 24 4,
    layers := (List.range (min (getLe b 4 2) 256)).map fun i => readLayer (slice b (64 + 64 * i) 64) }

/-- 05 Table 5.2: the operand pairs, with the array tile (outputs, inputs) and the weight cycles. -/
def densePair (x w : Nat) : Option (Nat × Nat × Nat) :=
  if x == 4 && w == 4 then some (128, 256, 32)
  else if x == 3 && w == 3 then some (128, 128, 32)
  else if x == 3 && w == 4 then some (128, 128, 16)
  else if (x == 5 || x == 6) && (w == 5 || w == 6) then some (128, 128, 32)
  else if x == 2 && w == 2 then some (64, 64, 16)
  else if x == 1 && w == 1 then some (64, 64, 16)
  else none

def round64 (n : Nat) : Nat := ceilDiv n 64 * 64

/-- Bytes of a BS8 row (05 R140). -/
def bs8Bytes (e : Nat) : Nat := ceilDiv e 4 * 4 + 4

def tableBytes : Nat := 8224

/-- Bytes of payload that a layer's weights take. -/
def Layer.wBytes (l : Layer) : Nat :=
  if l.lkind == 1 then l.o * round64 (cfBytes l.wFmt l.n)
  else if l.lkind == 2 then l.rows * round64 (bs8Bytes l.o) else 0

def Layer.sBytes (l : Layer) : Nat := if l.lkind == 1 || l.lkind == 3 then 16 * l.o else 0

def Layer.tBytes (l : Layer) : Nat :=
  if (l.lkind == 1 && bitAt l.lflags 0) || l.lkind == 4 || l.lkind == 5 then tableBytes else 0

def Layer.outBytes (l : Layer) : Nat := cfBytes l.yFmt l.o

/-- 05 R147: the rules on one layer. What it does not forbid is taken, also where 05 then states no value: an `X_FMT` that is not
the previous `Y_FMT`, a layer 0 whose `N` is not `IN_ELEMS`, a `SRC2` of another size, an EMBED row above 1,024 elements
(notes/assumptions/97.md). -/
def Layer.ok (m : Model) (i : Nat) (l : Layer) (raw : Bytes) : Bool :=
  let prev := (m.layers[i - 1]?).getD l
  let ext := fun off n => if n == 0 then off == 0 else decide (off % 64 = 0) && decide (off + n ≤ m.payBytes)
  let usesW := l.lkind == 1 || l.lkind == 2
  let intY := cfIsInt l.yFmt
  decide (1 ≤ l.lkind ∧ l.lkind ≤ 6) && decide (l.lflags < 8)
  && (!bitAt l.lflags 0 || l.lkind == 1) && (!bitAt l.lflags 1 || l.lkind == 2) && (!bitAt l.lflags 2 || l.lkind == 3)
  && decide (l.yFmt ≤ 6)
  && (if l.lkind == 1 then (densePair l.xFmt l.wFmt).isSome && (cfIsInt l.xFmt || l.xZp == 0)
      else if l.lkind == 2 then l.wFmt == 8 && l.xFmt == 7 else l.wFmt == 0 && decide (l.xFmt ≤ 6))
  && (l.lkind != 2 || i == 0) && (l.xFmt != 7 || l.lkind == 2)
  && (if l.lkind == 6 then decide (l.op ≤ 3) else l.op == 0)
  && decide (1 ≤ l.n ∧ l.n ≤ 16384) && decide (1 ≤ l.o ∧ l.o ≤ 4096)
  && (usesW || l.n == l.o) && (i == 0 || l.n == prev.o)
  && ext l.wOff l.wBytes && ext l.sOff l.sBytes && ext l.tOff l.tBytes
  && (if l.lkind == 6 && decide (l.op ≤ 1) then decide (l.src2 < i)
      else l.src2 == 0)
  && (intY || (l.yScale == 0 && l.yInv == 0))
  && (l.lkind == 3 || (l.lkind == 6 && decide (2 ≤ l.op)) || l.param == 0)
  && (if l.lkind == 2 then decide (1 ≤ l.rows ∧ l.rows ≤ 65536) else l.rows == 0)
  && zeros raw 40 24

/-- 05 R147: the activation footprint. -/
def Model.footprint (m : Model) : Nat :=
  let named := (List.range m.layers.length).filter fun j =>
    m.layers.any fun l => l.lkind == 6 && decide (l.op ≤ 1) && l.src2 == j
  2 * maxN (m.layers.map Layer.outBytes) + sumN (named.map fun j => ((m.layers[j]?).map Layer.outBytes).getD 0)

/-- B_max of a model. -/
def Model.bMax (m : Model) : Nat := min 128 (2097152 / max 1 m.footprint)

/-- 05 R147: whether an image's header passes the check by itself. -/
def headOk (b : Bytes) : Bool :=
  let m := readModel b
  getLe b 0 4 == 0x4C444F4D && decide (1 ≤ getLe b 4 2 ∧ getLe b 4 2 ≤ 256)
  && decide (1 ≤ m.mkind ∧ m.mkind ≤ 4) && decide (getLe b 6 1 < 8)
  && (m.inFmt == 0 || m.inFmt == 3 || m.inFmt == 4 || m.inFmt == 7) && decide (getLe b 7 1 < 16)
  && decide (1 ≤ m.inElems ∧ m.inElems ≤ 16384) && decide (1 ≤ m.outElems ∧ m.outElems ≤ 4096)
  && zeros b 21 3 && decide (64 ≤ m.payBytes) && decide (m.payBytes % 64 = 0) && zeros b 28 4 && zeros b 44 4

/-- 05 R147: whether an image's header and layer records pass the check. -/
def imageOk (b : Bytes) : Bool :=
  let m := readModel b
  let l0 := (m.layers.head?)
  let lastL := (m.layers.getLast?)
  headOk b && (decide (m.inInv ≠ 0) == (m.inFmt == 0 && (l0.map fun l => cfIsInt l.xFmt) == some true))
  && ((m.layers.zip (List.range m.layers.length)).all fun p => p.1.ok m p.2 (slice b (64 + 64 * p.2) 64))
  && (l0.map fun l => m.inFmt != 7 || l.lkind == 2) == some true
  && (lastL.map fun l => l.yFmt == 0 && l.o == m.outElems) == some true
  && decide (m.footprint ≤ 2097152)

/-- Activations: their format, the zero point and scale behind integers, whether a layer gave these (05 R138), and patterns. -/
structure Act where
  fmt : Nat
  zp : Int
  scale : Nat
  stated : Bool
  vals : List Nat
  deriving DecidableEq, Repr

/-- 05 R138: convert a binary32 pattern to a format. -/
def cfConvert (fmt inv : Nat) (zp : Int) (y : Nat) : Nat :=
  if cfIsInt fmt then
    let lim : Int := if fmt == 3 then 127 else 7
    let lo : Int := -lim - 1
    let q : Int := match Fp.of .f32 (fMul .f32 y inv) with
      | .nan => zp
      | .inf n => if n then lo else lim
      | x => (x.rint.getD 0) + zp
    ofSigned (cfBits fmt) (max lo (min lim q))
  else fConv .f32 (cfFmt fmt) y

/-- An activation as binary32: widened, or dequantised (05 R138). An integer that no layer produced has no scale; its value is
free. -/
def Act.f32 (pay : Bytes) (a : Act) (v : Nat) : Nat :=
  if cfIsInt a.fmt && !a.stated then Config.unstated pay [v] 0 % 2 ^ 32
  else if cfIsInt a.fmt then fMul .f32 (fOfInt .f32 (toSigned (cfBits a.fmt) v - a.zp)) a.scale
  else fConv (cfFmt a.fmt) .f32 v

/-- 05 R145: a table block applied. No branch of R145 names a `t` that is NaN: the pair is free (notes/assumptions/97.md). -/
def tableFn (t : Bytes) (x : Nat) : Nat :=
  if fIsNan .f32 x then x
  else
    let u := fMul .f32 (fSub .f32 x (getLe t 0 4)) (getLe t 4 4)
    let j := match Fp.of .f32 u with
      | .fin n m e =>
        if n && decide (m ≠ 0) then 0 else
          let i := ((Fp.fin n m e).trunc.getD 0).toNat
          if 1024 ≤ i then 1025 else i + 1
      | .inf n => if n then 0 else 1025
      | .nan => Config.unstated t [x] 0 % 1026
    fAdd .f32 (fMul .f32 (getLe t (16 + 8 * j) 4) x) (getLe t (20 + 8 * j) 4)

/-- 05 R139: the scale file with a layer's entries loaded. -/
def Layer.loadScales (l : Layer) (pay file : Bytes) : Bytes := putBytes file 0 (slice pay l.sOff l.sBytes)

/-- 05 R135-R137: output `o` of a dense layer; `file` is the scale file. -/
def denseOut (l : Layer) (pay file : Bytes) (x : Act) (o : Nat) : Nat :=
  let row := slice pay (l.wOff + o * round64 (cfBytes l.wFmt l.n)) (cfBytes l.wFmt l.n)
  let e := slice file (16 * o) 16
  let wzp := toSigned 8 (getLe e 8 1)
  let idx := x.vals.zip (List.range l.n)
  let acc := if cfIsInt l.xFmt then
      fOfInt .f32 (idx.foldl (fun (s : Int) p => s + (toSigned (cfBits l.xFmt) p.1 - l.xZp)
        * (toSigned (cfBits l.wFmt) (cfElem l.wFmt row p.2) - wzp)) 0)
    else idx.foldl (fun s p => fAdd .f32 s (fMul .f32 (fConv (cfFmt l.xFmt) .f32 p.1)
        (fConv (cfFmt l.wFmt) .f32 (cfElem l.wFmt row p.2)))) 0
  let y := fAdd .f32 (fMul .f32 acc (getLe e 0 4)) (getLe e 4 4)
  if bitAt l.lflags 0 then tableFn (slice pay l.tOff tableBytes) y else y

/-- 05 R140: element i of a BS8 vector; `unsigned` is 05 R142. -/
def bs8Elem (unsigned : Bool) (e : Nat) (b : Bytes) (i : Nat) : Nat :=
  let c := toSigned 8 (getLe b i 1)
  if unsigned && decide (c < 0) then 0 else fMul .f32 (fOfInt .f32 c) (getLe b (ceilDiv e 4 * 4) 4)

def sumF32 (l : List Nat) : Nat := l.foldl (fAdd .f32) 0

/-- 05 R146. -/
def normLayer (l : Layer) (file : Bytes) (x : List Nat) : List Nat :=
  let ne := fOfInt .f32 (l.o : Nat)
  let mu := if bitAt l.lflags 2 then 0 else fDiv .f32 (sumF32 x) ne
  let v := fDiv .f32 (sumF32 (x.map fun a => let d := fSub .f32 a mu; fMul .f32 d d)) ne
  let r := (Fp.rsqrt (.of .f32 (fAdd .f32 v l.param))).bits .f32
  (x.zip (List.range l.o)).map fun p =>
    let e := slice file (16 * p.2) 16
    fAdd .f32 (fMul .f32 (fMul .f32 (fSub .f32 p.1 mu) r) (getLe e 0 4)) (getLe e 4 4)

def softmaxLayer (l : Layer) (pay : Bytes) (x : List Nat) : List Nat :=
  let t := slice pay l.tOff tableBytes
  let m := if x.any (fIsNan .f32) then Fmt.f32.qnan else x.foldl (fMaxNum .f32) (x.headD 0)
  let ex := x.map fun a => tableFn t (fSub .f32 a m)
  let r := fDiv .f32 0x3F800000 (sumF32 ex)
  ex.map fun a => fMul .f32 a r

/-- What a layer reads. Where format or number is not what its record names, 05 states no value: each is free. -/
def Layer.input (l : Layer) (i : Nat) (pay : Bytes) (x : Act) : Act :=
  if x.fmt == l.xFmt && (x.vals.length == l.n || (l.lkind == 2 && decide (x.vals.length < l.n))) then x
  else { fmt := l.xFmt, zp := 0, scale := 0, stated := false
         vals := (List.range l.n).map fun e => Config.unstated pay x.vals (65536 * (i + 1) + e) % 2 ^ cfBits l.xFmt }

/-- One layer's output in binary32; none for an index at or above `ROWS` (05 Table 5.6). -/
def layerOut (l : Layer) (pay file : Bytes) (x : Act) (outs : List Act) : Option (List Nat) :=
  let xf := x.vals.map (x.f32 pay)
  match l.lkind with
  | 1 => some ((List.range l.o).map (denseOut l pay file x))
  | 2 =>
    if x.vals.any fun i => decide (l.rows ≤ i) then none
    else
      let rows := x.vals.map fun i => slice pay (l.wOff + i * round64 (bs8Bytes l.o)) (bs8Bytes l.o)
      let s := (List.range l.o).map fun e => sumF32 (rows.map fun r => bs8Elem false l.o r e)
      some (if bitAt l.lflags 1 && decide (rows ≠ []) then s.map fun a => fDiv .f32 a (fOfInt .f32 (rows.length : Nat)) else s)
  | 3 => some (normLayer l file xf)
  | 4 => some (softmaxLayer l pay xf)
  | 5 => some (xf.map (tableFn (slice pay l.tOff tableBytes)))
  | _ =>
    let z := ((outs[l.src2]?).map fun a => a.vals.map (a.f32 pay)).getD []
    let z := if z.length == l.o then z else (List.range l.o).map fun e => Config.unstated pay z e % 2 ^ 32
    some (match l.op with
      | 0 => List.zipWith (fAdd .f32) xf z
      | 1 => List.zipWith (fMul .f32) xf z
      | 2 => xf.map fun a => fAdd .f32 a l.param
      | _ => xf.map fun a => fMul .f32 a l.param)

/-- Layers from number `i` on: the last output, and the scale file (05 R139). -/
def runLayers (pay : Bytes) : List Layer → Nat → Act → List Act → Bytes → Option Act × Bytes
  | [], _, x, _, file => (some x, file)
  | l :: t, i, x, outs, file =>
    let file := if l.sBytes = 0 then file else l.loadScales pay file
    match layerOut l pay file (l.input i pay x) outs with
    | none => (none, file)
    | some y =>
      let a : Act := { fmt := l.yFmt, zp := l.yZp, scale := l.yScale, stated := true, vals := y.map (cfConvert l.yFmt l.yInv l.yZp) }
      runLayers pay t (i + 1) a (outs ++ [a]) file

/-- 05 R143: the model input as layer 0 reads it: converted from FP32 where the formats differ. -/
def Model.first (m : Model) (pay : Bytes) (input : List Nat) : Act :=
  let xf := (m.layers.head?.map (·.xFmt)).getD 0
  let a : Act := { fmt := m.inFmt, zp := 0, scale := 0, stated := false, vals := input }
  if m.inFmt == 0 && xf != 0 && decide (xf ≤ 6) then
    { a with fmt := xf, vals := input.map fun v => cfConvert xf m.inInv m.inZp (a.f32 pay v) }
  else a

/-- 05 R144: a model run on one input (patterns of `IN_FMT`): its outputs, none where it ends with `MODEL_INPUT_RANGE`, and the
scale file. Sign and payload of a NaN are not stated, and free (notes/assumptions/97.md). -/
def Model.run (m : Model) (pay : Bytes) (input : List Nat) (file : Bytes) : Option (List Nat) × Bytes :=
  let r := runLayers pay m.layers 0 (m.first pay input) [] file
  (r.1.map fun a => (a.vals.zip (List.range a.vals.length)).map fun p =>
    if fIsNan .f32 p.1 then nanOf .f32 (Config.unstated pay input (2 ^ 40 + p.2)) else p.1, r.2)

/-- 05 Table 5.7: the cycles of a batch whose inputs are all of the same size; `rows` is the rows that EMBED reads. -/
def Layer.cycles (l : Layer) (b rows : Nat) : Nat :=
  match l.lkind with
  | 1 => match densePair l.xFmt l.wFmt with
    | some (tOut, tIn, wt) => 24 + ceilDiv l.o tOut * ceilDiv l.n tIn * max b wt
    | none => 24
  | 2 => 24 + ceilDiv (rows * round64 (bs8Bytes l.o)) 512
  | 3 => 24 + 2 * ceilDiv (b * l.o) 32
  | 4 => 24 + 3 * ceilDiv (b * l.o) 32
  | _ => 24 + ceilDiv (b * l.o) 32

def Model.cycles (m : Model) (b inBytes rows : Nat) : Nat :=
  105 + ceilDiv (inBytes + b * 4 * m.outElems) 512 + sumN (m.layers.map fun l => l.cycles b rows)

/-- Bytes of one input record of CAS.RUN (07 R228). -/
def Model.inStride (m : Model) : Nat :=
  if m.inFmt == 7 then round64 (4 + 4 * m.inElems) else round64 (cfBytes m.inFmt m.inElems)

/-- The input that a record holds. -/
def Model.readInput (m : Model) (b : Bytes) : List Nat :=
  if m.inFmt == 7 then (List.range (min (getLe b 0 4) m.inElems)).map fun i => getLe b (4 + 4 * i) 4
  else (List.range m.inElems).map (cfElem m.inFmt b)

end Sys2Proof.Machine
end

