-- ==== Sys2Proof/Machine/Rows.lean ====
section
/-! DEFINITION. Embedding-table rows (08): descriptors, row records, quantisation, and the row operations. -/

namespace Sys2Proof.Machine

/-- 05 R141: BS8 quantisation; none on a NaN or an infinity. -/
def bs8Quant (e : Nat) (x : List Nat) : Option Bytes :=
  if x.any fun a => !fIsFin .f32 a then none
  else
    let amax := x.foldl (fun m a => fMaxNum .f32 m (a % 2 ^ 31)) 0
    let s0 := fDiv .f32 amax 0x42FE0000
    let s := if fEq .f32 s0 0 then 0x3F800000 else s0
    let codes := x.map fun a =>
      let q := ((Fp.of .f32 (fDiv .f32 a s)).rint).getD 0
      BitVec.ofInt 8 (min 127 (max (-127) q))
    some (slice codes 0 (ceilDiv e 4 * 4) ++ natLe 4 s)

/-- A table descriptor (08 Table 8.1). -/
structure TabDesc where
  rfmt : Nat
  opt : Nat
  elems : Nat
  rows : Nat
  base : Nat
  rstride : Nat
  lr : Nat
  eps : Nat
  beta1 : Nat
  beta2 : Nat
  bc1 : Nat
  bc2 : Nat
  repl : Bool
  deriving DecidableEq, Repr

def readTabDesc (b : Bytes) : TabDesc :=
  { rfmt := getLe b 4 1, opt := getLe b 5 1, elems := getLe b 6 2, rows := getLe b 8 8, base := getLe b 16 8,
    rstride := getLe b 24 4, lr := getLe b 28 4, eps := getLe b 32 4, beta1 := getLe b 36 4, beta2 := getLe b 40 4,
    bc1 := getLe b 44 4, bc2 := getLe b 48 4, repl := bitAt (getLe b 52 1) 0 }

/-- 08 Table 8.2: value bytes. -/
def TabDesc.vb (t : TabDesc) : Nat :=
  match t.rfmt with
  | 0 => 4 * t.elems
  | 1 => 2 * t.elems
  | 2 => t.elems
  | _ => ceilDiv t.elems 2

/-- 08 R242: the size of the row section. -/
def TabDesc.rs (t : TabDesc) : Nat := ceilDiv (8 + t.vb) 8 * 8

def TabDesc.recSize (t : TabDesc) : Nat :=
  round64 (t.rs + (if t.opt == 0 then 0 else if t.opt == 1 then bs8Bytes t.elems else 2 * bs8Bytes t.elems))

/-- A finite value above 0. -/
def posFin (x : Nat) : Bool := fIsFin .f32 x && fLt .f32 0 x

/-- 0 ≤ β < 1. -/
def betaOk (x : Nat) : Bool := !fIsNan .f32 x && !fLt .f32 x 0 && fLt .f32 x 0x3F800000

/-- 08 Table 8.1. -/
def tabDescOk (b : Bytes) : Bool :=
  let t := readTabDesc b
  getLe b 0 4 == 0x4C424154 && decide (t.rfmt ≤ 3) && decide (t.opt ≤ 2)
  && decide (1 ≤ t.elems ∧ t.elems ≤ 1024) && decide (1 ≤ t.rows ∧ t.rows ≤ 2 ^ 40)
  && decide (t.base % 64 = 0) && decide (t.base + t.rows * t.rstride ≤ 2 ^ 48) && t.rstride == t.recSize
  && fIsFin .f32 t.lr && (if t.opt == 0 then t.eps == 0 else posFin t.eps)
  && (if t.opt == 2 then betaOk t.beta1 && betaOk t.beta2 && posFin t.bc1 && posFin t.bc2
      else t.beta1 == 0 && t.beta2 == 0 && t.bc1 == 0 && t.bc2 == 0)
  && decide (getLe b 52 1 < 2) && zeros b 53 11

/-- 08 Table 8.2: element i of a row section, in binary32. -/
def rowElem (t : TabDesc) (sec : Bytes) (i : Nat) : Nat :=
  let deq := fun (c : Int) => fAdd .f32 (fMul .f32 (fOfInt .f32 c) (fConv .f16 .f32 (getLe sec 0 2)))
    (fConv .f16 .f32 (getLe sec 2 2))
  match t.rfmt with
  | 0 => getLe sec (8 + 4 * i) 4
  | 1 => fConv .bf16 .f32 (getLe sec (8 + 2 * i) 2)
  | 2 => deq (toSigned 8 (getLe sec (8 + i) 1))
  | _ => deq (toSigned 4 (fld (getLe sec (8 + i / 2) 1) (4 * (i % 2)) 4))

def rowElems (t : TabDesc) (sec : Bytes) : List Nat := (List.range t.elems).map (rowElem t sec)

/-- 08 R243: the codes of a Q8 or Q4 row, with SCALE and OFFSET; none where it fails with `QUANT_NONFINITE`. -/
def rowQuant (q : Nat) (w : List Nat) : Option (Nat × Nat × List Int) :=
  if w.any fun a => !fIsFin .f32 a then none
  else
    let hi := w.foldl (fMaxNum .f32) (w.headD 0)
    let lo := w.foldl (fMinNum .f32) (w.headD 0)
    let off := fConv .f32 .f16 (fMul .f32 (fAdd .f32 hi lo) 0x3F000000)
    let s0 := if fEq .f32 hi lo then 0x3F800000 else fDiv .f32 (fSub .f32 hi lo) (fOfInt .f32 (2 * q : Nat))
    let s1 := fConv .f32 .f16 s0
    if !fIsFin .f16 s1 || !fIsFin .f16 off then none
    else
      let sc := if fEq .f16 s1 0 then 1 else s1
      some (sc, off, w.map fun a =>
        let r := ((Fp.of .f32 (fDiv .f32 (fSub .f32 a (fConv .f16 .f32 off)) (fConv .f16 .f32 sc))).rint).getD 0
        min (q : Int) (max (-(q : Int)) r))

def packQ4 (c : List Int) (n : Nat) : Bytes :=
  (List.range (ceilDiv n 2)).map fun i =>
    BitVec.ofNat 8 (ofSigned 4 (c.getD (2 * i) 0) + 16 * ofSigned 4 (c.getD (2 * i + 1) 0))

/-- Bytes of a record replaced from an offset on. -/
def patch (b : Bytes) (off : Nat) (d : Bytes) : Bytes := b.take off ++ d ++ b.drop (off + d.length)

/-- A row record whose row section holds values w with version `rver`; none where it cannot be written (08 R243, R251: a
value that BF16 rounds to an infinity is a new value that is infinite, notes/assumptions/51.md). Bytes that the row does not
use stay. -/
def writeRow (t : TabDesc) (rec : Bytes) (w : List Nat) (rver : Nat) : Option Bytes :=
  let v := natLe 4 (rver % 2 ^ 32)
  match t.rfmt with
  | 0 => some (patch rec 4 (v ++ w.flatMap (natLe 4)))
  | 1 =>
    let r := w.map (fConv .f32 .bf16)
    if r.all (fIsFin .bf16) then some (patch rec 4 (v ++ r.flatMap (natLe 2))) else none
  | f => (rowQuant (if f == 2 then 127 else 7) w).map fun r =>
      patch rec 0 (natLe 2 r.1 ++ natLe 2 r.2.1 ++ v ++ (if f == 2 then r.2.2.map (BitVec.ofInt 8) else packQ4 r.2.2 t.elems))

def rowVer (rec : Bytes) : Nat := getLe rec 4 4

/-- 08 R250, R251: a row record after one update record (the bytes after its row index); none: `QUANT_NONFINITE`. -/
def rowUpdate (t : TabDesc) (rec grad : Bytes) : Option Bytes :=
  let e := t.elems
  let sb := bs8Bytes e
  let g := (List.range e).map (bs8Elem false e grad)
  let w := rowElems t rec
  let add := fAdd .f32
  let mul := fMul .f32
  let sub := fSub .f32
  let one := 0x3F800000
  let rver := rowVer rec + 1
  let fin := fun (l : List Nat) => l.all (fIsFin .f32)
  let stepBy := fun (num den : Nat) => fDiv .f32 num (add (fSqrt .f32 den) t.eps)
  match t.opt with
  | 0 =>
    let w' := List.zipWith (fun a b => sub a (mul t.lr b)) w g
    if fin w' then writeRow t rec w' rver else none
  | 1 =>
    let a := (List.range e).map (bs8Elem true e (slice rec t.rs sb))
    let a' := List.zipWith (fun x y => add x (mul y y)) a g
    let w' := List.zipWith (fun x p => sub x (stepBy (mul t.lr p.1) p.2)) w (g.zip a')
    if fin w' && fin a' then
      match writeRow t rec w' rver, bs8Quant e a' with
      | some r, some q => some (patch r t.rs q)
      | _, _ => none
    else none
  | _ =>
    let m := (List.range e).map (bs8Elem false e (slice rec t.rs sb))
    let v := (List.range e).map (bs8Elem true e (slice rec (t.rs + sb) sb))
    let m' := List.zipWith (fun x y => add (mul t.beta1 x) (mul (sub one t.beta1) y)) m g
    let v' := List.zipWith (fun x y => add (mul t.beta2 x) (mul (sub one t.beta2) (mul y y))) v g
    let w' := List.zipWith (fun x p => sub x (stepBy (mul t.lr (mul p.1 t.bc1)) (mul p.2 t.bc2))) w (m'.zip v')
    if fin w' && fin m' && fin v' then
      match writeRow t rec w' rver, bs8Quant e m', bs8Quant e v' with
      | some r, some qm, some qv => some (patch r t.rs (qm ++ qv))
      | _, _, _ => none
    else none

/-- 08 R256: a row record after one replacement record; none: `QUANT_NONFINITE`. -/
def rowReplace (t : TabDesc) (rec repl : Bytes) : Option Bytes :=
  let sec := slice repl 16 t.rs
  let bad := decide (2 ≤ t.rfmt) && !(fIsFin .f16 (getLe sec 0 2) && fLt .f16 0 (getLe sec 0 2) && fIsFin .f16 (getLe sec 2 2))
  if bad then none
  else
    let sec' := slice sec 0 4 ++ natLe 4 ((rowVer rec + 1) % 2 ^ 32) ++ sec.drop 8
    let n := if t.opt == 0 then 0 else if t.opt == 1 then bs8Bytes t.elems else 2 * bs8Bytes t.elems
    let r := patch rec 0 sec'
    some (if bitAt (getLe repl 8 1) 0 then r else patch r t.rs (List.replicate n 0))

/-- Whether the reserved bytes of a replacement record are zero (08 R256). -/
def replOk (repl : Bytes) : Bool := decide (getLe repl 8 1 < 2) && zeros repl 9 7

/-- Bytes of an update and of a replacement record. -/
def TabDesc.updSize (t : TabDesc) : Nat := ceilDiv (8 + bs8Bytes t.elems) 16 * 16
def TabDesc.replSize (t : TabDesc) : Nat := round64 (16 + t.rs)

/-- 08 R254: the stride of gathered rows by output format. -/
def TabDesc.outStride (t : TabDesc) (fmt : Nat) : Nat :=
  match fmt with
  | 0 => round64 t.rs
  | 1 => round64 (4 * t.elems)
  | _ => round64 (2 * t.elems)

/-- 08 R254: one gathered row. -/
def gatherRow (t : TabDesc) (fmt : Nat) (rec : Bytes) : Bytes :=
  match fmt with
  | 0 => slice rec 0 t.rs
  | 1 => (rowElems t rec).flatMap (natLe 4)
  | _ => (rowElems t rec).flatMap fun a => natLe 2 (fConv .f32 .bf16 a)

/-- 08 R255: the pooled row of a bag; a failed row is `none` and is left out of the sum (07 R226). -/
def poolRows (t : TabDesc) (mode n : Nat) (rows : List (Option Bytes × Nat)) : Bytes :=
  let acc := rows.foldl (fun (a : List Nat) p => match p.1 with
    | none => a
    | some r => List.zipWith (fun s x => fAdd .f32 s (if mode == 2 then fMul .f32 p.2 x else x)) a (rowElems t r))
    (List.replicate t.elems 0)
  let out := if mode == 1 then acc.map fun a => fDiv .f32 a (fOfInt .f32 (n : Nat)) else acc
  out.flatMap (natLe 4)

/-- 08 R244: the owner of a row among n live engines. -/
def rowOwner (base i n : Nat) : Nat := crc32c (natLe 8 base ++ natLe 8 i) % n

/-- 08 R257: whether a version is newer. -/
def rverNewer (new old : Nat) : Bool :=
  let d := (new + 2 ^ 32 - old) % 2 ^ 32
  decide (1 ≤ d ∧ d < 2 ^ 31)

end Sys2Proof.Machine
end

