-- ==== Sys2Proof/Machine/Scan.lean ====
section
/-! DEFINITION. The arithmetic of 03: vector formats, exact and PQ distances, lookup tables, keys, filters. -/

namespace Sys2Proof.Machine

/-- Bits of an element of a vector format, 02 Table 2.2. -/
def vfBits : Nat → Nat
  | 0 => 32 | 1 => 16 | 2 => 16 | 3 => 8 | 4 => 8 | 5 => 4 | 6 => 1 | _ => 0

/-- The exact size of a vector (02 R36). -/
def exactSize (vf d : Nat) : Nat := ceilDiv (ceilDiv (d * vfBits vf) 8) 64 * 64

/-- Bytes of one side entry's codes (02 R45). -/
def codeSize (vfSeg m : Nat) : Nat :=
  if vfSeg == 7 then ceilDiv (ceilDiv m 2) 8 * 8 else if vfSeg == 8 then ceilDiv m 8 * 8 else 0

/-- Bytes of one code block of 32 slots (02 R41). -/
def blockSize (vfSeg m d : Nat) : Nat :=
  if vfSeg == 7 then 16 * m else if vfSeg == 8 then 32 * m else 32 * exactSize vfSeg d

/-- The float format of F32, F16 and BF16 vectors. -/
def vfFmt : Nat → Fmt
  | 1 => .f16
  | 2 => .bf16
  | _ => .f32

def isFloatVf (vf : Nat) : Bool := vf ≤ 2

/-- Elements of a float vector as binary32 patterns; widening is exact (03 R79). -/
def floatElems (vf : Nat) (b : Bytes) : List Nat :=
  let w := vfBits vf / 8
  (List.range (b.length / w)).map fun i => fConv (vfFmt vf) .f32 (getLe b (i * w) w)

/-- Elements of an I8, U8 or I4 vector. -/
def intElems (vf : Nat) (b : Bytes) : List Int :=
  if vf == 5 then b.flatMap fun x => [toSigned 4 (fld x.toNat 0 4), toSigned 4 (fld x.toNat 4 4)]
  else if vf == 3 then b.map fun x => toSigned 8 x.toNat
  else b.map fun x => (x.toNat : Int)

/-- One step of a lane (03 R84), in binary32. -/
def laneStep (met a u w : Nat) : Nat :=
  if met == 0 then (let t := fSub .f32 u w; fAdd .f32 a (fMul .f32 t t)) else fSub .f32 a (fMul .f32 u w)

/-- The lane tree (03 R84). -/
def laneTree : Nat → List Nat → Nat
  | 0, l => l.headD 0
  | n + 1, l =>
    let h := l.length / 2
    if h = 0 then l.headD 0 else laneTree n (List.zipWith (fAdd .f32) (l.take h) (l.drop h))

def lanesFrom (met lanes : Nat) : Nat → List Nat → List Nat → List Nat → List Nat
  | 0, a, _, _ => a
  | n + 1, a, q, x =>
    lanesFrom met lanes n (List.zipWith (fun s p => laneStep met s p.1 p.2) a ((q.take lanes).zip (x.take lanes)))
      (q.drop lanes) (x.drop lanes)

/-- A vector of d dimensions zero-padded to the exact size (03 R84). B1 is taken as it stands over the exact size (R85). -/
def padVec (vf d : Nat) (b : Bytes) : Bytes :=
  if vf == 6 then slice b 0 (exactSize vf d) else slice (slice b 0 (d * vfBits vf / 8)) 0 (exactSize vf d)

/-- The exact distance (03 R84, R85) of two vectors of d dimensions, as a binary32 pattern. -/
def exactDist (vf met d : Nat) (q x : Bytes) : Nat :=
  let size := exactSize vf d
  let q := padVec vf d q
  let x := padVec vf d x
  if isFloatVf vf then
    let lanes := if vf == 0 then 16 else 32
    laneTree 6 (lanesFrom met lanes (size / 64) (List.replicate lanes 0) (floatElems vf q) (floatElems vf x))
  else if vf == 6 then
    fOfInt .f32 (sumN (List.zipWith (fun a b => popcount 8 (a.toNat ^^^ b.toNat)) q x) : Nat)
  else
    let f := fun (u w : Int) => if met == 0 then (u - w) * (u - w) else -(u * w)
    fOfInt .f32 ((List.zipWith f (intElems vf q) (intElems vf x)).foldl (· + ·) 0)

/-- The query vector in the shard's `VF_EX` (03 Table 3.2); none where the table lists no conversion. -/
def convQuery (vfQ vfEx d : Nat) (q : Bytes) : Option Bytes :=
  if vfQ == vfEx then some (slice q 0 (exactSize vfEx d))
  else if vfQ == 0 && (vfEx == 1 || vfEx == 2) then
    some (slice ((List.range d).flatMap fun i => natLe 2 (fConv .f32 (vfFmt vfEx) (getLe q (4 * i) 4))) 0 (exactSize vfEx d))
  else none

def nanKey : Nat := 0xFFFFFFFE
def padKey : Nat := 0xFFFFFFFF
def padId : Nat := 0xFFFFFFFFFFFFFFFF

/-- 03 R86. -/
def keyOf (dist : Nat) : Nat :=
  if fIsNan .f32 dist then nanKey
  else
    let b := if dist == 0x80000000 then 0 else dist
    if bitAt b 31 then 0xFFFFFFFF - b else b + 0x80000000

/-- A lookup table (03 R80): one row of entries for each subspace. -/
structure Lut where
  valid : Bool
  bias : Nat
  scale : Nat
  e : List (List Nat)
  deriving DecidableEq, Repr

def lutDist (met : Nat) (q c : List Nat) : Nat :=
  (q.zip c).foldl (fun d p => laneStep met d p.1 p.2) 0

def minNum (l : List Nat) : Nat := l.foldl (fMinNum .f32) (l.headD 0)
def maxNum (l : List Nat) : Nat := l.foldl (fMaxNum .f32) (l.headD 0)

/-- 03 R80. `q` holds D binary32 patterns, `cb` the codebook's. -/
def lutBuild (met m s nc : Nat) (q cb : List Nat) : Lut :=
  let dist := (List.range m).map fun i => (List.range nc).map fun c =>
    lutDist met ((q.drop (i * s)).take s) ((cb.drop ((i * nc + c) * s)).take s)
  let v1 := dist.all fun r => r.all (fIsFin .f32)
  let lo := dist.map minNum
  let hi := dist.map maxNum
  let bias := lo.foldl (fAdd .f32) 0
  let range := (List.zipWith (fSub .f32) hi lo).foldl (fMaxNum .f32) 0
  if v1 && fIsFin .f32 bias && fIsFin .f32 range then
    let sc := fDiv .f32 range 0x437F0000
    let scale := if fEq .f32 sc 0 then 0x3F800000 else sc
    { valid := true, bias := bias, scale := scale,
      e := List.zipWith (fun r l => r.map fun d =>
        match (Fp.of .f32 (fDiv .f32 (fSub .f32 d l) scale)).rint with
        | some i => min 255 i.toNat
        | none => 255) dist lo }
  else { valid := false, bias := Fmt.f32.qnan, scale := Fmt.f32.qnan, e := List.replicate m (List.replicate nc 0) }

/-- 03 R83. -/
def pqDist (t : Lut) (codes : List Nat) : Nat :=
  let acc := (t.e.zip codes).foldl (fun a p => min 65535 (a + p.1.getD p.2 0)) 0
  fAdd .f32 t.bias (fMul .f32 t.scale (fOfInt .f32 (acc : Nat)))

/-- The codes of slot `j` of a code block (02 R41). -/
def blockCodes (vfSeg m : Nat) (blk : Bytes) (j : Nat) : List Nat :=
  (List.range m).map fun i =>
    if vfSeg == 7 then fld (getLe blk (16 * i + j / 2) 1) (4 * (j % 2)) 4 else getLe blk (32 * i + j) 1

/-- A code block from the codes of 32 slots (02 R41). -/
def packBlock (vfSeg m : Nat) (codes : List (List Nat)) : Bytes :=
  let c := fun j i => (codes.getD j []).getD i 0
  (List.range m).flatMap fun i =>
    if vfSeg == 7 then (List.range 16).map fun b => BitVec.ofNat 8 (c (2 * b) i + 16 * c (2 * b + 1) i)
    else (List.range 32).map fun j => BitVec.ofNat 8 (c j i)

/-- The codes of a side entry (02 R45). -/
def sideCodes (vfSeg m : Nat) (b : Bytes) : List Nat :=
  (List.range m).map fun i => if vfSeg == 7 then fld (getLe b (i / 2) 1) (4 * (i % 2)) 4 else getLe b i 1

/-- The index of the least distance, the lowest among equals. -/
def argMinDist (ds : List Nat) : Nat :=
  (ds.zip (List.range ds.length)).foldl (fun (best : Nat × Nat) p => if fLt .f32 p.1 best.1 then p else best)
    (ds.headD 0, 0) |>.2

/-- The codes that compaction gives a vector (02 R47): the nearest centroid of each subspace by squared L2
(notes/assumptions/19.md). -/
def encodePq (m s nc : Nat) (x cb : List Nat) : List Nat :=
  (List.range m).map fun i => argMinDist ((List.range nc).map fun c =>
    lutDist 0 ((x.drop (i * s)).take s) ((cb.drop ((i * nc + c) * s)).take s))

/-- A predicate (03 Table 3.3). -/
structure Pred where
  pop : Nat
  src : Bool
  signed : Bool
  any : Bool
  pos : Nat
  width : Nat
  bloom : Nat
  a : Nat
  b : Nat
  deriving DecidableEq, Repr

def readPred (x : Bytes) : Pred :=
  let fl := getLe x 1 1
  { pop := getLe x 0 1, src := bitAt fl 0, signed := bitAt fl 1, any := bitAt fl 2, pos := getLe x 2 1,
    width := getLe x 3 1, bloom := getLe x 4 1, a := getLe x 8 8, b := getLe x 16 8 }

/-- Whether a bound fits its field (03 R89). -/
def predFits (w : Nat) (signed : Bool) (v : Nat) : Bool :=
  if signed then
    let i := toSigned 64 v
    decide (-(2 ^ (w - 1) : Nat) ≤ i ∧ i < (2 ^ (w - 1) : Nat))
  else decide (v < 2 ^ w)

/-- 03 R88, R89: a predicate keeps Table 3.3 on a shard whose `ABLK` is `ablk`. -/
def predOk (ablk : Bool) (x : Bytes) : Bool :=
  let p := readPred x
  let le := if p.signed then decide (toSigned 64 p.a ≤ toSigned 64 p.b) else decide (p.a ≤ p.b)
  decide (1 ≤ p.pop ∧ p.pop ≤ 4) && decide (getLe x 1 1 < 8)
  && decide (1 ≤ p.width ∧ p.width ≤ 64) && (p.src || decide (p.pos < 64))
  && decide (p.pos % 64 + p.width ≤ 64) && (!p.src || ablk)
  && decide (p.bloom < 16) && (p.pop == 4 || p.bloom == 0)
  && zeros x 5 3 && zeros x 24 8
  && (p.pop == 2 || !p.signed) && (p.pop == 3 || !p.any)
  && predFits p.width p.signed p.a && predFits p.width p.signed p.b
  && (p.pop != 2 || le)
  && (!(p.pop == 3 && !p.any) || p.b &&& p.a == p.b)
  && (p.pop == 2 || (p.pop == 3 && !p.any) || p.b == 0)
  && (p.pop != 4 || p.a == 0)

/-- 03 R89, R90, R91: what a predicate yields. -/
def predEval (p : Pred) (mask : Bytes) (word : Nat) (blk : Bytes) : Bool :=
  let src := if p.src then getLe blk (8 * (p.pos / 64)) 8 else word
  let f := fld src (p.pos % 64) p.width
  let fs := toSigned p.width f
  match p.pop with
  | 1 => f == p.a
  | 2 => if p.signed then decide (toSigned 64 p.a ≤ fs ∧ fs ≤ toSigned 64 p.b) else decide (p.a ≤ f ∧ f ≤ p.b)
  | 3 => if p.any then f &&& p.a != 0 else f &&& p.a == p.b
  | _ =>
    let h := crc32c (natLe 8 f)
    let bit := fun i => bitAt (getLe mask (i / 8) 1) (i % 8)
    bit (fld h 0 13) && bit (fld h 13 13)

/-- The filter of a query: its predicates with their Bloom masks, and its product terms (03 R88, R92). -/
structure Filter where
  preds : List (Pred × Bytes)
  terms : List (Nat × Nat)
  deriving DecidableEq, Repr

def readFilter (npred nterm : Nat) (blk terms : Bytes) : Filter :=
  { preds := (List.range npred).map fun i =>
      let p := readPred (slice blk (32 * i) 32)
      (p, if p.pop == 4 then slice blk (512 + 1024 * p.bloom) 1024 else [])
    terms := (List.range nterm).map fun t => (getLe terms (4 * t) 2, getLe terms (4 * t + 2) 2) }

/-- 03 R92: whether a vector passes. -/
def Filter.passes (f : Filter) (word : Nat) (blk : Bytes) : Bool :=
  if f.preds.isEmpty && f.terms.isEmpty then true
  else
    let p := sumN ((f.preds.zip (List.range f.preds.length)).map fun x =>
      if predEval x.1.1 x.1.2 word blk then 2 ^ x.2 else 0)
    f.terms.any fun t => p &&& t.1 == t.2

/-- 03 R92: whether the product terms of a descriptor are legal. -/
def termsOk (npred nterm : Nat) (terms : Bytes) : Bool :=
  decide (nterm ≤ 8) && !(decide (0 < npred) && nterm == 0)
  && (List.range 8).all fun t =>
    let c := getLe terms (4 * t) 2
    let v := getLe terms (4 * t + 2) 2
    if t < nterm then v &&& c == v && decide (c < 2 ^ npred) else c == 0 && v == 0

end Sys2Proof.Machine
end

