-- ==== Sys2Proof/Machine/Select.lean ====
section
/-! DEFINITION. Selection (04): the total order, lists of bounded capacity, the final selection, and the headers of
partial lists and results. -/

namespace Sys2Proof.Machine

/-- 04 R103: ascending key, then ascending vector ID. -/
def ahead (a b : Entry) : Bool := decide (a.key < b.key) || (a.key == b.key && decide (a.id < b.id))

/-- An entry placed in a sorted list. -/
def insertEntry (c : Entry) : List Entry → List Entry
  | [] => [c]
  | x :: t => if ahead c x then c :: x :: t else x :: insertEntry c t

/-- A list of at most `cap` candidates with its DROP_KEY (04 R109). -/
structure TopList where
  cap : Nat
  entries : List Entry
  drop : Nat
  deriving DecidableEq, Repr

def TopList.empty (cap : Nat) : TopList := ⟨cap, [], padKey⟩

/-- 04 R109: a candidate arrives. -/
def TopList.offer (l : TopList) (c : Entry) : TopList :=
  if l.entries.length < l.cap then { l with entries := insertEntry c l.entries }
  else
    match l.entries.getLast? with
    | none => { l with drop := min l.drop c.key }
    | some w =>
      if ahead c w then { l with entries := insertEntry c l.entries.dropLast, drop := min l.drop w.key }
      else { l with drop := min l.drop c.key }

/-- 04 R110: once the list is full, a spoke withholds a candidate whose key exceeds the worst key
(notes/assumptions/21.md). -/
def TopList.withheld (l : TopList) (c : Entry) : Bool :=
  decide (l.cap ≤ l.entries.length) && (match l.entries.getLast? with
    | some w => decide (w.key < c.key)
    | none => false)

/-- A candidate from a scan (04 R109, R110). -/
def TopList.candidate (l : TopList) (c : Entry) : TopList := if l.withheld c then l else l.offer c

/-- 04 R112, R113: lists merged at a capacity; DROP_KEY is the least of theirs and of what the merge drops. -/
def mergeLists (cap : Nat) (ls : List (List Entry × Nat)) : TopList :=
  let start : TopList := { TopList.empty cap with drop := ls.foldl (fun d l => min d l.2) padKey }
  (ls.flatMap (·.1)).foldl TopList.offer start

/-- What the final selection finds (04 R114). -/
structure Final where
  entries : List Entry
  nvalid : Nat
  short : Bool
  tie : Bool
  deriving DecidableEq, Repr

def padEntry : Entry := ⟨padKey, 0, 0, padId⟩

/-- 04 R114-R116. -/
def finalSelect (k : Nat) (tie : Bool) (l : TopList) : Final :=
  let s := l.entries
  let v := s.length
  let keyK := if v < k then none else (s[k - 1]?).map (·.key)
  let n := match keyK with
    | none => v
    | some x => if tie then (s.filter fun e => e.key ≤ x).length else k
  let real := ((s.take n).zip (List.range n)).map fun p =>
    if p.2 < k then p.1 else { p.1 with flags := p.1.flags ||| 8 }
  { entries := real ++ List.replicate (max k n - n) padEntry, nvalid := n, short := decide (v < k),
    tie := tie && (match keyK with
      | some x => l.drop == x
      | none => false) }

/-- An entry as 16 bytes (04 Table 4.6). -/
def entryBytes (e : Entry) : Bytes := natLe 4 e.key ++ natLe 2 e.flags ++ natLe 2 e.gen ++ natLe 8 e.id

/-- 04 R123: the status of a merge. Inputs are (position, status), the given-up flag says an input is missing. -/
def mergeStatus (inputs : List (Nat × Nat)) (missing : Bool) : Nat :=
  let failing := inputs.filter fun p => decide (0x100 ≤ p.2)
  let lowest := failing.foldl (fun (b : Option (Nat × Nat)) p => match b with
    | none => some p
    | some q => if p.1 < q.1 then some p else some q) none
  match lowest with
  | some p => p.2
  | none => if missing then 0x0630 else if inputs.any fun p => p.2 == 3 then 3 else 0

/-- Whether a status sets `COND` bit 5 (04 Table 4.5): a class 0x05 or 0x0B code. -/
def isDataPartial (code : Nat) : Bool := code / 256 == 5 || code / 256 == 0xB

/-- A merge plan (04 Table 4.2): NLIST as (node, shard). -/
structure Plan where
  topo : Nat
  fanin : Nat
  nlist : List (Nat × Nat)
  deriving DecidableEq, Repr

/-- 04 Table 4.3: the parent of position i ≥ 1. -/
def Plan.parent (p : Plan) (i : Nat) : Nat :=
  let s := p.nlist.length
  match p.topo with
  | 0 => 0
  | 1 => (i - 1) / p.fanin
  | 2 => i - 1
  | _ => if i ≤ ceilDiv (s - 1) 2 then i - 1 else (i + 1) % s

/-- The positions that send to position i. -/
def Plan.children (p : Plan) (i : Nat) : List Nat :=
  (List.range p.nlist.length).filter fun j => decide (1 ≤ j) && p.parent j == i

/-- The position of a node and shard. -/
def Plan.position? (p : Plan) (node : Nat) (shard : Nat) : Option Nat :=
  p.nlist.findIdx? fun e => e.1 == node && e.2 == shard

def Plan.positionOf? (p : Plan) (node : Nat) : Option Nat := p.nlist.findIdx? fun e => e.1 == node

/-- The partial header and the entries of a merge stream (04 Table 4.4). -/
def mergeBytes (m : MergeMsg) : Bytes :=
  natLe 2 m.status ++ natLe 2 m.cond ++ natLe 2 m.entries.length ++ natLe 2 m.nposIn ++ natLe 6 m.gen ++ natLe 2 m.src
  ++ natLe 4 m.qtag ++ natLe 4 m.dropKey ++ natLe 8 m.scanned ++ natLe 8 m.filtered ++ natLe 8 m.tombstoned
  ++ natLe 2 m.pos ++ List.replicate 14 0 ++ m.entries.flatMap entryBytes

/-- 04 R128, R129: the element formats of ARGMAX, 07's encoding: 0 fp32, 1 fp16, 2 bf16, 3 i8, 4 i32. -/
def argValue (fmt bits : Nat) : Fp :=
  match fmt with
  | 0 => .of .f32 bits
  | 1 => .of .f16 bits
  | 2 => .of .bf16 bits
  | 3 => .ofInt (toSigned 8 bits)
  | _ => .ofInt (toSigned 32 bits)

/-- The winner of a row: index and value; none when every element is NaN. -/
def argBest : List (Nat × Fp) → Option (Nat × Fp)
  | [] => none
  | (i, x) :: t =>
    match argBest t with
    | none => if x.isNan then none else some (i, x)
    | some (j, y) => if x.isNan || Fp.lt x y then some (j, y) else some (i, x)

end Sys2Proof.Machine
end

