-- ==== Sys2Proof/Machine/State.lean ====
section
/-! DEFINITION. The state of the node: every register, table, queue, counter and mode that spec/ gives it, as plain
data, and the state after reset. -/

namespace Sys2Proof.Machine

/-! ## Device, power, reset and time (00, 15) -/

/-- The fuses (14 R450, R456, R458, R461; 15 R485). -/
structure Fuses where
  hbmStacks : Nat
  dbgPol : Nat
  rma : Bool
  anchors : List Nat
  devSecret : Nat
  rstProg : Bool
  rstMap : Nat
  deriving DecidableEq, Repr

/-- The QSPI boot flash (15 R494): status sector, boot slots, audit fallback area. -/
structure Qspi where
  fails : Nat
  ovrValid : Bool
  ovrCode : Nat
  incarn : Nat
  resetHistory : List Nat
  slotA : KList Bytes
  slotB : KList Bytes
  auditUsed : Nat
  deriving DecidableEq, Repr

/-- A reset that runs (15 R486-R488): its level, its tile (L3), its source, and when it began. -/
structure ResetRun where
  level : Nat
  tile : Nat
  source : Nat
  since : Nat
  /-- Its effect has taken place, and it has not completed. -/
  begun : Bool
  deriving DecidableEq, Repr

/-- DEV_STATUS and what the start keeps (15 R491-R499). -/
structure Dev where
  ready : Bool
  pewter : Bool
  cfgDefaulted : Bool
  slot : Nat
  slotFallback : Bool
  bench : Bool
  func0 : Nat
  pinCode : Nat
  strap : Nat
  /-- When the start that runs began (`clk`). -/
  starting : Option Nat
  /-- An L0 began since the last start: fuses are sensed and the strap is read. -/
  coldStart : Bool
  /-- Logged at the next start: a power-fail save ran (15 Table 15.11). -/
  pfLogged : Bool
  node : Nat
  func : Nat
  measure1 : Nat
  measure2 : Nat
  measure3 : Nat
  unlocked : Bool
  deriving DecidableEq, Repr

/-- The save of 15 R479. -/
inductive PfPhase where
  | idle
  | tripped
  | frozen
  | saving
  | done
  deriving DecidableEq, Repr

/-- Power, reset cause and time (15, 01). -/
structure Mgt where
  merged : Nat
  causeTile : Nat
  causeLevel : Nat
  causeSource : Nat
  resets : List ResetRun
  /-- A reset requested during a save waits for its end (15 R483). -/
  waitReset : Option ResetRun
  saves : Nat
  saveUs : Nat
  incomplete : Bool
  pfActive : Bool
  pfPhase : PfPhase
  pfSince : Nat
  thermTripN : Bool
  nodeBusyN : Bool
  smbAlertN : Bool
  timeNs : Nat
  timeValid : Bool
  timeHold : Option Nat
  localSeq : Nat
  deriving DecidableEq, Repr

/-- Throttle, power estimates, rails and clocks (01 R26-R30; 15 R471-R477). -/
structure Power where
  throttle : Bool
  coolSince : Option Nat
  throttleStep : Nat
  /-- `HUB_WD`; of these, the hubs that the throttle withdrew (15 R477), and those that fixed-slot entry withdrew (01 R30). -/
  hubWd : Nat
  thermWd : Nat
  fixedWd : Nat
  nodeW : Nat
  concRed : Nat
  overCnt : List Nat
  roomCnt : List Nat
  railGood : Nat
  pllOn : Nat
  freewheel : Nat
  idleSince : KList Nat
  /-- Hubs and tiles retired (16 R514), bit masks. -/
  hubRet : Nat
  tileRet : Nat
  src13At : KList Nat
  deriving DecidableEq, Repr

/-- The mailbox of 15 R500. -/
structure Mbox where
  status : Nat
  busy : Bool
  staged : KList Bytes
  deriving DecidableEq, Repr

/-! ## Logs, suspects and snapshots (16) -/

/-- What a log record says before it is placed in the ring (16 Table 16.5). -/
structure LogEv where
  code : Nat
  unit : Nat
  tid : Nat
  all : Bool
  count : Nat
  detail : Bytes
  deriving DecidableEq, Repr

/-- A log record (16 Table 16.5). -/
structure LogRec where
  time : Nat
  seq : Nat
  code : Nat
  flags : Nat
  unit : Nat
  tid : Nat
  node : Nat
  count : Nat
  last : Nat
  detail : Bytes
  deriving DecidableEq, Repr

/-- An entry of a hub's gang ring (16 Table 16.2). -/
structure GangEntry where
  tStart : Nat
  tEnd : Nat
  spokes : Nat
  cookie : Nat
  ctx : Nat
  owner : Nat
  deriving DecidableEq, Repr

/-- A suspect report (16 R512). -/
structure Suspect where
  start : Nat
  finish : Nat
  wrapped : Bool
  earliest : Nat
  entries : List GangEntry
  deriving DecidableEq, Repr

/-- A snapshot that is armed (16 R522, R525). -/
structure Arm where
  t : Nat
  seq : Nat
  deriving DecidableEq, Repr

structure Log where
  head : Nat
  tail : Nat
  /-- The records held, by record number (16 R516). -/
  ring : KList LogRec
  cls : KList Nat
  drop : Nat
  coal : Nat
  ecc : Nat
  ffTime : Nat
  ffInfo : Option LogEv
  later : Nat
  tsus : Bool
  tsusOk : Nat
  suspOvf : Bool
  /-- Reports 0-3. -/
  reports : KList Suspect
  held : Nat
  nextReport : Nat
  tenant : KList (Nat × List LogRec)
  gangRings : KList (List GangEntry)
  gangWrote : KList Nat
  deriving DecidableEq, Repr

structure Snap where
  armed : List Arm
  nextSeq : Nat
  /-- Latched and not yet complete: bank and sequence. -/
  latching : List Arm
  seq0 : Nat
  seq1 : Nat
  bank0 : KList Nat
  bank1 : KList Nat
  late : Nat
  armSeq : Nat
  seen : List (Nat × Nat)
  deriving DecidableEq, Repr

/-! ## Tenancy and trust (14) -/

/-- `SEC_TEN_CFG` (14), saved in the flash system area. -/
structure TenCfg where
  valid : Bool
  kpersist : Bool
  ksrc : Bool
  consent : Bool
  deadline : Nat
  deriving DecidableEq, Repr

/-- A key slot (14 R436, R440): STATE 0 EMPTY, 1 LOADED, 2 FAULTED; which copies are good. -/
structure KeySlot where
  state : Nat
  key : Nat
  keyId : Nat
  copies : Nat
  deriving DecidableEq, Repr

/-- A persisted key (14 R439): the key, and measurement 2 under which it was wrapped. -/
structure KeyWrap where
  key : Nat
  measure : Nat
  deriving DecidableEq, Repr

/-- A nonce stream (14 R443-R445). -/
structure Nonce where
  epoch : Nat
  counter : Nat
  reserved : Nat
  deriving DecidableEq, Repr

/-- An SPDM session (14 R451, R454, R455). -/
structure Session where
  chan : Chan
  role : Option Role
  subject : Nat
  established : Bool
  lastBeat : Nat
  keyGen : Nat
  deriving DecidableEq, Repr

/-- What a requester has negotiated on one channel (14 R451). -/
structure SpdmConn where
  chan : Chan
  version : Bool
  caps : Bool
  algs : Bool
  request : Bytes
  nextChunk : Nat
  response : Bytes
  deriving DecidableEq, Repr

/-- An audit record (14 Table 14.9). -/
structure AudRec where
  seq : Nat
  time : Nat
  role : Nat
  chan : Nat
  act : Nat
  status : Nat
  subject : Bytes
  target : Nat
  detail : Bytes
  prev : Bytes
  deriving DecidableEq, Repr

/-- A debug token in force (14 R460). -/
structure DbgToken where
  expiry : Nat
  deriving DecidableEq, Repr

structure Sec where
  ten : KList TenCfg
  /-- The step that a TID's destruction has reached (14 R435). -/
  destroying : KList Nat
  kslots : KList KeySlot
  persisted : KList KeyWrap
  nonces : KList Nonce
  /-- The next grant serial, and the end of the reservation that is persisted (14 R446). -/
  grantSerial : Nat
  grantEnd : Nat
  sessions : KList Session
  conns : List SpdmConn
  slot1 : Bytes
  audit : KList AudRec
  audSeq : Nat
  token : Option DbgToken
  challenge : Nat
  /-- Threads halted for debug (14 R460). -/
  halted : List Nat
  deriving DecidableEq, Repr

/-! ## Host and board interface (17) -/

/-- An access-error register (17 R535). -/
structure AccErr where
  code : Nat
  func : Nat
  wr : Bool
  valid : Bool
  ovf : Bool
  offset : Nat
  deriving DecidableEq, Repr

/-- A CXL.mem or BAR4 access that waits for its data (08 R267). -/
structure CxlWait where
  client : Nat
  owner : Nat
  addr : Nat
  len : Nat
  issued : Nat
  bar4 : Bool
  /-- What a write writes; none for a read. -/
  data : Option Bytes
  deriving DecidableEq, Repr

/-- 17 R529: the identity that a function's configuration space holds. -/
structure CfgSpace where
  vendor : Nat
  device : Nat
  revision : Nat
  classCode : Nat
  deriving DecidableEq, Repr

structure Hif where
  acc : KList AccErr
  /-- The configuration space of the PF, and of each VF. -/
  cfgPf : CfgSpace := { vendor := 0x1F6B, device := 0x0E03, revision := 0x10, classCode := 0x050210 }
  cfgVf : CfgSpace := { vendor := 0x1F6B, device := 0x0E13, revision := 0x10, classCode := 0x120000 }
  /-- `HIF_SMB_CFG` as it is in force: its value when the last L1 began. -/
  smb : Nat := 0x23A
  linkUp : Bool
  linkWidth : Nat
  linkSpeed : Nat
  linkFlit : Bool
  linkCxl : Bool
  capGb : Nat
  gpioIn : Nat
  vfEnable : Bool
  msixMasked : List Nat
  eid : Nat
  pldmEvents : List (Nat × Nat)
  sensors : KList Nat
  stateSensors : KList Nat
  cxlEvents : KList (List Nat)
  jtagIr : Nat
  /-- The admissions before which completions to a function's host rings are discarded (17 R540). -/
  dmaDiscard : KList Nat
  deriving DecidableEq, Repr

/-! ## Queues, sync objects and admission (13) -/

/-- An item taken from a ring (13 R409, R416): its queue, its slots, and its bytes. -/
structure Item where
  q : Nat
  slots : Nat
  bytes : Bytes
  /-- Written by another node (01 R33, 12 Table 12.3), and which. -/
  fwd : Bool
  src : Nat
  /-- Checked in full (13 R411), and may be admitted. -/
  checked : Bool
  cost : Nat
  reserve : Nat
  deriving DecidableEq, Repr

/-- An item that was admitted and has not completed. -/
structure Admitted where
  item : Item
  tAdmit : Nat
  clkAdmit : Nat
  /-- The model's number of the admission, rising. -/
  seq : Nat
  deriving DecidableEq, Repr

/-- A `Q.PUSH` reservation (07 R231). -/
structure Push where
  thr : Nat
  count : Nat
  slots : Nat
  epoch : Nat
  deriving DecidableEq, Repr

/-- A queue (13 R405, R410, R413): counts, and the items that it has given up and not yet completed. -/
structure Queue where
  head : Nat
  tail : Nat
  epoch : Nat
  rej : Nat
  last : Nat
  /-- The slot counts of committed pushes, by their first count (13 R410); 65,536 · (1 + n) more for a
  write of node n (01 R33). -/
  pushed : KList Nat
  pushes : List Push
  /-- Count after the newest reservation. -/
  reserved : Nat
  items : List Item
  mItems : List Admitted
  /-- Slots of this completion queue that are reserved for items (13 R413). -/
  cqReserved : Nat
  /-- The count up to which the ring has been read, and when the read that is outstanding began (17 R539). -/
  readTo : Nat
  readAt : Nat
  /-- A flush of a host ring whose slots the node has not yet read: TAIL is cut once the read that is outstanding ends, and
  doorbells that come meanwhile wait (13 R417, notes/assumptions/28.md). -/
  cut : Bool := false
  held : List Nat := []
  deriving DecidableEq, Repr

/-- A synchronisation object (13 R419): type 0 semaphore, 1 event, 2 barrier, 3 counter; `waiters` oldest first. -/
structure Sync where
  type : Nat
  owner : Nat
  value : Nat
  parts : Nat
  waiters : List Nat
  deriving DecidableEq, Repr

structure Qsy where
  queues : KList Queue
  /-- The epoch of every queue that is not listed: each L2 advances it (01 Table 1.4). -/
  epoch0 : Nat
  syncs : KList Sync
  deriving DecidableEq, Repr

/-- Admission and dispatch (13 R422-R432). A bucket counts 1/1,024 units. -/
structure Adm where
  tenTok : KList Nat
  clsTok : KList Nat
  lastClass : Nat
  lastPart : KList Nat
  gateOpen : Bool
  gateWindow : Nat
  /-- Class-7 budget left of each TID in fixed-slot mode (13 R432). -/
  fsBudget : KList Nat
  lines : KList (List Admitted)
  lastLine : Nat
  flashSlot : KList Nat
  deriving DecidableEq, Repr

/-! ## Index shards and generations (02) -/

/-- Where the four streams of a side list stand (02 R45): the addresses of entry `base` in each. -/
structure Streams where
  recs : Nat
  vec : Nat
  blk : Nat
  code : Nat
  base : Nat
  deriving DecidableEq, Repr

/-- A partition's side list (02 R45): its streams, and the next ordinal. -/
structure SideList where
  st : Streams
  next : Nat
  deriving DecidableEq, Repr

/-- A segment of a chain with its current tombstone bitmap (02 R51): bit s of `tomb` is slot s. -/
structure SegRef where
  addr : Nat
  tombAddr : Nat
  tomb : Nat
  deriving DecidableEq, Repr

/-- A partition entry of a generation (02 Table 2.7), with the streams that its ordinals stand in; bit i of `sideBits` is
ordinal i of the side list. -/
structure PartEntry where
  st : Streams
  segList : Nat
  segs : List SegRef
  sideFirst : Nat
  sideEnd : Nat
  sideMap : Nat
  sideBits : Nat
  deriving DecidableEq, Repr

/-- A generation record (02 Table 2.6), with the leaf pages that its root page names. `map` lists the partitions that hold
anything. `inst` tells the shard from an earlier one of the same name. -/
structure GenRec where
  inst : Nat
  parts : Nat
  leaves : List Nat
  gen : Nat
  state : Nat
  compaction : Bool
  draining : Bool
  shard : ShardId
  sealTime : Nat
  pmap : Nat
  pins : Nat
  live : Nat
  entries : Nat
  map : KList PartEntry
  deriving DecidableEq, Repr

/-- Who waits for a seal's end (02 R57): a queue item, or a thread in GEN.SEAL. -/
inductive SealWaiter where
  | item (a : Admitted)
  | thread (t : Nat)
  deriving DecidableEq, Repr

/-- A seal that waits or has closed (02 R55, R57). -/
structure SealReq where
  shard : ShardId
  waiters : List SealWaiter
  closed : Bool
  /-- The generation that it closed. -/
  gen : Nat
  /-- A compaction seal: the partition. -/
  part : Option Nat
  /-- When it was requested (`clk`). -/
  since : Nat
  /-- 12 R391: the persist is complete on this standby; the standby has reported its persist. -/
  persisted : Bool
  standbyOk : Bool
  deriving DecidableEq, Repr

/-- A compaction in progress (02 R65): the generation c that it compacts, and c's `SIDE_END`; the new segments with, for
each slot, where it came from: 1 + `SEG_SERIAL` and slot, or 0 and side ordinal. -/
structure Compaction where
  shard : ShardId
  part : Nat
  gen : Nat
  /-- Its pin is not yet released (02 R63). -/
  pinned : Bool
  /-- Its seal was abandoned: the next seal commits it (02 R53). -/
  carried : Bool
  sideEnd : Nat
  segs : List Nat
  origin : List (List (Nat × Nat))
  deriving DecidableEq, Repr

/-- A stored object (02 R66): of which shard, where, and its birth and death generations. A `space` is the stretch of
addresses set apart for a stream. -/
structure StoredObj where
  owner : Nat
  inst : Nat
  addr : Nat
  size : Nat
  space : Bool
  birth : Option Nat
  death : Option Nat
  deriving DecidableEq, Repr

/-- The flash copy of a generation record (02 R50). -/
structure SavedRec where
  inst : Nat
  gen : Nat
  image : Bytes
  deriving DecidableEq, Repr

/-- An append that the standby does not hold yet (12 R391): its shard, its ordinals by partition, and who waits. -/
structure Unheld where
  shard : ShardId
  ords : List (Nat × Nat)
  who : SealWaiter
  code : Nat
  count : Nat
  result : Nat
  deriving DecidableEq, Repr

/-- An index shard (02 R34-R35). -/
structure Shard where
  id : ShardId
  inst : Nat
  params : ShardParams
  centroids : Bytes
  codebook : Bytes
  plan : Option Plan
  openGen : Nat
  sides : KList SideList
  segSerial : Nat
  deriving DecidableEq, Repr

structure Index where
  shards : List Shard
  gens : List GenRec
  seals : List SealReq
  compactions : List Compaction
  sealCnt : Nat
  delMiss : Nat
  nan : KList Nat
  /-- Dropped shards of which a generation is still pinned (13 R411). -/
  dropped : List Shard
  objs : List StoredObj
  /-- Regions that the node mapped for stored objects: owner and region (notes/assumptions/24.md). -/
  objRegions : List (Nat × Nat)
  saved : List SavedRec
  unheld : List Unheld
  nextInst : Nat
  deriving DecidableEq, Repr

/-! ## Threads, contexts and selection (04, 06, 07) -/

/-- A register that an access writes. -/
inductive Dst where
  | none
  | s (n : Nat)
  | v (n : Nat)
  deriving DecidableEq, Repr

/-- A unified access that is outstanding (06 R177, R182). `after` names the accesses that must take effect first. -/
structure Access where
  thr : Nat
  owner : Nat
  job : Option Nat
  /-- 0 load, 1 store, 2 AMO, 3 an asynchronous table operation (07 R225). -/
  kind : Nat
  fn : Nat
  addr : Nat
  size : Nat
  dst : Dst
  data : Bytes
  cmp : Nat
  mask : Nat
  x : Bool
  acquire : Bool
  after : List Nat
  tag : Option Nat
  pc : Nat
  word : Nat
  issued : Nat
  /-- Issued, and not held back by the limits of 06 R177. -/
  begun : Bool
  /-- A store that an instruction of 07 makes, which holds its thread until it ends (07 R197). -/
  hold : Bool
  /-- An access to POOL is packets in turn (14 R442, R446): 0 the line read or written, 1 an atomic's line written, 2 the
  metadata written. -/
  step : Nat := 0
  /-- The old value that an atomic in POOL returns. -/
  old : Bytes := []
  deriving DecidableEq, Repr

/-- Why a thread holds its instruction (07 R197). -/
inductive Wait where
  | sem (sid count : Nat) (limit : Option Nat)
  | bar (sid : Nat) (limit : Option Nat)
  | evt (sid : Nat) (limit : Option Nat)
  /-- `since` orders the pops that wait (07 R233). -/
  | pop (q dst since : Nat) (limit : Option Nat)
  | seal (shard : ShardId)
  | append (shard : ShardId)
  | topk (cap : Nat)
  | emit (toMemory : Bool) (isLocal : Bool) (addr : Nat)
  | argmax
  | cas
  | tab (op : Nat)
  deriving DecidableEq, Repr

/-- A pending push captured by a thread on a queue (07 R231). -/
structure Capture where
  q : Nat
  epoch : Nat
  deriving DecidableEq, Repr

/-- A bound thread (06 R168, R169). Registers that a list does not name hold 0; s0 and k0 are not stored. -/
structure Thread where
  ctx : Nat
  member : Nat
  lo : Nat
  hi : Nat
  lsize : Nat
  pc : Nat
  s : KList W64
  v : KList V512
  k : KList W64
  /-- List numbers of h0-h3. -/
  h : KList Nat
  sPoison : List Nat
  vPoison : List Nat
  lstat : Nat
  /-- SR_JOB: the job when one is bound (06 R171). -/
  job : Option Nat
  boundAt : Nat
  /-- Local pages: bytes that are not 0, by offset. -/
  sram : KList Byte
  filterAt : Option Nat
  wait : Option Wait
  /-- The destination of the instruction that waits. -/
  waitRd : Nat
  captures : List Capture
  /-- The lookup-table entries for m ≥ 128 in the tile buffer (07 R208). -/
  lutHigh : Bytes
  deriving DecidableEq, Repr

/-- A generation pinned under a handle (07 R220). -/
structure Pin where
  shard : ShardId
  inst : Nat
  gen : Nat
  deriving DecidableEq, Repr

/-- What the node merger holds for a query (04 R113): entries, DROP_KEY, counts. -/
structure Partial where
  list : TopList
  scanned : Nat
  filtered : Nat
  tombstoned : Nat
  deriving DecidableEq, Repr

/-- A query's part of its context (03, 04). -/
structure Query where
  desc : Bytes
  forwarded : Bool
  qtag : Nat
  shards : List ShardId
  /-- The generations pinned at admission, in the order of the shards. -/
  gens : List Pin
  pos : Option Nat
  /-- The node's copy of the merge plan at admission, the shard map's primaries in it (04 R117, 12 R390). -/
  plan : Option Plan
  queryVec : Bytes
  filter : Bytes
  encInput : Bytes
  /-- Delivered by TOPK.EMIT to the tile merger (04 R112). -/
  tile : Option Partial
  /-- The partial list, after stage 8. -/
  partialList : Option Partial
  status : Nat
  sentAt : Option Nat
  relTmo : Nat
  deriving DecidableEq, Repr

/-- A context (06 R165, 07 R220). -/
structure Ctx where
  owner : Nat
  job : Option Nat
  adm : Option Admitted
  op : Nat
  /-- Node time at which the deadline passes. -/
  deadline : Option Nat
  hub : Nat
  threads : List Nat
  /-- Threads that have ended and that the gang holds until stage 8 ends (03 R73), with their pages. -/
  held : KList Nat
  gangSize : Nat
  /-- Lists allocated by the gang and not freed, by handle. -/
  lists : KList Nat
  pins : KList Pin
  slotRefs : List Nat
  query : Option Query
  gangStart : Nat
  deriving DecidableEq, Repr

/-- A top-k list (04 R107-R109, 07 R214-R217). -/
structure HubList where
  ctx : Nat
  handle : Nat
  hub : Nat
  /-- Blocks taken of each of the four units. -/
  blocks : List Nat
  list : TopList
  scanned : Nat
  filtered : Nat
  tombstoned : Nat
  attached : List Nat
  emitted : List Nat
  deriving DecidableEq, Repr

/-- A TOPK.INIT, or an ARGMAX, that waits for blocks (04 R108). -/
structure BlockWait where
  thr : Nat
  handle : Nat
  cap : Nat
  deriving DecidableEq, Repr

/-- An input of a merge session. -/
structure MergeIn where
  pos : Nat
  msg : MergeMsg
  deriving DecidableEq, Repr

/-- A merge session (04 R119-R121). -/
structure MergeSession where
  ctx : Nat
  pos : Nat
  coord : Bool
  waits : List Nat
  own : Bool
  inputs : List MergeIn
  missing : Bool
  reservedAt : Nat
  relTmo : Nat
  deriving DecidableEq, Repr

/-- A stream held in the merge port (04 R121). -/
structure HeldStream where
  msg : MergeMsg
  since : Nat
  relTmo : Nat
  deriving DecidableEq, Repr

/-- A child whose input a session gave up: one that comes yet is late (04 R121). -/
structure LateInput where
  qtag : Nat
  pos : Nat
  since : Nat
  relTmo : Nat
  deriving DecidableEq, Repr

/-- What has arrived of a merge stream in a merge port (12 Table 12.3): its source, the port, and the writes by offset. -/
structure PortRx where
  src : Nat
  port : Nat
  parts : KList Bytes
  deriving DecidableEq, Repr

structure Sel where
  lists : KList HubList
  waits : KList (List BlockWait)
  /-- ARGMAX runs, by thread: the hub and the unit that it holds. -/
  argmax : KList (Nat × Nat)
  sessions : KList MergeSession
  /-- Queries that wait in admission for a session, by context. -/
  msWait : List Nat
  held : List HeldStream
  late : List LateInput
  rx : List PortRx
  bp : Nat
  blkWait : Nat
  msWaitCnt : Nat
  miss : Nat
  deriving DecidableEq, Repr

structure Spokes where
  threads : KList Thread
  ctxs : KList Ctx
  accesses : KList Access
  istore : KList W64
  progs : KList Program
  pfaultCnt : KList Nat
  pfaultLast : KList Nat
  retired : KList Nat
  katAt : KList Nat
  deriving DecidableEq, Repr

/-! ## Cassettes (05) -/

/-- Where a request's inputs and outputs go (07 R228). -/
structure CasReq where
  slot : Nat
  /-- The thread that waits. -/
  thr : Nat
  ctx : Nat
  hub : Nat
  /-- 0 a CAS.SHIFT request, which runs no batch (07 R227). -/
  inputs : Nat
  done : Nat
  inAddr : Nat
  inLocal : Bool
  outAddr : Nat
  outLocal : Bool
  staged : Bool
  /-- CAS.SHIFT took the gang's reference with this request. -/
  took : Bool
  deriving DecidableEq, Repr

/-- A request's part of a batch: its number, the request, how many of its inputs. -/
structure CasPart where
  id : Nat
  req : CasReq
  n : Nat
  deriving DecidableEq, Repr

/-- A batch that runs. Its requests have left the queue. -/
structure CasBatch where
  slot : Nat
  parts : List CasPart
  deriving DecidableEq, Repr

/-- A cassette's decrypted copy of a slot: header and layer records, and the payload (05 R148). -/
structure ModelCopy where
  image : Bytes
  payload : Bytes
  deriving DecidableEq, Repr

/-- One half of the double-buffered array state (05 R155): a slot's layer records, its layer-0 scale entries, its first weight
tile, its table blocks. -/
structure ArraySide where
  slot : Nat
  records : Bytes
  scales : Bytes
  weights : Bytes
  tables : List Bytes
  deriving DecidableEq, Repr

structure Cassette where
  queue : KList CasReq
  active : Option ArraySide
  staged : Option ArraySide
  batch : Option CasBatch
  /-- Requests above B_max that have run in part (05 R154). -/
  rest : KList CasReq
  copies : KList ModelCopy
  /-- The scale file (05 R139). -/
  scales : Bytes
  shifts : Nat
  runs : Nat
  katAt : Nat
  window : Nat
  deriving DecidableEq, Repr

/-- A model slot (05 R148-R152): STATE 0 EMPTY, 1 LOADING, 2 READY, 3 UNLOADING, 4 FAILED. -/
structure Slot where
  state : Nat
  refs : Nat
  area : Nat
  /-- The image's tenant-local address, and its header with the layer records. -/
  addr : Nat
  image : Bytes
  /-- The item that loads or unloads. -/
  item : Option Admitted
  deriving DecidableEq, Repr

structure Cas where
  slots : KList Slot
  tiles : KList Cassette
  /-- `FS_WIN` as it was when fixed-slot mode was entered (05 R162). -/
  fsWin : Nat
  deriving DecidableEq, Repr

/-! ## Tables and the store function (08) -/

/-- A table operation of a thread or an item (07 R224-R226). -/
structure TabOp where
  ctx : Nat
  /-- The thread, or the first of the item's gang; none once it has been released. -/
  thr : Option Nat
  /-- 0 GATHER, 1 POOL, 2 UPDATE, 3 REPLACE. -/
  kind : Nat
  desc : TabDesc
  owner : Nat
  count : Nat
  indices : List Nat
  recs : List Bytes
  weights : List Nat
  fmt : Nat
  mode : Nat
  dst : Nat
  dstLocal : Bool
  async : Bool
  /-- The item that it is for; none for a thread's instruction. -/
  item : Option Admitted
  access : Option Nat
  /-- When it was issued (`clk`). -/
  issued : Nat
  /-- Rows that have ended, by record number: the row's bytes or its code. -/
  rows : KList (Option Bytes × Nat)
  deriving DecidableEq, Repr

/-- A row on its way to, or at, a row engine. -/
structure RowOp where
  op : Nat
  idx : Nat
  deriving DecidableEq, Repr

/-- A store client (08 R259-R263). -/
structure Client where
  epoch : Nat
  live : Bool
  load : Nat
  /-- When its lease timer was last restarted, and `LEASE_MS` then. -/
  lastReq : Nat
  term : Nat
  /-- Bandwidth tokens in bytes, and when they were last filled. -/
  tokens : Nat
  filledAt : Nat
  /-- Requests that wait for bandwidth, oldest first: number and size. -/
  waiting : List (Nat × Nat)
  deriving DecidableEq, Repr

/-- A store lock held (08 R262): owner TID, address, client, and the value written. -/
structure Lock where
  owner : Nat
  addr : Nat
  client : Nat
  value : Nat
  deriving DecidableEq, Repr

structure Store where
  ops : KList TabOp
  /-- Row operations at each live engine, oldest first. -/
  engines : KList (List RowOp)
  /-- Operations that wait for a new owner map (08 R248). -/
  held : List RowOp
  remap : Bool
  clients : KList Client
  locks : List Lock
  nload : Nat
  lapses : Nat
  cxlWaits : KList CxlWait
  /-- Requests that wait for bandwidth, by number; an item that waits is still in its queue's line, or has its context. -/
  bwWaits : KList CxlWait
  bwItems : KList Admitted
  deriving DecidableEq, Repr

/-! ## Memory tiers (09) -/

/-- A region descriptor (09 Table 9.1) with its hidden 12-bit count (R281). -/
structure Region where
  tier : Nat
  rfl : Nat
  heat : Nat
  home : Nat
  move : Nat
  epoch : Nat
  loc : Nat
  count : Nat
  deriving DecidableEq, Repr

/-- A move in progress (09 R287): bit c of `atDst` is chunk c; `stopped` is why it stopped (R290). A record at 64 or above
is a move that has ended on a failed lender: it says which chunks of a LOST region are at the destination. -/
structure Move where
  owner : Nat
  region : Nat
  tier : Nat
  loc : Nat
  atDst : Nat
  stopped : Option Nat
  rehash : Bool
  deriving DecidableEq, Repr

/-- An unmap that waits (09 R273): its item. -/
structure Unmap where
  owner : Nat
  regions : List Nat
  item : Option Admitted
  deriving DecidableEq, Repr

/-- A replicated region here (09 R294, R295; 12 R398): the last write applied, the newest that the primary served. -/
structure Replica where
  owner : Nat
  region : Nat
  applied : Nat
  served : Nat
  /-- The row records that this replica last served from the primary, by address (08 R257). -/
  rows : KList Bytes
  deriving DecidableEq, Repr

/-- What a lender has granted this node (12 R399, 14 R446): the node that lends, the offset there, whole groups of nine
regions, and the serial. -/
structure Grant where
  node : Nat
  gbase : Nat
  groups : Nat
  serial : Nat
  deriving DecidableEq, Repr

/-- The metadata of a 256 B line of a grant (14 R446): the tag, and the counter and epoch of its nonce stream's last write. -/
structure LineMeta where
  tag : Bytes
  counter : Nat
  epoch : Nat
  deriving DecidableEq, Repr

structure Mem where
  /-- Bytes that are not 0, by owner · 2^48 + tenant-local address. -/
  bytes : List Host.Cell
  /-- Poisoned 64 B lines: the code that a read of one gives. -/
  poison : KList Nat
  regions : KList (KList Region)
  moves : KList Move
  unmaps : List Unmap
  /-- Retired channels (`MEM_HBM_RET`), 128 bits. -/
  hbmRet : Nat
  hbmRehash : Bool
  /-- HBM regions that the re-hash has not moved yet (09 R280): owner and region. -/
  rehashLeft : List (Nat × Nat)
  /-- The channels that were retired in the layout from which the re-hash moves frames. -/
  rehashFrom : Nat
  /-- By tile, the regions that its TILE area still takes where `TIER_MB` was lowered below its use (09 R276). -/
  tileHeld : KList Nat
  /-- Node times of each channel's uncorrectable errors of the last 24 h (16 Table 16.4). -/
  hbmErr : KList (List Nat)
  grants : List Grant
  /-- The metadata of the lines written, by global address ÷ 256. -/
  lines : KList LineMeta
  replicas : List Replica
  stalls : KList Nat
  tmos : KList Nat
  moveCnt : Nat
  lastEpoch : Nat
  deriving DecidableEq, Repr

/-! ## Flash (10) -/

/-- The metadata of a programmed page's codewords (10 R302): the unit, the nonce stream's counter and key epoch, and the node
time of the program. -/
structure PageMeta where
  unit : Nat
  counter : Nat
  epoch : Nat
  time : Nat
  deriving DecidableEq, Repr

/-- A block of a die (10 R312): pool 0 FREE, 1 BUFFER, 2 NATIVE, 3 STATIC, 4 RETIRED. `units` are the units
programmed, by page of the block; `next` orders blocks by when they were opened. -/
structure FBlock where
  pool : Nat
  erases : Nat
  reads : Nat
  next : Nat
  isOpen : Bool
  units : KList PageMeta
  filled : Nat
  refreshed : Option Nat
  deriving DecidableEq, Repr

/-- A journal record (10 Table 10.4), and when it was staged. -/
structure JRec where
  jtype : Nat
  seq : Nat
  key : Nat
  aux : Nat
  payload : Bytes
  since : Nat
  deriving DecidableEq, Repr

/-- Who is told when a staged record's request is acknowledged (10 R325). -/
inductive JAck where
  | none
  | access (acc : Nat)
  deriving DecidableEq, Repr

structure JWait where
  rcd : JRec
  ack : JAck
  deriving DecidableEq, Repr

/-- A save on the media (10 R326): its start header, its records in staging order, and its end header, where it is there. -/
structure JSave where
  start : Bytes
  recs : List Bytes
  stop : Option Bytes
  deriving DecidableEq, Repr

/-- The counts of the health page (10 Table 10.8). -/
structure Health where
  unitsIn : Nat
  unitsMedia : Nat
  cwRead : Nat
  cwRetry : Nat
  rebuilds : Nat
  uncorr : Nat
  refreshed : Nat
  wlMoves : Nat
  saves : Nat
  saveTime : Nat
  saveUs : Nat
  saveStatus : Nat
  warn : Nat
  /-- The last codewords decoded: iterations, and whether retry was needed. -/
  recent : List (Nat × Bool)
  deriving DecidableEq, Repr

structure Flash where
  pop : Option Population
  dies : Nat
  popOk : Bool
  state : Nat
  readOnly : Bool
  /-- Units of the namespace, 0 before it is formed (R305), and the spare blocks then. -/
  nu : Nat
  spare0 : Nat
  /-- The flash map (10 R306): unit to PUA; a unit that is not listed is unmapped. -/
  map : KList Nat
  /-- The map as its pages on flash hold it. -/
  mapDisk : KList Nat
  /-- Dirty map pages: how many deltas are staged, and since when. -/
  dirty : KList (Nat × Nat)
  /-- What the pages hold: bytes that are not 0, by PUA · 16,384 + offset. -/
  media : List Host.Cell
  blocks : KList FBlock
  fillSeq : Nat
  groupFill : Nat
  /-- The XOR of the data units of the parity group that is being filled (10 R303), as bytes that are not 0. -/
  groupXor : List Host.Cell
  nextDie : Nat
  gcOn : List Nat
  lastMove : KList Nat
  zqAt : KList Nat
  dieRet : Nat
  /-- Shadow extents (R311): owner · 2^27 + region, to extent. -/
  shadow : KList Nat
  jseq : Nat
  data : List JRec
  maps : List JRec
  waits : List JWait
  areaA : Option JSave
  areaB : Option JSave
  health : Health
  deriving DecidableEq, Repr

/-! ## Links (11) -/

/-- A flit that this node sends (11 Table 11.2): `kind` 1 DATA, 2 MGMT, 3 TIME, 4 ACK; the plaintext of its payload; the
packet that a DATA flit carries; and the 640 bytes as first sent, which a replay sends again (11 R348). -/
structure OutFlit where
  seq : Nat
  kind : Nat
  fctr : Nat
  pkt : Option Packet
  payload : Bytes
  image : Bytes
  /-- When it was first sent. -/
  sent : Nat
  deriving DecidableEq, Repr

/-- A lane switch that waits for its codeword (11 R351, R352): the lane, C, and whether it is a WIDTH. -/
structure LaneSwitch where
  lane : Nat
  count : Nat
  width : Bool
  deriving DecidableEq, Repr

structure Port where
  state : Nat
  since : Nat
  retryAt : Option Nat
  nv : Bool
  nbr : Nat
  alt : Bool
  annTime : Nat
  rx : Nat
  tx : Nat
  rxBad : Nat
  txBad : Nat
  rxSpared : Bool
  txSpared : Bool
  rxSwitch : List LaneSwitch
  txSwitch : List LaneSwitch
  /-- The tag count of the last codeword received. -/
  rxCount : Nat
  laser : List Nat
  laserLow : Nat
  /-- `SPARE_THR` of the window that runs (11 R363). -/
  spareThr : Nat
  keyPhase : Bool
  rxPhase : Bool
  rekey : Option Nat
  rxRekey : Option Nat
  /-- `REKEY_EXP` as it was when the current key began (11 R363). -/
  rekeyExp : Nat
  /-- The transmit key, and the receive keys by `KEY_PHASE` (14 R449). -/
  txKey : Bytes
  rxKeys : KList Bytes
  /-- The keys that KEY has agreed: transmit, receive. -/
  newKeys : Option (Bytes × Bytes)
  cnt : KList Nat
  txSeq : Nat
  fctr : Nat
  credits : Nat
  buffer : List OutFlit
  waiting : List OutFlit
  timer : Option Nat
  replays : Nat
  e : Nat
  accepted : Nat
  ackDue : Option Nat
  lastAck : Option Nat
  replaySent : Bool
  owed : Nat
  /-- The number of the last exchange that this end started. -/
  exNum : Nat
  /-- The exchange that the neighbour started: number, t1, t2, t3, and `XCHK_NS` as it was then; and offsets out of range in a
  row. -/
  syncNum : Nat
  xchk : Nat
  t1 : Nat
  t2 : Nat
  t3 : Nat
  diverged : Nat
  digestSeen : List Nat
  /-- Bring-up (11 R353, 14 R448): the peer's certificate, its key exchange and its NEIGH have arrived. -/
  certNext : Nat
  certOk : Bool
  keyOk : Bool
  neighOk : Bool
  /-- A discard wants an acknowledgement (11 R346). -/
  ackNow : Bool
  deriving DecidableEq, Repr

structure Links where
  ports : KList Port
  offset : Nat
  delay : Nat
  tstate : Nat
  deriving DecidableEq, Repr

/-! ## Fabric memory and the peloton (12) -/

/-- A request whose response, or acknowledgement, has not arrived (12 R366, R378, R379). -/
structure Request where
  ptype : Nat
  dst : Nat
  job : Nat
  addr : Nat
  len : Nat
  issued : Nat
  /-- The unified access it serves; 0 with `hasAcc` false for another class. -/
  acc : Option Nat
  thr : Nat
  owner : Nat
  /-- The port that took it. -/
  via : Option Nat
  deriving DecidableEq, Repr

/-- A request that waits for a tag (12 R366), or for its WR_RSP. -/
structure Served where
  src : Nat
  tag : Nat
  since : Nat
  deriving DecidableEq, Repr

/-- A window record (12 Table 12.2). -/
structure Window where
  flags : Nat
  sys : Bool
  job : Nat
  tid : Nat
  peer : Nat
  gbase : Nat
  lbase : Nat
  len : Nat
  deriving DecidableEq, Repr

/-- A job (12 R374). -/
structure Job where
  owner : Nat
  members : List Nat
  faulted : Bool
  posted : Nat
  seen : Nat
  /-- Ledger index of each posted fault not reported yet, oldest first, with its status. -/
  unreported : List Nat
  deriving DecidableEq, Repr

/-- A membership entry (12 Table 12.5). -/
structure Member where
  incarn : Nat
  diverged : Bool
  func : Nat
  state : Nat
  nwatch : Nat
  deriving DecidableEq, Repr

/-- A neighbour's heartbeats as its watcher sees them (12 R385). -/
structure Watched where
  node : Nat
  last : Nat
  missed : Nat
  tf : Option Nat
  deriving DecidableEq, Repr

structure SuspectMsg where
  subject : Nat
  incarn : Nat
  watcher : Nat
  tf : Nat
  deriving DecidableEq, Repr

structure VoteMsg where
  member : Nat
  subject : Nat
  incarn : Nat
  kind : DecisionKind
  tf : Nat
  deriving DecidableEq, Repr

/-- A decision held until its time (12 R386). -/
structure Held where
  dseq : Nat
  kind : DecisionKind
  subject : Nat
  incarn : Nat
  te : Nat
  arg : Nat
  deriving DecidableEq, Repr

/-- A shard of the shard map (12 R390), and the copy of R392 here. -/
structure ShardRole where
  id : ShardId
  primary : Nat
  standby : Option Nat
  deriving DecidableEq, Repr

/-- A copy that this node sends or receives (12 R392). -/
structure ShardCopy where
  id : ShardId
  peer : Nat
  sending : Bool
  /-- The pin of the source (02 R63). -/
  pin : Option Pin
  becomesPrimary : Bool
  /-- A copy of a swap, which the shard map names at a round seal (12 R395); whether it is valid. -/
  swap : Bool := false
  valid : Bool := false
  deriving DecidableEq, Repr

/-- A replicated range (12 R398). -/
structure Repl where
  owner : Nat
  first : Nat
  count : Nat
  primary : Nat
  replicas : List Nat
  seq : Nat
  deriving DecidableEq, Repr

/-- A drain (12 R394): the shard moved away, and since when. -/
structure Drain where
  id : ShardId
  since : Nat
  deriving DecidableEq, Repr

structure Fabric where
  /-- Outstanding requests by class · 16,384 + tag. -/
  reqs : KList Request
  tagWait : List Nat
  /-- Posted writes of the node engines that wait to leave: node, offset, bytes (12 R366). -/
  outbox : List (Nat × Nat × Bytes)
  /-- The same by a given port, to its neighbour: port, offset, bytes (16 R525). -/
  portOut : List (Nat × Nat × Bytes)
  /-- Arriving writes and atomics for which the journal has no room yet (09 R293). -/
  held : List Packet
  served : List Served
  routes : KList Nat
  windows : KList Window
  jobs : KList Job
  ledger : KList Bytes
  ledgerNext : Nat
  /-- Slots whose record no FENCE.REMOTE has reported. -/
  ledgerFresh : List Nat
  ledgerOvf : Nat
  stale : Nat
  deriving DecidableEq, Repr

structure Peloton where
  members : KList Member
  incarn : Nat
  state : Nat
  leader : Option Nat
  beaconAt : Option Nat
  beaconSeq : Nat
  lastBeaconSent : Nat
  heard : KList Nat
  watched : List Watched
  suspects : List SuspectMsg
  votes : List VoteMsg
  cast : List (Nat × Nat)
  pending : List Held
  /-- Requests that wait for the council's votes, at the leader. -/
  asked : List Held
  dseq : Nat
  nextDseq : Nat
  lastHb : Nat
  fenced : Bool
  shardMap : List ShardRole
  copies : List ShardCopy
  repls : List Repl
  drains : List Drain
  /-- Seal round of the requester, and its p50 commit latency (R395). -/
  round : Nat
  p50 : Nat
  /-- The commit latencies of the rounds that run, in µs, by index and shard number. -/
  latency : KList (KList Nat)
  reports : KList (List Nat)
  slow : KList Nat
  swapOut : Option (Nat × Nat)
  reported : List (Nat × Nat)
  deriving DecidableEq, Repr

/-! ## What the node sends -/

/-- A message, a DMA write, an interrupt or a pin change that leaves the node (notes/assumptions/5.md). -/
inductive Out where
  | readData (src : Src) (value : Nat)
  | writeStatus (src : Src) (code : Nat)
  | completion (q : Nat) (bytes : Bytes)
  | shadow (addr tail : Nat)
  | msix (func vec : Nat)
  | stream (node : Nat) (m : MergeMsg)
  | descriptor (node : Nat) (bytes : Bytes)
  | release (node qtag : Nat)
  | shard (node : Nat) (m : ShardMsg)
  | replica (node owner addr seq : Nat) (data : Bytes)
  | flit (port : Nat) (f : OutFlit)
  | spdm (ch : Chan) (code : Nat) (data : Bytes)
  | vendor (session code : Nat)
  | cpl (code : Nat) (data : Bytes)
  | cxl (code : Nat) (load : Nat) (data : Bytes)
  | mbox (data : Bytes)
  | mctp (data : Bytes)
  | pldmEvent (sensor state : Nat)
  /-- To a rail's regulator: VOUT_COMMAND with millivolts, or OPERATION on (15 R472). -/
  | pmbus (rail : Nat) (vout : Option Nat)
  | pin (name : Nat) (high : Bool)
  | jtag (data : Nat)
  | aer (func kind : Nat)
  | ringRead (q n : Nat)
  deriving DecidableEq, Repr

/-- Why the machine stops. No meaning stops: every command has an effect or is turned away as the spec says. -/
inductive Fault where
  /-- Raised by nobody. Safe. -/
  | unused
  deriving DecidableEq, Repr

/-- Why a command is refused. -/
inductive Refusal where
  /-- Raised by the dispatcher for a command that has no meaning yet. Safe. -/
  | notModelled (mnemonic : String)
  deriving DecidableEq, Repr

/-- The node: everything but the queue of waiting commands. -/
structure Node where
  fuses : Fuses
  qspi : Qspi
  dev : Dev
  mgt : Mgt
  power : Power
  mbox : Mbox
  log : Log
  snap : Snap
  sec : Sec
  hif : Hif
  qsy : Qsy
  adm : Adm
  index : Index
  spokes : Spokes
  sel : Sel
  cas : Cas
  store : Store
  mem : Mem
  flash : Flash
  links : Links
  fabric : Fabric
  peloton : Peloton
  /-- The RW fields of registers, by BAR0 offset; a register that is not listed holds its reset value. A register of
  VF t's window is at 2^31 + 65,536 · t + its offset. -/
  regs : KList Nat
  out : List Out
  clk : Nat
  freeCtr : Nat
  nextId : Nat
  deriving DecidableEq, Repr

/-- The whole machine: the node, and the commands that wait, first in, first out. -/
structure State where
  node : Node
  pending : List Instr
  deriving DecidableEq, Repr

namespace Node

def resetQspi : Qspi :=
  { fails := 0, ovrValid := false, ovrCode := 0, incarn := 0, resetHistory := [], slotA := [], slotB := [], auditUsed := 0 }

def resetDev : Dev :=
  { ready := false, pewter := false, cfgDefaulted := false, slot := 0, slotFallback := false, bench := false, func0 := 0,
    pinCode := 0, strap := 0, starting := none, coldStart := true, pfLogged := false, node := 0, func := 0,
    measure1 := 0, measure2 := 0, measure3 := 0, unlocked := false }

def resetMgt : Mgt :=
  { merged := 0, causeTile := 0, causeLevel := 0, causeSource := 0, resets := [], waitReset := none, saves := 0,
    saveUs := 0, incomplete := false, pfActive := false, pfPhase := .idle, pfSince := 0, thermTripN := true,
    nodeBusyN := true, smbAlertN := true, timeNs := 0, timeValid := false, timeHold := none, localSeq := 0 }

def resetPower : Power :=
  { throttle := false, coolSince := none, throttleStep := 0, hubWd := 0, thermWd := 0, fixedWd := 0, nodeW := 0, concRed := 0, overCnt := [],
    roomCnt := [], railGood := 0, pllOn := 0xFF, freewheel := 0, idleSince := [], hubRet := 0, tileRet := 0, src13At := [] }

def resetLog : Log :=
  { head := 0, tail := 0, ring := [], cls := [], drop := 0, coal := 0, ecc := 0, ffTime := 0, ffInfo := none, later := 0,
    tsus := false, tsusOk := 0, suspOvf := false, reports := [], held := 0, nextReport := 0, tenant := [],
    gangRings := [], gangWrote := [] }

def resetSnap : Snap :=
  { armed := [], nextSeq := 0, latching := [], seq0 := 0, seq1 := 0, bank0 := [], bank1 := [], late := 0, armSeq := 0,
    seen := [] }

def resetSec : Sec :=
  { ten := [], destroying := [], kslots := [], persisted := [], nonces := [], grantSerial := 0, grantEnd := 0, sessions := [],
    conns := [], slot1 := [], audit := [], audSeq := 0, token := none, challenge := 0, halted := [] }

def resetHif : Hif :=
  { acc := [], linkUp := false, linkWidth := 0, linkSpeed := 0, linkFlit := false, linkCxl := false, capGb := 0,
    gpioIn := 0, vfEnable := false, msixMasked := [], eid := 0, pldmEvents := [], sensors := [], stateSensors := [],
    cxlEvents := [], jtagIr := 2, dmaDiscard := [] }

def resetAdm : Adm :=
  { tenTok := [], clsTok := [], lastClass := 0, lastPart := [], gateOpen := false, gateWindow := 0, fsBudget := [],
    lines := [], lastLine := 0, flashSlot := [] }

def resetSel : Sel :=
  { lists := [], waits := [], argmax := [], sessions := [], msWait := [], held := [], late := [], rx := [], bp := 0, blkWait := 0,
    msWaitCnt := 0, miss := 0 }

def resetSpokes : Spokes :=
  { threads := [], ctxs := [], accesses := [], istore := [], progs := [], pfaultCnt := [], pfaultLast := [],
    retired := [], katAt := [] }

def resetStore : Store :=
  { ops := [], engines := [], held := [], remap := false, clients := [], locks := [], nload := 0, lapses := 0,
    cxlWaits := [], bwWaits := [], bwItems := [] }

def resetMem : Mem :=
  { bytes := [], poison := [], regions := [], moves := [], unmaps := [], hbmRet := 0, hbmRehash := false, rehashLeft := [], rehashFrom := 0, tileHeld := [], hbmErr := [], grants := [], lines := [],
    replicas := [], stalls := [], tmos := [], moveCnt := 0, lastEpoch := 0 }

def resetHealth : Health :=
  { unitsIn := 0, unitsMedia := 0, cwRead := 0, cwRetry := 0, rebuilds := 0, uncorr := 0, refreshed := 0, wlMoves := 0,
    saves := 0, saveTime := 0, saveUs := 0, saveStatus := 0, warn := 0, recent := [] }

def resetFlash : Flash :=
  { pop := none, dies := 0, popOk := false, state := 0, readOnly := false, nu := 0, spare0 := 0, map := [], mapDisk := [], dirty := [],
    media := [], blocks := [], fillSeq := 0, groupFill := 0, groupXor := [], nextDie := 0, gcOn := [], lastMove := [], zqAt := [],
    dieRet := 0, shadow := [], jseq := 0, data := [], maps := [], waits := [], areaA := none, areaB := none,
    health := resetHealth }

def resetLinks : Links := { ports := [], offset := 0, delay := 0, tstate := 0 }

def resetFabric : Fabric :=
  { reqs := [], tagWait := [], outbox := [], portOut := [], held := [], served := [], routes := [], windows := [], jobs := [], ledger := [], ledgerNext := 0,
    ledgerFresh := [], ledgerOvf := 0, stale := 0 }

def resetPeloton : Peloton :=
  { members := [], incarn := 1, state := 0, leader := none, beaconAt := none, beaconSeq := 0, lastBeaconSent := 0,
    heard := [], watched := [], suspects := [], votes := [], cast := [], pending := [], asked := [], dseq := 0, nextDseq := 0,
    lastHb := 0, fenced := false, shardMap := [], copies := [], repls := [], drains := [], round := 0, p50 := 0, latency := [],
    reports := [], slow := [], swapOut := none, reported := [] }

/-- The machine right after power-on: the reset values of the field tables; what the spec gives no reset value is as
notes/assumptions/8.md to 13.md say. -/
def reset : Node :=
  { fuses := { hbmStacks := 8, dbgPol := 0, rma := false, anchors := [], devSecret := 0, rstProg := false, rstMap := 0 }
    qspi := resetQspi, dev := resetDev, mgt := resetMgt, power := resetPower
    mbox := { status := 0, busy := false, staged := [] }
    log := resetLog, snap := resetSnap, sec := resetSec, hif := resetHif
    qsy := { queues := [], epoch0 := 0, syncs := [] }
    adm := resetAdm
    index := { shards := [], gens := [], seals := [], compactions := [], sealCnt := 0, delMiss := 0, nan := [], dropped := [], objs := [], objRegions := [],
               saved := [], unheld := [], nextInst := 0 }
    spokes := resetSpokes, sel := resetSel
    cas := { slots := [], tiles := [], fsWin := 50 }
    store := resetStore, mem := resetMem, flash := resetFlash, links := resetLinks, fabric := resetFabric
    peloton := resetPeloton
    regs := [], out := [], clk := 0, freeCtr := 0, nextId := 0 }

end Node

/-- The state after reset; no command waits. -/
def State.reset : State := { node := Node.reset, pending := [] }

end Sys2Proof.Machine
end

