-- ==== Sys2Proof/Machine/Ops.lean ====
section
/-! DEFINITION. The named operations of the node that every family uses: memory, registers, messages, the log, roles,
the audit log, completions. -/

namespace Sys2Proof.Machine

abbrev Result := Host.Outcome State Fault Refusal

/-! ## Memory -/

/-- One byte of a byte map; a byte that is not listed is 0 (notes/assumptions/9.md). -/
def cellGet (l : List Host.Cell) (k : Nat) : Byte := KList.getD l k 0

/-- One byte written; a byte that becomes 0 is not listed. -/
def cellPut (l : List Host.Cell) (k : Nat) (b : Byte) : List Host.Cell := if b = 0 then KList.del l k else KList.put l k b

def cellRead (l : List Host.Cell) (k n : Nat) : Bytes := (List.range n).map fun i => cellGet l (k + i)

def cellWrite : List Host.Cell → Nat → Bytes → List Host.Cell
  | l, _, [] => l
  | l, k, b :: t => cellWrite (cellPut l k b) (k + 1) t

/-- The canonical form: addresses strictly rising, no entry 0. -/
def memOk (l : List Host.Cell) : Bool := KList.ok l && l.all fun c => c.2 != 0

/-- A byte map in canonical form; the identity on one that is. -/
def canonCells : List Host.Cell → List Host.Cell
  | [] => []
  | c :: t => cellPut (canonCells t) c.1 c.2

/-- What every command ends with: the byte maps of memory and of the media in canonical form. -/
def Node.tidy (s : Node) : Node :=
  { s with mem := { s.mem with bytes := canonCells s.mem.bytes }, flash := { s.flash with media := canonCells s.flash.media } }

/-- Owners: TID t, or 1,024, the system context. -/
def sysOwner : Nat := 1024

/-- The key of a tenant-local address. -/
def memKey (owner addr : Nat) : Nat := owner * 2 ^ 48 + addr % 2 ^ 48

def Node.read (s : Node) (owner addr n : Nat) : Bytes := cellRead s.mem.bytes (memKey owner addr) n

def Node.readLe (s : Node) (owner addr n : Nat) : Nat := leNat (s.read owner addr n)

def Node.write (s : Node) (owner addr : Nat) (b : Bytes) : Node :=
  { s with mem := { s.mem with bytes := cellWrite s.mem.bytes (memKey owner addr) b } }

/-- A stretch of an owner's memory zeroed. -/
def Node.zero (s : Node) (owner addr n : Nat) : Node :=
  let k := memKey owner addr
  { s with mem := { s.mem with
      bytes := s.mem.bytes.filter fun c => !decide (k ≤ c.1 ∧ c.1 < k + n)
      poison := s.mem.poison.filter fun c => !decide (k / 64 ≤ c.1 ∧ c.1 < (k + n) / 64) } }

/-- The code of the first poisoned line of a stretch. -/
def Node.poisonAt (s : Node) (owner addr n : Nat) : Option Nat :=
  let k := memKey owner addr
  (List.find? (fun (c : Nat × Nat) => decide (k / 64 ≤ c.1 ∧ c.1 ≤ (k + n - 1) / 64)) s.mem.poison).map (·.2)

/-! ## Messages, free values, numbers, time -/

def Node.emit (s : Node) (o : Out) : Node := { s with out := o :: s.out }

/-- The base of the node ports (12 Table 12.3). -/
def portBase : Nat := 0xF00000000000

/-- Bytes for a node port of another node, as posted writes of the node engines (12 R366, Table 12.3): they leave as the
command ends. -/
def Node.portWrite (s : Node) (dst addr : Nat) (b : Bytes) : Node :=
  { s with fabric := { s.fabric with outbox := s.fabric.outbox ++ [(dst, portBase + addr, b)] } }

/-- A free value. -/
def Node.free (s : Node) : Nat × Node := (Config.free s.freeCtr, { s with freeCtr := s.freeCtr + 1 })

/-- A status code that the spec does not name, from a free value: of one of the classes of 00 Table 0.4 (00 R16). -/
def freeCode (f : Nat) : Nat := f % 0x0C00

/-- A number that the model has not used. -/
def Node.fresh (s : Node) : Nat × Node := (s.nextId, { s with nextId := s.nextId + 1 })

def Node.now (s : Node) : Nat := s.mgt.timeNs

/-- Whether `us` microseconds have passed since `t` (`clk`). -/
def Node.passed (s : Node) (t us : Nat) : Bool := decide (t + us * 1000 ≤ s.clk)

/-! ## Registers -/

/-- The RW fields of a register of BAR0. -/
def Node.reg (s : Node) (n : RegName) (i : Nat := 0) : Nat := KList.getD s.regs (regOff n i) (regReset n)

def Node.setReg (s : Node) (n : RegName) (i v : Nat) : Node := { s with regs := KList.put s.regs (regOff n i) v }

/-- The key of a register of VF t's window. -/
def vfKey (t off : Nat) : Nat := 2 ^ 31 + 65536 * t + off

def Node.vfReg (s : Node) (t off : Nat) : Nat := KList.getD s.regs (vfKey t off) 0

/-- Fixed-slot isolation mode (13 R430). -/
def Node.fixedSlot (s : Node) : Bool := bitAt (s.reg .isoCfg) 0

/-- 13 R404: the fields of QSY_QCFG of queue q. -/
structure QCfg where
  valid : Bool
  kind : Nat
  host : Bool
  role : Nat
  sys : Bool
  tid : Nat
  log2n : Nat
  cls : Nat
  cq : Nat
  func : Nat
  ien : Bool
  vec : Nat
  vpage : Nat
  deriving DecidableEq, Repr

def readQcfg (v : Nat) : QCfg :=
  { valid := bitAt v 63, kind := fld v 61 2, host := bitAt v 60, role := fld v 58 2, sys := bitAt v 57, tid := fld v 47 10,
    log2n := fld v 43 4, cls := fld v 40 3, cq := fld v 27 13, func := fld v 16 11, ien := bitAt v 15, vec := fld v 4 11,
    vpage := fld v 0 4 }

def Node.qcfg (s : Node) (q : Nat) : QCfg := readQcfg (s.reg .qcfg q)

def QCfg.n (c : QCfg) : Nat := 2 ^ c.log2n

/-- The owner of a queue. -/
def QCfg.owner (c : QCfg) : Nat := if c.sys then sysOwner else c.tid

def emptyQueue : Queue :=
  { head := 0, tail := 0, epoch := 0, rej := 0, last := 0, pushed := [], pushes := [], reserved := 0, items := [],
    mItems := [], cqReserved := 0, readTo := 0, readAt := 0 }

def Node.queue (s : Node) (q : Nat) : Queue := KList.getD s.qsy.queues q { emptyQueue with epoch := s.qsy.epoch0 }

def Node.setQueue (s : Node) (q : Nat) (x : Queue) : Node :=
  { s with qsy := { s.qsy with queues := KList.put s.qsy.queues q x } }

/-- The queues that have been configured. -/
def Node.validQueues (s : Node) : List Nat :=
  (s.regs.filter fun p => decide (0x100000 ≤ p.1 ∧ p.1 < 0x140000 ∧ p.1 % 32 = 0) && bitAt p.2 63).map
    fun p => (p.1 - 0x100000) / 32

/-- Slots in the ring (13 R405). -/
def Queue.used (q : Queue) : Nat := (q.tail + 65536 - q.head) % 65536

/-! ## Tenants, keys, roles -/

def noTen : TenCfg := { valid := false, kpersist := false, ksrc := false, consent := false, deadline := 0 }

def Node.ten (s : Node) (t : Nat) : TenCfg := KList.getD s.sec.ten t noTen

def Node.tenants (s : Node) : List Nat := (s.sec.ten.filter fun p => p.2.valid).map (·.1)

def noSlot : KeySlot := { state := 0, key := 0, keyId := 0, copies := 3 }

def Node.kslot (s : Node) (i : Nat) : KeySlot := KList.getD s.sec.kslots i noSlot

/-- 14 R438, R440: what a use of a tenant's key slot gives: 0, `KEY_NOT_LOADED` or `KEY_FAULT`. -/
def Node.keyUse (s : Node) (t : Nat) : Nat :=
  match (s.kslot t).state with
  | 1 => 0
  | 2 => 0x0904
  | _ => 0x0901

/-- 14 R434, R438: whether a TID may be served: 0, `PARAM_TENANT`, or the slot's code. -/
def Node.tenantUse (s : Node) (t : Nat) : Nat := if (s.ten t).valid then s.keyUse t else 0x0102

/-- 14 R455: a session of a role is open on the PF's DOE. -/
def Node.roleOpen (s : Node) (r : Role) : Bool :=
  s.sec.sessions.any fun p => p.2.established && p.2.chan == .pfDoe && p.2.role == some r

/-- Whether a session of a role is open on any transport. -/
def Node.roleAnywhere (s : Node) (r : Role) : Bool := s.sec.sessions.any fun p => p.2.established && p.2.role == some r

/-- The first of the roles listed that a source holds. The firmware holds every role. -/
def Node.roleOf (s : Node) (src : Src) (rs : List Role) : Option Role :=
  match src with
  | .fw => rs.head?
  | .pf => rs.find? s.roleOpen
  | .mctp n => match KList.find? s.sec.sessions n with
    | some x => if x.established && x.chan == .mctp then rs.find? fun r => x.role == some r else none
    | none => none
  | .vf _ => none

def Role.code : Role → Nat
  | .operator => 1
  | .installer => 2
  | .maker => 3

/-! ## The log (16) -/

def noTid : Nat := 2048

/-- A log event with no unit, TID or detail. -/
def logEv (code : Nat) (unit : Nat := 0) (tid : Nat := noTid) : LogEv :=
  { code := code, unit := unit, tid := tid, all := false, count := 1, detail := [] }

/-- 16 Table 16.5: LUNIT. -/
def unitOf (kind idx : Nat) : Nat := kind * 2 ^ 28 + idx

/-- LTID of an owner. -/
def ltid (owner : Nat) : Nat := owner % 2048

/-- 16 Table 16.5: a record as 64 bytes. -/
def logBytes (r : LogRec) : Bytes :=
  natLe 8 r.time ++ natLe 4 r.seq ++ natLe 2 r.code ++ natLe 1 r.flags ++ natLe 1 0 ++ natLe 4 r.unit ++ natLe 2 r.tid
  ++ natLe 2 r.node ++ natLe 4 r.count ++ natLe 4 0 ++ natLe 8 r.last ++ slice r.detail 0 24

/-- Records written and not consumed. -/
def Log.unread (l : Log) : Nat := (l.head + 2 ^ 32 - l.tail) % 2 ^ 32

/-- The numbers of the unconsumed records, newest first. -/
def Log.open (l : Log) : List Nat := (List.range (min l.unread 20480)).map fun i => (l.head + 2 ^ 32 - 1 - i) % 2 ^ 32

/-- TIDs with a fixed-slot assignment (13 R430). -/
def Node.assigned (s : Node) : List Nat :=
  (s.regs.filter fun p => decide (0x220000 ≤ p.1 ∧ p.1 < 0x222000) && fld p.2 32 32 != 0).map fun p => (p.1 - 0x220000) / 8

/-- 14 R468: in fixed-slot mode, a tenant that has `n` of a resource is at the limit of that field of `SEC_FS_LIM`. -/
def Node.fsFull (s : Node) (owner lo w n : Nat) : Bool := s.fixedSlot && decide (owner < 1024) && decide (fld (s.reg .fsLim owner) lo w ≤ n)

/-- 16 R517, R518 with 14 Table 14.10: whether a record is coalesced, and whether it is dropped. -/
def Node.logPressure (s : Node) (tid : Nat) : Bool × Bool :=
  let l := s.log
  if s.fixedSlot then
    let share := 20480 / ((s.assigned).length + 1)
    let mine := (l.open.filter fun i => ((KList.find? l.ring i).map (·.tid)) == some tid).length
    (decide (share * 7 / 8 ≤ mine), decide (share ≤ mine) || decide (20480 ≤ l.unread))
  else (decide (17920 ≤ l.unread), decide (20480 ≤ l.unread))

/-- 17 R543: a copy for each tenant that may see the record. -/
def Node.logCopies (s : Node) (r : LogRec) (e : LogEv) : Node :=
  let tids := if e.all then s.tenants else if e.tid < 1024 then [e.tid] else []
  let t := tids.foldl (fun (m : KList (Nat × List LogRec)) t =>
    let x := KList.getD m t (0, [])
    KList.put m t (x.1 + 1, (r :: x.2).take 16)) s.log.tenant
  { s with log := { s.log with tenant := t } }

/-- 16 R515-R520, 15 R503: an event is logged. -/
def Node.logEvent (s : Node) (e : LogEv) : Node :=
  let c := e.code / 256
  let l := s.log
  let l := { l with cls := KList.put l.cls c (KList.getD l.cls c 0 + 1) }
  let l := if 5 ≤ c ∧ c ≤ 9 then
      match l.ffInfo with
      | none => { l with ffInfo := some e, ffTime := s.now }
      | some _ => { l with later := min (2 ^ 32 - 1) (l.later + 1) }
    else l
  let r : LogRec :=
    { time := s.now, seq := s.mgt.localSeq, code := e.code, flags := (if l.tsus then 2 else 0) + (if e.all then 4 else 0),
      unit := e.unit, tid := e.tid, node := s.dev.node, count := e.count, last := s.now, detail := slice e.detail 0 24 }
  let press := { s with log := l }.logPressure e.tid
  let s := { s with mgt := { s.mgt with localSeq := (s.mgt.localSeq + 1) % 2 ^ 32 } }
  let same := if press.1 then
      l.open.find? fun i => match KList.find? l.ring i with
        | some x => x.code == e.code && x.tid == e.tid
        | none => false
    else none
  let l := match same with
    | some i =>
      let x := KList.getD l.ring i r
      { l with ring := KList.put l.ring i { x with count := x.count + 1, last := s.now, flags := x.flags ||| 1 },
               coal := l.coal + 1 }
    | none =>
      if press.2 then { l with drop := l.drop + 1 }
      else { l with ring := KList.put (KList.del l.ring ((l.head + 2 ^ 32 - 20480) % 2 ^ 32)) l.head r,
                    head := (l.head + 1) % 2 ^ 32 }
  { s with log := l }.logCopies r e

/-- A code logged for an owner. -/
def Node.logFor (s : Node) (code owner : Nat) (unit : Nat := 0) : Node := s.logEvent (logEv code unit (ltid owner))

/-- A code logged with no TID. -/
def Node.logUnit (s : Node) (code : Nat) (unit : Nat := 0) : Node := s.logEvent (logEv code unit noTid)

/-- 14 R465: every existing tenant is told of a device-wide fault. -/
def Node.service (s : Node) : Node :=
  s.logEvent { code := 6, unit := 0, tid := noTid, all := true, count := 1, detail := [] }

/-! ## The audit log (14 R462, R463) -/

/-- 14 Table 14.9: a record as 128 bytes. -/
def auditBytes (r : AudRec) : Bytes :=
  natLe 8 r.seq ++ natLe 8 r.time ++ natLe 1 r.role ++ natLe 1 r.chan ++ natLe 2 r.act ++ natLe 2 r.status ++ natLe 2 0
  ++ slice r.subject 0 16 ++ natLe 8 r.target ++ slice r.detail 0 32 ++ slice r.prev 0 48

/-- The DeviceID public key (14 R450, notes/assumptions/10.md). -/
def Node.deviceKey (s : Node) : Bytes := Config.devicePub s.fuses.devSecret

/-- 14 R463: where the next record goes: flash, the 256-record QSPI area, or nowhere. -/
def Node.auditOk (s : Node) : Bool := s.flash.popOk || decide (s.qspi.auditUsed < 256)

/-- An act to record: role, channel, act number, subject, target, and 32 bytes of detail. -/
structure AuditAct where
  role : Nat
  chan : Nat
  act : Nat
  subject : Bytes
  target : Nat
  detail : Bytes
  deriving DecidableEq, Repr

/-- 14 R462: a record is written; the records are a ring of 65,536. -/
def Node.audit (s : Node) (a : AuditAct) (status : Nat) : Node :=
  if s.auditOk then
    let prev := match KList.find? s.sec.audit (s.sec.audSeq - 1) with
      | some r => if s.sec.audSeq = 0 then Sha.sha384 s.deviceKey else Sha.sha384 (auditBytes r)
      | none => if s.sec.audSeq = 0 then Sha.sha384 s.deviceKey else []
    let r : AudRec :=
      { seq := s.sec.audSeq, time := s.now, role := a.role, chan := a.chan, act := a.act, status := status,
        subject := a.subject, target := a.target, detail := a.detail, prev := prev }
    { s with
      sec := { s.sec with audit := KList.put (if s.sec.audSeq < 65536 then s.sec.audit else KList.del s.sec.audit (s.sec.audSeq - 65536)) s.sec.audSeq r,
                          audSeq := s.sec.audSeq + 1 }
      qspi := { s.qspi with auditUsed := s.qspi.auditUsed + (if s.flash.popOk then 0 else 1) }
      mgt := { s.mgt with localSeq := (s.mgt.localSeq + 1) % 2 ^ 32 } }
  else s

/-- 14 R462, R463: a privileged act whose own checks gave `code`: recorded, and then done. `AUDIT_UNAVAILABLE` where
no record can be written. -/
def Node.privileged (s : Node) (a : AuditAct) (code : Nat) (f : Node → Node) : Nat × Node :=
  if !s.auditOk then (if code = 0 then (0x0905, s) else (code, s))
  else if code = 0 then (0, f (s.audit a 0)) else (code, s.audit a code)

/-! ## Store clients (08 R259, R264) -/

structure CliId where
  valid : Bool
  remote : Bool
  node : Nat
  func : Nat
  tid : Nat
  deriving DecidableEq, Repr

def readCli (v : Nat) : CliId :=
  { valid := bitAt v 63, remote := bitAt v 62, node := fld v 47 15, func := fld v 36 11, tid := fld v 26 10 }

def Node.cliId (s : Node) (c : Nat) : CliId := readCli (s.reg .cliId c)

/-- The client entries that are valid, in rising number. -/
def Node.cliEntries (s : Node) : List Nat :=
  (s.regs.filter fun p => decide (0x581000 ≤ p.1 ∧ p.1 < 0x589000 ∧ p.1 % 32 = 0) && bitAt p.2 63).map
    fun p => (p.1 - 0x581000) / 32

/-- 08 R259: the entry that a request matches. -/
def Node.cliMatch (s : Node) (remote : Bool) (node func tid : Nat) : Option Nat :=
  s.cliEntries.find? fun c => let x := s.cliId c; x.remote == remote && x.node == node && x.func == func && x.tid == tid

def noClient : Client := { epoch := 0, live := false, load := 0, lastReq := 0, term := 0, tokens := 0, filledAt := 0, waiting := [] }

def Node.client (s : Node) (c : Nat) : Client := KList.getD s.store.clients c noClient

def Node.setClient (s : Node) (c : Nat) (x : Client) : Node :=
  { s with store := { s.store with clients := KList.put s.store.clients c x } }

/-- 08 R260: a request restarts the lease. -/
def Node.touchLease (s : Node) (c : Nat) : Node := s.setClient c { s.client c with live := true, lastReq := s.clk, term := fld (s.reg .stoCfg) 16 16 }

/-- 08 R263: the time for which a client's bucket has not been filled, in the tenths of a byte that it fills by. -/
def Node.fillTime (s : Node) (c : Nat) : Nat := (s.clk - (s.client c).filledAt) / 10 * 10

/-- 08 R263: what a client's bucket holds now: `RATE` · 100 MB/s is a tenth of a byte per ns. -/
def Node.tokensOf (s : Node) (c : Nat) : Nat :=
  let v := s.reg .cliBw c
  min (fld v 16 16 * 1024) ((s.client c).tokens + fld v 0 16 * s.fillTime c / 10)

/-- 08 R264: L of a client. -/
def Node.loadOf (s : Node) (c : Nat) : Nat :=
  let bw := s.reg .cliBw c
  let burst := fld bw 16 16 * 1024
  let cc := if fld bw 0 16 == 0 || burst == 0 then 0 else min 15 (16 * (burst - s.tokensOf c) / burst)
  max s.store.nload cc

/-! ## Completions (13 R412-R414, 17 R538) -/

/-- Whether a function's vector may be raised. -/
def Node.msix (s : Node) (func vec : Nat) : Node :=
  if s.hif.msixMasked.contains func then s else s.emit (.msix func vec)

/-- 13 R414: tail shadow, then MSI-X. -/
def Node.afterCompletion (s : Node) (cq : Nat) : Node :=
  let c := s.qcfg cq
  let q := s.queue cq
  let sh := s.reg .qshd cq
  let word := q.tail + 65536 * q.epoch
  let s := if sh = 0 then s
    else if c.host then s.emit (.shadow sh word) else s.write c.owner sh (natLe 8 word)
  if c.ien then s.msix c.func c.vec else s

/-- Bytes placed in the slots of a ring from count `c` on, wrapping. -/
def Node.ringWrite (s : Node) (q : Nat) : Nat → Bytes → Nat → Node
  | _, [], _ => s
  | _, _, 0 => s
  | c, b, fuel + 1 =>
    let cfg := s.qcfg q
    (s.write cfg.owner (s.reg .qbase q + 128 * (c % cfg.n)) (slice b 0 128)).ringWrite q (c + 1) (b.drop 128) fuel

/-- Slots of 128 bytes. -/
def slotsOf (bytes : Nat) : Nat := ceilDiv bytes 128

/-- A completion is written to a completion queue; `reserve` slots had been reserved for it. `seq` is the admission's
number: a completion whose function was reset since is discarded (17 R540). -/
def Node.completeTo (s : Node) (cq : Nat) (b : Bytes) (reserve seq : Nat) : Node :=
  let c := s.qcfg cq
  let q := s.queue cq
  let n := slotsOf b.length
  if !c.valid then s
  else if c.host && decide (seq < KList.getD s.hif.dmaDiscard c.func 0) then
    s.setQueue cq { q with cqReserved := q.cqReserved - reserve }
  else
    let pad := slice b 0 (128 * n)
    let s := if c.host then s.emit (.completion cq pad) else s.ringWrite cq q.tail pad n
    let s := { s with mgt := { s.mgt with localSeq := (s.mgt.localSeq + 1) % 2 ^ 32 } }
    let q := { q with pushed := if c.host then q.pushed else KList.put q.pushed q.tail n }
    (s.setQueue cq { q with tail := (q.tail + n) % 65536, cqReserved := q.cqReserved - reserve }).afterCompletion cq

/-- What a completion of an item other than QUERY says (13 Table 13.3). -/
structure Done where
  code : Nat
  result : Nat
  detail : Nat
  deriving DecidableEq, Repr

def done (code : Nat) (result : Nat := 0) (detail : Nat := 0) : Done := ⟨code, result, detail⟩

def Item.op (i : Item) : Nat := getLe i.bytes 0 1
def Item.cookie (i : Item) : Nat := getLe i.bytes 64 8
def Item.count (i : Item) : Nat := getLe i.bytes 4 4
/-- Argument `A<i>`. -/
def Item.arg (i : Item) (n : Nat) : Nat := getLe i.bytes (8 + 8 * n) 8
def Item.iflags (i : Item) : Nat := getLe i.bytes 1 1

/-- 08 R259: the client entry that a store item is a request of: one of a host or of a remote node, not of the node's own
threads. -/
def Node.itemClient (s : Node) (i : Item) : Option Nat :=
  let c := s.qcfg i.q
  if i.op < 0x18 ∨ 0x1D < i.op ∨ c.sys ∨ (!c.host && !i.fwd) then none else s.cliMatch i.fwd (if i.fwd then i.src else 0) c.func c.tid

/-- 08 R264: the load value of a response: N is not the model's to know (notes/assumptions/14.md), C is the client's. -/
def Node.respLoad (s : Node) (client : Option Nat) : Nat × Node :=
  let f := s.free
  let s : Node := { f.2 with store := { f.2.store with nload := f.1 % 16 } }
  match client with
  | none => (f.1 % 16, s)
  | some c => (s.loadOf c, s.setClient c { s.client c with load := s.loadOf c })

/-- 08 Table 8.6. -/
def devLoad (l : Nat) : Nat := if l ≤ 7 then 0 else if l ≤ 11 then 1 else if l ≤ 13 then 2 else 3

/-- A response to a CXL.mem host; one of a client carries its load. -/
def Node.cxlAnswer (s : Node) (client : Option Nat) (code : Nat) (b : Bytes) : Node :=
  match client with
  | none => s.emit (.cxl code (devLoad s.store.nload) b)
  | some c =>
    let l := s.loadOf c
    (s.setClient c { s.client c with load := l }).emit (.cxl code (devLoad l) b)

/-- A response that comes later than its request: N is what it is then. -/
def Node.cxlLater (s : Node) (client : Nat) (code : Nat) (b : Bytes) : Node :=
  let f := s.free
  ({ f.2 with store := { f.2.store with nload := f.1 % 16 } } : Node).cxlAnswer (some client) code b

/-- The load value of an item's completion: 0 where the item is not a store client's. -/
def Node.itemLoad (s : Node) (i : Item) : Nat × Node :=
  match s.itemClient i with
  | none => (0, s)
  | some c => s.respLoad (some c)

def doneBytes (i : Item) (tAdmit tDone load : Nat) (d : Done) : Bytes :=
  natLe 2 d.code ++ natLe 1 i.op ++ natLe 3 0 ++ natLe 1 load ++ natLe 1 0 ++ natLe 8 d.result ++ natLe 8 tAdmit
  ++ natLe 8 tDone ++ natLe 8 d.detail ++ natLe 16 0 ++ natLe 8 i.cookie

/-- The header of a QUERY's result (04 Table 4.6). -/
structure ResHead where
  code : Nat
  cond : Nat
  nvalid : Nat
  gen : Nat
  tAdmit : Nat
  scanned : Nat
  filtered : Nat
  tombstoned : Nat
  deriving DecidableEq, Repr

def Node.resBytes (s : Node) (i : Item) (h : ResHead) (es : List Entry) : Bytes :=
  natLe 2 h.code ++ natLe 2 h.cond ++ natLe 2 h.nvalid ++ natLe 2 es.length ++ natLe 6 h.gen ++ natLe 2 s.dev.node
  ++ natLe 8 h.tAdmit ++ natLe 8 s.now ++ natLe 8 h.scanned ++ natLe 8 h.filtered ++ natLe 8 h.tombstoned
  ++ natLe 8 i.cookie ++ es.flatMap entryBytes

/-- The condition bits that a status sets by itself (04 Table 4.5). -/
def condOf (code : Nat) : Nat := (if code == 3 then 4 else 0) + (if isDataPartial code then 32 else 0)

/-- `GEN` of the result of a query that holds no pin: with `XGEN` the generation that it names, else the number of no
generation (notes/assumptions/94.md). -/
def unpinnedGen (d : Bytes) : Nat := if bitAt (getLe d 1 1) 4 then getLe d 48 6 else 2 ^ 48 - 1

/-- The result header of a query that was rejected: no entry is valid, which is `SHORT` where it asks for any. -/
def resHead (d : Bytes) (code : Nat) : ResHead :=
  { code := code, cond := condOf code + (if getLe d 4 2 = 0 then 0 else 1), nvalid := 0, gen := unpinnedGen d, tAdmit := 0, scanned := 0
    filtered := 0, tombstoned := 0 }

/-- The entries that pad a QUERY's result that has none: its `K`, kept to 1-4,096 and to the ring
(notes/assumptions/27.md). -/
def Node.padOf (s : Node) (i : Item) : List Entry :=
  List.replicate (min (min 4096 (max 1 (getLe i.bytes 4 2))) ((128 * (s.qcfg (s.qcfg i.q).cq).n - 64) / 16)) padEntry

/-- 13 R411: an item is completed before it is admitted. -/
def Node.reject (s : Node) (i : Item) (code : Nat) : Node :=
  let l := s.itemLoad i
  l.2.completeTo (s.qcfg i.q).cq
    (if i.op = 0x10 then s.resBytes i (resHead i.bytes code) (s.padOf i) else doneBytes i 0 s.now l.1 (done code)) 0 s.nextId

/-- An admitted item other than QUERY completes. -/
def Node.finish (s : Node) (a : Admitted) (d : Done) : Node :=
  let l := s.itemLoad a.item
  l.2.completeTo (s.qcfg a.item.q).cq (doneBytes a.item a.tAdmit s.now l.1 d) a.item.reserve a.seq

/-- Parts of a shard key (07 R219): [11:0] index, [27:12] shard; an operator's item holds the TID in [37:28]. -/
def shardOfKey (tid key : Nat) : ShardId :=
  ⟨Fin.ofNat 1024 tid, Fin.ofNat 4096 (fld key 0 12), Fin.ofNat 65536 (fld key 12 16)⟩

end Sys2Proof.Machine
end

