-- ==== Sys2Proof/Machine/Regions.lean ====
section
/-! DEFINITION. Regions, tiers and quotas (09), and the storage of index objects (02 R45, R51, R66): the shared operations. -/

namespace Sys2Proof

def ShardParams.exact (p : ShardParams) : Nat := Machine.exactSize p.vfEx p.d
def ShardParams.code (p : ShardParams) : Nat := Machine.codeSize p.vfSeg p.m
def ShardParams.isPq (p : ShardParams) : Bool := p.vfSeg == 7 || p.vfSeg == 8
def ShardParams.nc (p : ShardParams) : Nat := if p.vfSeg == 7 then 16 else 256

/-- Bytes of an append block: record, vector, block, code (07 R223). -/
def ShardParams.blockBytes (p : ShardParams) : Nat := 32 + p.exact + (if p.ablk then 32 else 0) + p.code

end Sys2Proof

namespace Sys2Proof.Machine

/-! ## Regions (09 R270-R276) -/

def Node.region (s : Node) (owner r : Nat) : Option Region := KList.find? (KList.getD s.mem.regions owner []) r

def Node.setRegion (s : Node) (owner r : Nat) (x : Region) : Node :=
  let t := KList.put (KList.getD s.mem.regions owner []) r x
  { s with mem := { s.mem with regions := KList.put s.mem.regions owner t } }

def Node.delRegion (s : Node) (owner r : Nat) : Node :=
  let t := KList.del (KList.getD s.mem.regions owner []) r
  { s with mem := { s.mem with regions := KList.put s.mem.regions owner t } }

/-- Every region of the node: owner, number, descriptor. -/
def Node.allRegions (s : Node) : List (Nat × Nat × Region) :=
  s.mem.regions.flatMap fun o => o.2.map fun r => (o.1, r.1, r.2)

/-- Regions of an owner in a tier, with the reservations of its moves (09 R296). -/
def Node.tierUse (s : Node) (owner tier : Nat) : Nat :=
  ((KList.getD s.mem.regions owner []).filter fun r => r.2.tier == tier).length
  + (s.mem.moves.filter fun m => m.2.owner == owner && m.2.tier == tier && !m.2.rehash).length

/-- 00 R2, R3, Table 0.5: channels 16n–16n+15 belong to the stack beside Tn; four stacks stand beside T0, T2, T4, T6. -/
def Node.populated (s : Node) (c : Nat) : Bool := decide (c < 128) && (s.fuses.hbmStacks == 8 || c / 16 % 2 == 0)

/-- The channels that are populated and not retired. -/
def Node.liveChannels (s : Node) : List Nat := (List.range 128).filter fun c => s.populated c && !bitAt s.mem.hbmRet c

/-- 09 R278, R279: tenant frames. -/
def Node.hbmFrames (s : Node) : Nat := s.liveChannels.length * 768 - 4096

/-- Frames, lent addresses or extents of a tier in use: by regions and by moves. -/
def Node.locs (s : Node) (tier : Nat) : List Nat :=
  ((s.allRegions).filter fun r => r.2.2.tier == tier).map (·.2.2.loc)
  ++ ((s.mem.moves).filter fun m => m.2.tier == tier).map (·.2.loc)

/-- 10 R305: extents of the namespace without the shadow reserve. -/
def Node.flashExtents (s : Node) : Nat := s.flash.nu / 128 - 94336

def Node.tierMb (s : Node) : Nat := fld (s.reg .tbCfg) 0 6

/-- 09 R277: whether a TILE region is in a tile: at home, or as a copy of a replicated region. -/
def Node.inTile (s : Node) (r : Region) (t : Nat) : Bool := fld r.home 0 3 == t || (bitAt r.rfl 1 && !bitAt s.power.tileRet t)

/-- The regions that a tile's area holds, and those that moves bring there. -/
def Node.tileUse (s : Node) (t : Nat) : Nat :=
  (s.allRegions.filter fun r => r.2.2.tier == 1 && s.inTile r.2.2 t).length
  + (s.mem.moves.filter fun m => m.2.tier == 1 && (m.2.loc / 2 ^ 32 == t || match s.region m.2.owner m.2.region with
      | some r => s.inTile { r with home := m.2.loc / 2 ^ 32 } t
      | none => false)).length

/-- 09 R276: the regions that a tile's area takes: a lowered limit binds once use fits. -/
def Node.tileLimit (s : Node) (t : Nat) : Nat :=
  match KList.find? s.mem.tileHeld t with
  | some n => if s.tileUse t ≤ s.tierMb / 2 then s.tierMb / 2 else n
  | none => s.tierMb / 2

/-- 09 R276: `TIER_MB` is about to be written: the tiles that use more keep the limit that they have. -/
def Node.holdTiles (s : Node) (mb : Nat) : Node :=
  { s with mem := { s.mem with tileHeld := ((List.range 8).filter fun t => decide (mb / 2 < s.tileUse t)).map fun t => (t, s.tileLimit t) } }

/-! ## Lent memory (12 R399, 14 R442-R446) -/

/-- 14 R446: the regions of a grant that carry lines, eight of each group of nine, as global addresses (06 R178). -/
def Grant.regions (g : Grant) : List Nat :=
  (List.range g.groups).flatMap fun i => (List.range 8).map fun k => 2 ^ 63 + g.node * 2 ^ 48 + g.gbase + (9 * i + k) * 2097152

/-- The regions that the grants give the POOL tier. -/
def Node.poolRegions (s : Node) : List Nat := s.mem.grants.flatMap Grant.regions

/-- The grant that a global address lies in. -/
def Node.grantOf (s : Node) (g : Nat) : Option Grant :=
  s.mem.grants.find? fun x => x.node == fld g 48 15 && decide (x.gbase ≤ g % 2 ^ 48 ∧ g % 2 ^ 48 < x.gbase + x.groups * 18874368)

/-- 14 R443: a line's index within its grant, the lines counted in address order. -/
def Grant.lineIndex (x : Grant) (g : Nat) : Nat :=
  let o := g % 2 ^ 48 - x.gbase
  (o / 2097152 / 9 * 8 + o / 2097152 % 9) * 8192 + o % 2097152 / 256

/-- 14 R446: where a line's 32 B of metadata lie: in the ninth region of its group. -/
def Grant.metaAddr (x : Grant) (g : Nat) : Nat :=
  let o := g % 2 ^ 48 - x.gbase
  2 ^ 63 + x.node * 2 ^ 48 + x.gbase + (o / 18874368 * 9 + 8) * 2097152 + (o / 2097152 % 9 * 8192 + o % 2097152 / 256) * 32

/-- 14 R446: the metadata as bytes. -/
def LineMeta.bytes (m : LineMeta) : Bytes := slice m.tag 0 16 ++ natLe 4 m.counter ++ natLe 3 m.epoch ++ natLe 9 0

/-- 14 R444: the epoch and counter of a line's next write; none where its stream is read-only. -/
def nextStream : Option LineMeta → Option (Nat × Nat)
  | none => some (0, 0)
  | some m => if m.counter < 2 ^ 32 - 1 then some (m.epoch, m.counter + 1)
    else if m.epoch < 2 ^ 24 - 1 then some (m.epoch + 1, 0) else none

/-- 14 Table 14.1: the key of a line. -/
def Node.poolKey (s : Node) (owner serial epoch : Nat) : Bytes :=
  deriveKey (natLe 32 (s.kslot owner).key) [0x50, 0x4F, 0x4F, 0x4C] (natLe 4 serial ++ natLe 3 epoch)

/-- The global address of a line, without the offset in it. -/
def lineBase (g : Nat) : Nat := g - g % 256

/-- 14 Table 14.2: a line enciphered, under the IV and the additional data that its place gives. -/
def Node.lineSealed (s : Node) (owner g epoch counter : Nat) (plain : Bytes) : Bytes × Bytes :=
  match s.grantOf g with
  | none => (plain, [])
  | some x => gcmSeal (s.poolKey owner x.serial epoch) (natLe 12 (gcmIv epoch (x.lineIndex g) counter)) (natLe 8 (lineBase g)) plain

/-- A line read: its plaintext, under the metadata that it was asked for with; none where the tag does not check. -/
def Node.lineOpened (s : Node) (owner g : Nat) (m c : Bytes) : Option Bytes :=
  match s.grantOf g with
  | none => none
  | some x => gcmOpen (s.poolKey owner x.serial (getLe m 20 3)) (natLe 12 (gcmIv (getLe m 20 3) (x.lineIndex g) (getLe m 16 4)))
      (natLe 8 (lineBase g)) c (slice m 0 16)

/-- The metadata of the line that a global address lies in. -/
def Node.lineMeta (s : Node) (g : Nat) : LineMeta := KList.getD s.mem.lines (g % 2 ^ 63 / 256) { tag := [], counter := 0, epoch := 0 }

/-- What the node's memory holds for a tenant-local line is written to its place: the line's stream gives the next counter. -/
def Node.sealLine (s : Node) (owner g addr : Nat) : Node :=
  let k := g % 2 ^ 63 / 256
  match nextStream (KList.find? s.mem.lines k) with
  | none => s
  | some (e, c) =>
    let m : LineMeta := { tag := (s.lineSealed owner g e c (s.read owner (addr - addr % 256) 256)).2, counter := c, epoch := e }
    { s with mem := { s.mem with lines := KList.put s.mem.lines k m } }

/-- The lines of a stretch of a region that lies at `base`. -/
def Node.sealLines (s : Node) (owner base addr n : Nat) : Node :=
  (List.range ((addr + n - 1) / 256 - addr / 256 + 1)).foldl (fun s i =>
    let a := (addr / 256 + i) * 256
    s.sealLine owner (base + a % 2097152) a) s

/-- 14 R444: whether a write of a stretch meets a stream that is read-only. -/
def Node.linesSpent (s : Node) (base addr n : Nat) : Bool :=
  (List.range ((addr + n - 1) / 256 - addr / 256 + 1)).any fun i =>
    (nextStream (KList.find? s.mem.lines ((base + (addr / 256 + i) * 256 % 2097152) % 2 ^ 63 / 256))).isNone

/-- 14 R446: the next grant serial; one reservation is persisted ahead (14 R445). None where they are exhausted. -/
def Node.takeSerial (s : Node) : Option (Nat × Node) :=
  let n := s.sec.grantSerial
  if 2 ^ 32 ≤ n then none
  else some (n, { s with sec := { s.sec with grantSerial := n + 1, grantEnd := if n < s.sec.grantEnd then s.sec.grantEnd else n + 2 ^ 20 } })

/-- 14 R446: a grant of `len` regions is taken into use, in whole groups of nine; with no serial left it is not, and the node
logs `KEY_EXHAUSTED`. -/
def Node.takeGrant (s : Node) (node gbase len : Nat) : Node :=
  if len / 9 = 0 then s
  else match s.takeSerial with
    | none => s.logUnit 0x0902
    | some (n, s) => { s with mem := { s.mem with grants := s.mem.grants ++ [⟨node, gbase, len / 9, n⟩] } }

/-- The grants that a test names end. -/
def Node.dropGrants (s : Node) (p : Grant → Bool) : Node :=
  { s with mem := { s.mem with
      lines := s.mem.lines.filter fun l => !s.mem.grants.any fun g => p g && (l.1 * 256 / 2 ^ 48) == g.node
        && decide (g.gbase ≤ l.1 * 256 % 2 ^ 48 ∧ l.1 * 256 % 2 ^ 48 < g.gbase + g.groups * 18874368)
      grants := s.mem.grants.filter fun g => !p g } }

/-- Free capacity of a tier on the node. -/
def Node.tierFree (s : Node) (tier : Nat) : Nat :=
  match tier with
  | 1 => sumN (((List.range 8).filter fun t => !bitAt s.power.tileRet t).map fun t => s.tileLimit t - s.tileUse t)
  | 2 => s.hbmFrames - (s.locs 2).length
  | 3 => s.poolRegions.length - (s.locs 3).length
  | 4 => if s.flash.readOnly || !s.flash.popOk then 0 else s.flashExtents - (s.locs 4).length
  | _ => 0

/-- The capacity of a tier for tenants. -/
def Node.tierCap (s : Node) (tier : Nat) : Nat :=
  match tier with
  | 1 => sumN (((List.range 8).filter fun t => !bitAt s.power.tileRet t).map s.tileLimit)
  | 2 => s.hbmFrames
  | 3 => s.poolRegions.length
  | 4 => if s.flash.readOnly || !s.flash.popOk then 0 else s.flashExtents
  | _ => 0

/-- A TID's quota in a tier (09 `MEM_TQ0`, `MEM_TQ1`). -/
def Node.quota (s : Node) (owner tier : Nat) : Nat :=
  match tier with
  | 1 => fld (s.reg .tq0 owner) 24 8
  | 2 => fld (s.reg .tq0 owner) 0 17
  | 3 => fld (s.reg .tq0 owner) 32 25
  | 4 => fld (s.reg .tq1 owner) 0 25
  | _ => 0

def lowestFree (used : List Nat) : Nat → Nat → Nat
  | 0, n => n
  | fuel + 1, n => if used.contains n then lowestFree used fuel (n + 1) else n

/-- A free place in a tier: a frame, a lent address, an extent; in a tile buffer, tile · 2^32 + offset. -/
def Node.freeLoc (s : Node) (tier tile : Nat) : Nat :=
  let used := s.locs tier
  match tier with
  | 1 => tile * 2 ^ 32 + 2097152 * lowestFree ((used.filter fun l => l / 2 ^ 32 == tile).map fun l => l % 2 ^ 32 / 2097152)
      used.length 0
  | 3 => (s.poolRegions.find? fun a => !used.contains a).getD 0
  | _ => lowestFree used used.length 0

/-- The TIDs and quotas of a tier, for R285. -/
def Node.quotaSum (s : Node) (tier : Nat) : Nat := sumN ((List.range 1024).map fun t => s.quota t tier)

/-- 09 R285: the quotas of a tier and the system's regions fit its capacity. -/
def Node.quotasFit (s : Node) : Bool :=
  [1, 2, 3, 4].all fun t => decide (s.quotaSum t + s.tierUse sysOwner t ≤ s.tierCap t)

/-- Region-table leaves in use (09 R274), and those of one owner. -/
def Node.leavesOf (s : Node) (owner : Nat) : List Nat := ((KList.getD s.mem.regions owner []).map fun r => r.1 / 8192).dedup
def Node.leaves (s : Node) : Nat := sumN (s.mem.regions.map fun o => (s.leavesOf o.1).length)

/-- The regions from `first`, `n` of them. -/
def regionRange (first n : Nat) : List Nat := (List.range n).map (first + ·)

/-- A region filled with zeros: in POOL through each line's stream (14 R446). -/
def Node.zeroRegion (s : Node) (owner r tier loc : Nat) : Node :=
  let s := s.zero owner (r * 2097152) 2097152
  if tier == 3 then s.sealLines owner loc (r * 2097152) 2097152 else s

/-- A region's storage is zeroed and its descriptor removed (09 R273); the discard of a FLASH region unmaps its units
(10 R307). -/
def Node.freeRegion (s : Node) (owner r : Nat) : Node :=
  let s := match s.region owner r with
    | some x => if x.tier == 4 && !s.flash.readOnly then
        { s with flash := { s.flash with map := s.flash.map.filter fun p => !decide (p.1 / 128 = x.loc) } } else s
    | none => s
  let s := { s with flash := { s.flash with shadow := KList.del s.flash.shadow (owner * 2 ^ 27 + r) } }
  (match s.region owner r with
    | some x => s.zeroRegion owner r x.tier x.loc
    | none => s.zero owner (r * 2097152) 2097152).delRegion owner r

/-! ## Stored objects (02 R51, R66; notes/assumptions/24.md) -/

/-- Where the stored objects of an owner begin. -/
def objBase : Nat := 2 ^ 47

/-- The region number of a tenant-local address (09 R270). -/
def regionOf (addr : Nat) : Nat := addr % 2 ^ 48 / 2097152

/-- Whether two stretches of addresses have a byte in common. -/
def overlaps (a n b m : Nat) : Bool := decide (a < b + m) && decide (b < a + n)

/-- The regions that a stretch touches. -/
def regionsIn (addr n : Nat) : List Nat :=
  if n = 0 then [] else (List.range (regionOf (addr + n - 1) - regionOf addr + 1)).map (regionOf addr + ·)

/-- A region that the node mapped for stored objects. -/
def Node.nodeRegion (s : Node) (owner r : Nat) : Bool := s.index.objRegions.contains (owner, r)

/-- A region that holds stored objects is mapped where it is not: in HBM (02 R48), else in FLASH. Threads may only read it. -/
def Node.mapObj (s : Node) (owner r : Nat) : Node :=
  if (s.region owner r).isSome then s
  else
    let t := ([2, 4].find? fun t => decide (0 < s.tierFree t)).getD 2
    let s := (s.zero owner (r * 2097152) 2097152).setRegion owner r
      { tier := t, rfl := 1, heat := 0, home := 0, move := 0, epoch := 0, loc := s.freeLoc t 0, count := 0 }
    { s with index := { s.index with objRegions := s.index.objRegions ++ [(owner, r)] } }

/-- Bytes of stored objects written. -/
def Node.writeObj (s : Node) (owner addr : Nat) (b : Bytes) : Node :=
  ((regionsIn addr b.length).foldl (fun s r => s.mapObj owner r) s).write owner addr b

/-- The stretches from `objBase` on that are taken: by stored objects, and by regions of the tenant's own. -/
def Node.taken (s : Node) (owner : Nat) : List (Nat × Nat) :=
  ((s.index.objs.filter fun o => o.owner == owner).map fun o => (o.addr, o.size))
  ++ (((KList.getD s.mem.regions owner []).filter fun r => decide (objBase ≤ r.1 * 2097152) && !s.nodeRegion owner r.1).map
      fun r => (r.1 * 2097152, 2097152))

/-- The lowest free stretch of `n` bytes for stored objects. -/
def Node.freeAddr (s : Node) (owner n : Nat) : Nat :=
  let l := s.taken owner
  ((objBase :: l.map fun t => t.1 + t.2).filter fun a => !l.any fun t => overlaps a n t.1 t.2).foldl min (2 ^ 48)

/-- Space for a stored object of a shard. -/
def Node.alloc (s : Node) (owner inst n : Nat) (space : Bool := false) : Nat × Node :=
  let n := max 64 (round64 n)
  let a := s.freeAddr owner n
  (a, { s with index := { s.index with objs := s.index.objs ++
    [{ owner := owner, inst := inst, addr := a, size := n, space := space, birth := none, death := none }] } })

/-- An object written: its address. -/
def Node.putObj (s : Node) (owner inst : Nat) (b : Bytes) : Nat × Node :=
  let r := s.alloc owner inst b.length
  (r.1, r.2.writeObj owner r.1 b)

def shOwner (x : ShardId) : Nat := x.tid.val

/-- The stretches that the ordinals `lo` to `hi - 1` of a side list take in its streams (02 R45). -/
def Streams.ranges (t : Streams) (p : ShardParams) (lo hi : Nat) : List (Nat × Nat) :=
  let k := hi - lo
  let i := lo - t.base
  if k = 0 then []
  else [(t.recs + 32 * i, 32 * k), (t.vec + p.exact * i, p.exact * k)]
    ++ (if p.ablk then [(t.blk + 32 * i, 32 * k)] else []) ++ (if p.isPq then [(t.code + p.code * i, p.code * k)] else [])

/-- The newest SEALED generation of a shard. -/
def Node.newest (s : Node) (sh : ShardId) : Option GenRec := s.index.gens.find? fun r => r.shard == sh && r.state == 2

/-- The ordinal from which on a side list's entries belong to no sealed generation. -/
def Node.sealedTo (s : Node) (sh : ShardId) (part : Nat) (l : SideList) : Nat :=
  match (s.newest sh).bind fun g => KList.find? g.map part with
  | some e => if e.st == l.st then e.sideEnd else l.st.base
  | none => l.st.base

/-- The stretches of entries that no sealed generation holds, of an owner's shards. -/
def Node.openRanges (s : Node) (owner : Nat) : List (Nat × Nat) :=
  (s.index.shards.filter fun x => shOwner x.id == owner).flatMap fun x =>
    x.sides.flatMap fun l => l.2.st.ranges x.params (s.sealedTo x.id l.1 l.2) l.2.next

/-- Whether a space is one of the streams of a side list. -/
def Node.isStream (s : Node) (o : StoredObj) : Bool :=
  s.index.shards.any fun x => x.inst == o.inst && x.sides.any fun l => [l.2.st.recs, l.2.st.vec, l.2.st.blk, l.2.st.code].contains o.addr

/-- A region of the node's that holds no object any more is unmapped. -/
def Node.dropObjRegion (s : Node) (owner r : Nat) : Node :=
  let used := ((s.index.objs.filter fun o => o.owner == owner && !o.space).map fun o => (o.addr, o.size)) ++ s.openRanges owner
  if s.nodeRegion owner r && !(used.any fun t => overlaps (r * 2097152) 2097152 t.1 t.2) then
    let s := s.freeRegion owner r
    { s with index := { s.index with objRegions := s.index.objRegions.filter (· != (owner, r)) } }
  else s

/-- Objects are freed: their addresses, the spaces that nothing uses any more, and the regions that are empty then. -/
def Node.freeObjs (s : Node) (dead : List StoredObj) : Node :=
  let left := s.index.objs.filter fun o => !dead.contains o
  let live := left.filter fun o => !o.space || s.isStream o || left.any fun x => !x.space && x.owner == o.owner && overlaps x.addr x.size o.addr o.size
  let gone := s.index.objs.filter fun o => !live.contains o
  let s := { s with index := { s.index with objs := live } }
  (gone.flatMap fun o => (s.index.objRegions.filter fun p => p.1 == o.owner && overlaps (p.2 * 2097152) 2097152 o.addr o.size)).dedup.foldl
    (fun s p => s.dropObjRegion p.1 p.2) s

/-- 02 R66: an object may go: every generation from its birth to its death - 1 is RETIRED. -/
def Node.objFree (s : Node) (o : StoredObj) : Bool :=
  match o.birth, o.death with
  | some b, some d => !(s.index.gens.any fun r => r.inst == o.inst && decide (b ≤ r.gen ∧ r.gen < d))
  | _, _ => false

/-- 02 R66: the storage that generations which have retired held is freed. -/
def Node.freeStorage (s : Node) : Node := s.freeObjs (s.index.objs.filter s.objFree)

/-- What a retired generation leaves: its flash copy, and a dropped shard of which it was the last, go. -/
def Node.dropSaved (s : Node) : Node :=
  { s with index := { s.index with
      saved := s.index.saved.filter fun v => s.index.gens.any fun r => r.inst == v.inst && r.gen == v.gen
      dropped := s.index.dropped.filter fun x => s.index.gens.any fun r => r.inst == x.inst } }

end Sys2Proof.Machine
end

