-- ==== Sys2Proof/Machine/Ctx.lean ====
section
/-! DEFINITION. Contexts, gangs, pins and merge sessions: how they end and what they give back (04, 06 R164-R168, R184,
07 R220, R221). -/

namespace Sys2Proof.Machine

/-- The number of a thread: [12:8] hub, [7:2] spoke, [1:0] thread (12 Table 12.4). -/
def thrNo (t : Thr) : Nat := t.hub.val * 256 + t.spoke.val * 4 + t.thr.val
def thrHub (n : Nat) : Nat := n / 256
def thrSpoke (n : Nat) : Nat := n / 4 % 64

def Node.thread (s : Node) (n : Nat) : Option Thread := KList.find? s.spokes.threads n

/-- The word of the instruction that a thread holds, from the instruction store (06 R173, R184). -/
def Node.instrAt (s : Node) (pc : Nat) : Nat := (KList.getD s.spokes.istore pc 0).toNat

def Node.setThread (s : Node) (n : Nat) (t : Thread) : Node :=
  { s with spokes := { s.spokes with threads := KList.put s.spokes.threads n t } }

def Node.ctx (s : Node) (c : Nat) : Option Ctx := KList.find? s.spokes.ctxs c

def Node.setCtx (s : Node) (c : Nat) (x : Ctx) : Node :=
  { s with spokes := { s.spokes with ctxs := KList.put s.spokes.ctxs c x } }

/-! ## Generations and pins (02) -/

def GenRec.is (r : GenRec) (inst g : Nat) : Bool := r.inst == inst && r.gen == g

def Node.genOf (s : Node) (inst g : Nat) : Option GenRec := s.index.gens.find? fun r => r.is inst g

/-- A change to the record of one generation; a SUPERSEDED one whose `PINS` is then 0 retires (02 Table 2.8), its record
leaves the table, and the storage that it alone reached is freed (02 R66). -/
def Node.updGen (s : Node) (inst g : Nat) (f : GenRec → GenRec) : Node :=
  let gs := (s.index.gens.map fun r => if r.is inst g then f r else r).filter fun r => !(r.is inst g && r.state == 3 && r.pins == 0)
  ({ s with index := { s.index with gens := gs } }).dropSaved.freeStorage

/-- 02 R61, R63: a pin is released; a SUPERSEDED generation without pins retires. -/
def Node.unpin (s : Node) (p : Pin) : Node := s.updGen p.inst p.gen fun r => { r with pins := r.pins - 1 }

def Node.shard (s : Node) (sh : ShardId) : Option Shard := s.index.shards.find? fun x => x.id == sh

/-- The shard of a pinned generation, dropped since or not. -/
def Node.shardOf (s : Node) (inst : Nat) : Option Shard := (s.index.shards ++ s.index.dropped).find? fun x => x.inst == inst

def Node.setShard (s : Node) (x : Shard) : Node :=
  { s with index := { s.index with shards := s.index.shards.map fun y => if y.id == x.id then x else y } }

/-! ## Model slots (05 R152) -/

def emptySlot : Slot := { state := 0, refs := 0, area := 0, addr := 0, image := [], item := none }

def Node.slot (s : Node) (i : Nat) : Slot := KList.getD s.cas.slots i emptySlot

def Node.setSlot (s : Node) (i : Nat) (x : Slot) : Node := { s with cas := { s.cas with slots := KList.put s.cas.slots i x } }

/-- Every cassette's copy of a slot is zeroed. -/
def Node.dropCopies (s : Node) (i : Nat) : Node :=
  { s with cas := { s.cas with tiles := KList.mapVals (fun _ c => { c with
      copies := KList.del c.copies i
      active := c.active.filter fun a => a.slot != i
      staged := c.staged.filter fun a => a.slot != i }) s.cas.tiles } }

/-- A slot becomes EMPTY; the item that unloads it completes. -/
def Node.emptyOut (s : Node) (i : Nat) : Node :=
  let x := s.slot i
  let s := (s.setSlot i emptySlot).dropCopies i
  match x.item with
  | some a => s.finish a (done 0)
  | none => s

def Node.dropRef (s : Node) (i : Nat) : Node :=
  let x := s.slot i
  let s := s.setSlot i { x with refs := x.refs - 1 }
  if x.state == 3 && x.refs == 1 then s.emptyOut i else s

/-! ## The query descriptor (03 Table 3.1) -/

def qK (d : Bytes) : Nat := getLe d 4 2
def qTie (d : Bytes) : Bool := bitAt (getLe d 1 1) 0
/-- 04 Table 4.1: the final capacity. -/
def qCap (d : Bytes) : Nat := if qTie d then getLe d 6 2 else qK d
/-- The capacity before re-rank. -/
def qCap0 (d : Bytes) : Nat := if fld (getLe d 1 1) 2 2 != 0 then getLe d 12 2 else qCap d

def emptyPartial (cap : Nat) : Partial := { list := TopList.empty cap, scanned := 0, filtered := 0, tombstoned := 0 }

/-- The generation that the node pinned for a query at admission. -/
def Query.ownGen (q : Query) : Option Nat := (q.gens.head?).map (·.gen)

/-- 04 Table 4.6: `GEN` of the result, whose final merge gives `g`. -/
def Query.resultGen (q : Query) (g : Nat) : Nat := if bitAt (getLe q.desc 1 1) 4 then getLe q.desc 48 6 else q.ownGen.getD g

/-- What a query that ends early has: the lists that its gang delivered, at the final capacity (04 R126;
notes/assumptions/94.md). -/
def Query.gathered (q : Query) : Partial :=
  match q.tile with
  | none => emptyPartial (qCap q.desc)
  | some t => { t with list := mergeLists (qCap q.desc) [(t.list.entries, t.list.drop)] }

/-- A node's own partial list as an input of a merge (04 R120, R122); without a pin its `GEN` is the number of no generation
(notes/assumptions/94.md). -/
def Node.ownMsg (s : Node) (q : Query) : MergeMsg :=
  let p := q.partialList.getD (emptyPartial (qCap q.desc))
  { status := q.status, cond := condOf q.status, nposIn := 1, gen := q.ownGen.getD (2 ^ 48 - 1), src := s.dev.node, qtag := q.qtag,
    dropKey := p.list.drop, scanned := p.scanned, filtered := p.filtered, tombstoned := p.tombstoned,
    pos := q.pos.getD 0xFFFF, entries := p.list.entries }

/-- 04 R120, R123: inputs merged. -/
def mergeMsgs (cap : Nat) (own : List MergeMsg) (ins : List MergeMsg) (missing : Bool) (src qtag pos : Nat) : MergeMsg :=
  let all := own ++ ins
  let l := mergeLists cap (all.map fun m => (m.entries, m.dropKey))
  let low := all.foldl (fun (b : Option MergeMsg) m => match b with
    | none => some m
    | some x => if m.pos < x.pos then some m else some x) none
  { status := mergeStatus (all.map fun m => (m.pos, m.status)) missing
    cond := all.foldl (fun a m => a ||| m.cond) (if missing then 8 else 0)
    nposIn := sumN (all.map (·.nposIn)), gen := (low.map (·.gen)).getD (2 ^ 48 - 1), src := src, qtag := qtag, dropKey := l.drop
    scanned := sumN (all.map (·.scanned)), filtered := sumN (all.map (·.filtered))
    tombstoned := sumN (all.map (·.tombstoned)), pos := pos, entries := l.entries }

/-- 04 R114, R123, R125, R126: the result of a final merge is written to the completion queue. -/
def Node.writeResult (s : Node) (a : Admitted) (q : Query) (m : MergeMsg) : Node :=
  let d := a.item.bytes
  let f := finalSelect (qK d) (qTie d) { cap := qCap d, entries := m.entries, drop := m.dropKey }
  let code := if m.status == 0 then (if f.tie then 2 else if f.short then 1 else 0) else m.status
  let nan := f.entries.any fun e => e.key == nanKey
  let h : ResHead :=
    { code := code, cond := m.cond ||| ((if f.short then 1 else 0) + (if f.tie then 2 else 0) + (if nan then 16 else 0)),
      nvalid := f.nvalid, gen := q.resultGen m.gen, tAdmit := a.tAdmit, scanned := m.scanned, filtered := m.filtered,
      tombstoned := m.tombstoned }
  s.completeTo (s.qcfg a.item.q).cq (s.resBytes a.item h f.entries) a.item.reserve a.seq

/-! ## The end of threads, gangs and contexts -/

/-- The topology of top-k blocks: a hub's free blocks by unit (04 R107). -/
def Node.freeBlocks (s : Node) (hub : Nat) : List Nat :=
  (List.range 4).map fun u =>
    16 - sumN ((s.sel.lists.filter fun p => p.2.hub == hub).map fun p => p.2.blocks.getD u 0)
      - sumN ((s.sel.argmax.filter fun p => p.2 == (hub, u)).map fun _ => 16)

/-- What is added to the number of a thread that is no more in the accesses that outlive it: they are of its spoke, and no
thread's. -/
def orphan : Nat := 8192

/-- What a thread held of shared units is given back; an arrival at a barrier stays (07 R235). Its loads end without effect;
its stores and atomics that are outstanding still take effect (06 R184, 09 R292). -/
def Node.releaseThread (s : Node) (n : Nat) : Node :=
  { s with
    spokes := { s.spokes with
      threads := KList.del s.spokes.threads n
      accesses := (s.spokes.accesses.filter fun p => !(p.2.thr == n && (p.2.kind == 0 || !p.2.begun))).map fun p =>
        if p.2.thr == n then (p.1, { p.2 with thr := n + orphan, dst := .none }) else p }
    sel := { s.sel with
      argmax := KList.del s.sel.argmax n
      waits := KList.mapVals (fun _ l => l.filter fun w => w.thr != n) s.sel.waits }
    qsy := { s.qsy with
      queues := KList.mapVals (fun _ q => { q with pushes := q.pushes.filter (fun p => p.thr != n) }) s.qsy.queues
      syncs := KList.mapVals (fun _ x => { x with waiters := x.waiters.filter (· != n) }) s.qsy.syncs }
    store := { s.store with ops := KList.mapVals (fun _ o => if o.thr == some n then { o with thr := none } else o) s.store.ops }
    index := { s.index with
      seals := s.index.seals.map fun r => { r with waiters := r.waiters.filter fun w => w != .thread n }
      unheld := s.index.unheld.filter fun u => u.who != .thread n }
    sec := { s.sec with halted := s.sec.halted.filter (· != n) }
    power := { s.power with idleSince := KList.put s.power.idleSince (thrHub n) s.clk } }

/-- 16 Table 16.2: the gang's ring entry is completed. -/
def Node.endGangEntry (s : Node) (hub c : Nat) : Node :=
  let r := (KList.getD s.log.gangRings hub []).map fun e => if e.ctx == c && e.tEnd == 0 then { e with tEnd := s.now } else e
  { s with log := { s.log with gangRings := KList.put s.log.gangRings hub r } }

/-- Requests of a context that has ended leave a cassette; a batch goes on without them (07 R203). -/
def Cassette.forget (t : Cassette) (c : Nat) : Cassette :=
  { t with
    queue := t.queue.filter fun r => r.2.ctx != c
    rest := t.rest.filter fun r => r.2.ctx != c
    batch := t.batch.map fun b => { b with parts := b.parts.filter fun p => p.req.ctx != c } }

/-- 06 R167: the gang of a context ends: its threads, its lists, its slot references. -/
def Node.endGang (s : Node) (c : Nat) : Node :=
  match s.ctx c with
  | none => s
  | some x =>
    let s := x.threads.foldl Node.releaseThread s
    let s := { s with
      sel := { s.sel with lists := s.sel.lists.filter fun p => p.2.ctx != c },
      cas := { s.cas with tiles := KList.mapVals (fun _ t => t.forget c) s.cas.tiles } }
    let s := x.slotRefs.foldl Node.dropRef s
    (s.setCtx c { x with threads := [], held := [], lists := [], slotRefs := [] }).endGangEntry x.hub c

/-- The key of a merge session: its query's QTAG and its position (04 R119, 12 R390). -/
def sessKey (q : Query) : Nat := q.qtag + 2 ^ 32 * q.pos.getD 0xFFFF

/-- 04 R121: the positions that a session still waits on. -/
def MergeSession.absent (m : MergeSession) : List Nat := m.waits.filter fun p => !m.inputs.any fun i => i.pos == p

/-- 04 R121: inputs of these positions of a QTAG come after their session has closed, if they come. -/
def Node.noteLate (s : Node) (tag : Nat) (l : List Nat) : Node :=
  { s with sel := { s.sel with
      late := s.sel.late ++ l.map fun p => { qtag := tag, pos := p, since := s.clk, relTmo := fld (s.reg .mrgCfg) 0 16 } } }

/-- A session is no more. -/
def Node.dropMergeSession (s : Node) (k : Nat) (m : MergeSession) : Node :=
  ({ s with sel := { s.sel with sessions := KList.del s.sel.sessions k } }).noteLate (k % 2 ^ 32) m.absent

/-- 07 R221: the context is no more; its pins are released. -/
def Node.dropCtx (s : Node) (c : Nat) : Node :=
  match s.ctx c with
  | none => s
  | some x =>
    let s := s.endGang c
    let s := x.pins.foldl (fun s p => s.unpin p.2) s
    let s := (s.sel.sessions.filter fun p => p.2.ctx == c).foldl (fun s p => s.dropMergeSession p.1 p.2) s
    { s with
      spokes := { s.spokes with ctxs := KList.del s.spokes.ctxs c },
      sel := { s.sel with msWait := s.sel.msWait.filter (· != c) } }

/-- The positions of a plan that a copy of a query is for: all but the node's own (01 R33). -/
def otherPositions (p : Plan) (pos : Option Nat) : List (Nat × Nat) :=
  ((p.nlist.zipIdx.filter fun e => pos != some e.2).map (·.1))

/-- 04 R124, 12 Table 12.3: the release to every participating node: one posted write of the QTAG. This node's own
release stays here. -/
def Node.sendReleases (s : Node) (q : Query) : Node :=
  match q.plan with
  | none => s
  | some p => (((otherPositions p q.pos).map (·.1)).dedup).foldl (fun s n =>
      if n == s.dev.node then s.emit (.release n q.qtag) else s.portWrite n 0x20000000000 (natLe 4 q.qtag)) s

/-- The coordinating node of a QTAG (04 Table 4.4). -/
def qtagNode (t : Nat) : Nat := fld t 15 15

/-- A merge of a node leaves: to the parent's merge port (04 R120, 12 Table 12.3), or, on the coordinating node's final merge,
to the completion queue. A context that has sent its list waits for the events of 04 R124 alone. -/
def Node.sendMerge (s : Node) (c : Nat) (x : Ctx) (q : Query) (final : Bool) (m : MergeMsg) : Node :=
  if final then
    let s := match x.adm with
      | some a => s.writeResult a q m
      | none => s
    (s.sendReleases q).dropCtx c
  else
    let dst := match q.plan, q.pos with
      | some p, some i => if i == 0 then qtagNode q.qtag else ((p.nlist[p.parent i]?).map (·.1)).getD (qtagNode q.qtag)
      | _, _ => qtagNode q.qtag
    let m := if q.pos == some 0 then { m with pos := 0xFFFF } else m
    let s := if dst == s.dev.node then s.emit (.stream dst m)
      else s.portWrite dst (0x10000000000 + fld q.qtag 0 12 * 65536) (mergeBytes m)
    (s.endGang c).setCtx c { x with threads := [], held := [], lists := [], slotRefs := [], deadline := none, query := some { q with
      sentAt := some s.clk, relTmo := fld (s.reg .mrgCfg) 0 16 } }

/-- 04 R120: a session has what it waits for. -/
def MergeSession.complete (m : MergeSession) (ownReady : Bool) : Bool :=
  m.absent.isEmpty && (!m.own || ownReady)

/-- 04 R120: a session closes; children whose input has not arrived are given up (R121). A coordinating node that holds
another position than 0 then waits for the final input (R119). -/
def Node.closeSession (s : Node) (key : Nat) : Node :=
  match KList.find? s.sel.sessions key with
  | none => s
  | some m =>
    match s.ctx m.ctx with
    | none => { s with sel := { s.sel with sessions := KList.del s.sel.sessions key } }
    | some x =>
      match x.query with
      | none => s
      | some q =>
        let final := m.coord && (!m.own || q.pos == some 0)
        let mine := m.inputs.filter fun i => final || i.pos != 0xFFFF
        let lost := m.absent.length
        let s := s.dropMergeSession key m
        let s := { s with sel := { s.sel with miss := s.sel.miss + lost } }
        let s := if m.coord && !final then
            let next : MergeSession := { m with own := false, waits := [0xFFFF], missing := false, inputs := m.inputs.filter fun i => i.pos == 0xFFFF }
            { s with sel := { s.sel with sessions := KList.put s.sel.sessions key next } }
          else s
        let own := if m.own then [s.ownMsg q] else []
        let out := mergeMsgs (qCap q.desc) own (mine.map (·.msg)) (m.missing || decide (0 < lost)) s.dev.node q.qtag (q.pos.getD 0xFFFF)
        s.sendMerge m.ctx x q final out

/-- The session of a context. -/
def Node.sessionOf (s : Node) (c : Nat) : Option Nat := (List.find? (fun (p : Nat × MergeSession) => p.2.ctx == c) s.sel.sessions).map (·.1)

/-- The node's own input of a query is ready: it goes into the session, to the parent, or to the result. -/
def Node.ownReady (s : Node) (c : Nat) (code : Nat) (list : Option Partial) : Node :=
  match s.ctx c with
  | none => s
  | some x =>
    match x.query with
    | none => s
    | some q =>
      let q := { q with status := code, partialList := some (list.getD (emptyPartial (qCap q.desc))) }
      let x := { x with query := some q }
      let s := (s.setCtx c x).endGang c
      let x := (s.ctx c).getD x
      match s.sessionOf c with
      | some _ => s
      | none =>
        let m := mergeMsgs (qCap q.desc) [s.ownMsg q] [] false s.dev.node q.qtag (q.pos.getD 0xFFFF)
        s.sendMerge c x q (!q.forwarded) m

/-- What the table operation of an item has done: the rows that took effect, and the first that failed (07 R226, 13
Table 13.3). -/
def Node.rowsDone (s : Node) (a : Admitted) : Nat × Nat :=
  match List.find? (fun (p : Nat × TabOp) => p.2.item == some a) s.store.ops with
  | none => (0, 0)
  | some p => ((p.2.rows.filter fun r => r.2.2 == 0).length,
      ((List.find? (fun (r : Nat × (Option Bytes × Nat)) => r.2.2 != 0) p.2.rows).map (·.1)).getD 0)

/-- The node ends a context with a code: what waits is given up, and the item completes. -/
def Node.endCtx (s : Node) (c : Nat) (code : Nat) : Node :=
  match s.ctx c with
  | none => s
  | some x =>
    match x.query with
    | none =>
      match x.adm with
      | some a => let d := s.rowsDone a; (s.dropCtx c).finish a (done code d.1 d.2)
      | none => s.dropCtx c
    | some q =>
      if q.forwarded && q.sentAt.isSome then s.dropCtx c
      else
        let s := s.endGang c
        let own := if q.partialList.isSome then q else { q with status := code, partialList := some q.gathered }
        let s := s.setCtx c { (s.ctx c).getD x with query := some own }
        match s.sessionOf c with
        | some t => if code == 0x0B01 then (s.closeSession t).closeSession t else s.closeSession t
        | none => s.ownReady c code own.partialList

/-- The contexts that pass a test. -/
def Node.ctxsWhere (s : Node) (p : Nat → Ctx → Bool) : List Nat := (s.spokes.ctxs.filter fun c => p c.1 c.2).map (·.1)

/-- Each context of a list ended with a code. -/
def Node.endCtxs (s : Node) (l : List Nat) (code : Nat) : Node := l.foldl (fun s c => s.endCtx c code) s

/-- 06 R184: an instruction of a thread faults; `pc` and `word` are the instruction's. -/
def Node.threadFault (s : Node) (n pc code word addr : Nat) : Node :=
  match s.thread n with
  | none => s
  | some t =>
    let owner := ((s.ctx t.ctx).map (·.owner)).getD sysOwner
    let s := s.logEvent { code := code, unit := unitOf 1 (64 * thrHub n + thrSpoke n), tid := ltid owner, all := false,
                          count := 1, detail := natLe 4 pc ++ natLe 8 word ++ natLe 8 addr }
    let tile := thrHub n / 4
    let last := put code 48 16 + put n 32 13 + (if owner == sysOwner then 2 ^ 25 else put owner 15 10) + put pc 0 15
    let s := { s with spokes := { s.spokes with
      pfaultCnt := KList.put s.spokes.pfaultCnt tile (KList.getD s.spokes.pfaultCnt tile 0 + 1)
      pfaultLast := KList.put s.spokes.pfaultLast tile last } }
    s.endCtx t.ctx (if code / 256 == 1 || code / 256 == 2 then 0x0531 else code)

end Sys2Proof.Machine
end

