-- ==== Sys2Proof/Machine/Sessions.lean ====
section
/-! DEFINITION. Merge sessions and the merge ports of the node (04 R119-R124; 12 Table 12.3): their inputs, what is held, what
is given up. -/

namespace Sys2Proof.Machine

/-- 04 R118, R119: the positions that a query's session waits for; none where it needs no session. -/
def sessionWaits (q : Query) : Option (List Nat) :=
  match q.plan with
  | none => none
  | some p =>
    let ch := (q.pos.map p.children).getD []
    if q.forwarded then (if ch.isEmpty then none else some ch)
    else if q.pos == some 0 then (if ch.isEmpty then none else some ch)
    else some (if q.pos.isNone then [0xFFFF] else ch)

/-- Whether the node holds two positions of a query's plan (12 R390). -/
def Node.twice (s : Node) (q : Query) : Bool := match q.plan with
  | some p => decide (1 < (p.nlist.filter fun e => e.1 == s.dev.node).length)
  | none => false

/-- The contexts of a QTAG on this node: two where it holds two positions. -/
def Node.qtagCtxs (s : Node) (tag : Nat) : List (Nat × Ctx) := s.spokes.ctxs.filter fun p => (p.2.query.map (·.qtag)) == some tag

/-- The sessions of a QTAG. -/
def Node.sessionsOf (s : Node) (tag : Nat) : List (Nat × MergeSession) := s.sel.sessions.filter fun p => decide (p.1 % 2 ^ 32 = tag)

/-- 04 R121: an input is discarded. -/
def Node.missInput (s : Node) : Node := { s with sel := { s.sel with miss := s.sel.miss + 1 } }

/-- 04 R121: whether a session takes an input of a position; the coordinating node's final input is expected where the node
does not hold position 0. -/
def MergeSession.takes (x : MergeSession) (pos : Nat) : Bool :=
  (x.waits.contains pos || (x.coord && x.pos != 0 && pos == 0xFFFF)) && !x.inputs.any fun i => i.pos == pos

/-- 04 R121: the positions of a list are given up. -/
def Node.dropInputs (s : Node) (k : Nat) (m : MergeSession) (lost : List Nat) : Node :=
  if lost.isEmpty then s
  else
    let m := { m with waits := m.waits.filter (fun p => !lost.contains p), missing := true }
    ({ s with sel := { s.sel with sessions := KList.put s.sel.sessions k m, miss := s.sel.miss + lost.length } }).noteLate (k % 2 ^ 32) lost

/-- The node at a position of a query's merge plan; the final input is position 0's. -/
def Query.posNode (q : Query) (p : Nat) : Option Nat := q.plan.bind fun pl => (pl.nlist[if p = 0xFFFF then 0 else p]?).map (·.1)

/-- The positions that a session of a query waits on and whose nodes pass a test. -/
def MergeSession.absentAt (m : MergeSession) (q : Query) (f : Nat → Bool) : List Nat :=
  m.absent.filter fun p => match q.posNode p with
    | some n => f n
    | none => false

/-- 04 R119, R121: a session is reserved; the streams held for it become its inputs, and it waits for no node that has been
decided FAILED. -/
def Node.reserveSession (s : Node) (c : Nat) (q : Query) (waits : List Nat) : Node :=
  let m : MergeSession := { ctx := c, pos := q.pos.getD 0xFFFF, coord := !q.forwarded, waits := waits, own := q.pos.isSome, inputs := [],
                            missing := false, reservedAt := s.clk, relTmo := fld (s.reg .mrgCfg) 0 16 }
  let mine := s.sel.held.filter fun h => h.msg.qtag == q.qtag
  let ins := (mine.filter fun h => m.takes h.msg.pos).foldl (fun (l : List MergeIn) h => if l.any fun i => i.pos == h.msg.pos then l else l ++ [⟨h.msg.pos, h.msg⟩]) []
  let m := { m with inputs := ins }
  let gone := fun (h : HeldStream) => h.msg.qtag == q.qtag && (waits.contains h.msg.pos || ins.any (fun i => i.pos == h.msg.pos) || !s.twice q)
  let s := { s with sel := { s.sel with sessions := KList.put s.sel.sessions (sessKey q) m, msWait := s.sel.msWait.filter (· != c)
                                        held := s.sel.held.filter fun h => !gone h
                                        miss := s.sel.miss + ((s.sel.held.filter gone).length - ins.length) } }
  s.dropInputs (sessKey q) m (m.absentAt q fun n => (KList.find? s.peloton.members n).any fun x => x.state == 7)

/-- Whether a query of this QTAG may still reserve a session here. -/
def Node.mayReserve (s : Node) (tag : Nat) : Bool :=
  let cs := s.qtagCtxs tag
  if cs.isEmpty then qtagNode tag != s.dev.node
  else cs.any fun p => s.sel.msWait.contains p.1 || match p.2.query with
    | some q => s.twice q && decide (cs.length < 2)
    | none => false

/-- 04 R121: an input of a position whose session has closed without it, within `REL_TMO` of that (notes/assumptions/95.md). -/
def Node.lateFor (s : Node) (tag pos : Nat) : Option LateInput :=
  s.sel.late.find? fun l => l.qtag == tag && l.pos == pos && !s.passed l.since (1000 * l.relTmo)

/-- 04 R121: a merge stream arrives: an input of a session, held for one, or discarded. -/
def Node.takeStream (s : Node) (m : MergeMsg) : Node :=
  match (s.sessionsOf m.qtag).find? fun p => p.2.takes m.pos with
  | some (k, x) => { s with sel := { s.sel with sessions := KList.put s.sel.sessions k { x with inputs := x.inputs ++ [⟨m.pos, m⟩] } } }
  | none => match s.lateFor m.qtag m.pos with
    | some l => ({ s with sel := { s.sel with late := s.sel.late.erase l } }).missInput
    | none =>
      if s.mayReserve m.qtag then
        { s with sel := { s.sel with held := s.sel.held ++ [{ msg := m, since := s.clk, relTmo := fld (s.reg .mrgCfg) 0 16 }] } }
      else s.missInput

/-- Whether a session's own list is ready. -/
def Node.ownIsReady (s : Node) (m : MergeSession) : Bool := (((s.ctx m.ctx).bind (·.query)).bind (·.partialList)).isSome

/-- 04 R121: the children that are missing are given up; the session closes once its own list is ready. -/
def Node.giveUp (s : Node) (k : Nat) (m : MergeSession) : Node :=
  if m.absent.isEmpty then s
  else
    let s := s.dropInputs k m m.absent
    if s.ownIsReady m || !m.own then s.closeSession k else s

/-- Whether a session waits no longer. -/
def Node.sessionDue (s : Node) (m : MergeSession) : Bool :=
  match (s.ctx m.ctx).bind (·.deadline) with
  | some d => decide (d ≤ s.now)
  | none => s.passed m.reservedAt (1000 * m.relTmo)

/-- 04 R121: sessions give up on a node that has failed. -/
def Node.giveUpOn (s : Node) (x : Nat) : Node :=
  s.sel.sessions.foldl (fun s p => match (s.ctx p.2.ctx).bind (·.query) with
    | none => s
    | some q => s.dropInputs p.1 p.2 (p.2.absentAt q (· == x))) s

/-- 04 R124: a release arrives: the contexts that this node keeps for the coordinating node's query end. -/
def Node.takeRelease (s : Node) (qtag : Nat) : Node :=
  ((s.qtagCtxs qtag).filter fun p => (p.2.query.map (·.forwarded)) == some true).foldl (fun s p => s.dropCtx p.1) s

/-! ## Merge ports (12 Table 12.3) -/

/-- The merge stream that a port holds whole: its partial header says how many entries follow (04 Table 4.4). -/
def PortRx.stream (x : PortRx) : Option MergeMsg :=
  let b := x.parts.foldl (fun b p => putBytes b p.1 p.2) (List.replicate (64 + 16 * 4096) 0)
  let n := getLe b 4 2
  if decide (n ≤ 4096) && (KList.find? x.parts 0).isSome && sumN (x.parts.map fun p => p.2.length) == 64 + 16 * n then
    some { status := getLe b 0 2, cond := getLe b 2 2, nposIn := getLe b 6 2, gen := getLe b 8 6, src := getLe b 14 2 % 32768
           qtag := getLe b 16 4 % 2 ^ 30, dropKey := getLe b 20 4, scanned := getLe b 24 8, filtered := getLe b 32 8, tombstoned := getLe b 40 8
           pos := getLe b 48 2
           entries := (List.range n).map fun i => ⟨getLe b (64 + 16 * i) 4, getLe b (68 + 16 * i) 2, getLe b (70 + 16 * i) 2, getLe b (72 + 16 * i) 8⟩ }
  else none

/-- A write to a merge port: the streams of a source and a port arrive one after another (notes/assumptions/95.md). -/
def Node.portStream (s : Node) (src port off : Nat) (data : Bytes) : Node :=
  let old := (s.sel.rx.find? fun x => x.src == src && x.port == port).getD { src := src, port := port, parts := [] }
  let x := { old with parts := KList.put old.parts off data }
  let rest := s.sel.rx.filter fun y => !(y.src == src && y.port == port)
  match x.stream with
  | some m => ({ s with sel := { s.sel with rx := rest } }).takeStream m
  | none => { s with sel := { s.sel with rx := rest ++ [x] } }

end Sys2Proof.Machine
end

