-- ==== Sys2Proof/Machine/Queue.lean ====
section
/-! DEFINITION. Rings, doorbells and flushes; synchronisation objects; buckets (13 R404-R427). -/

namespace Sys2Proof.Machine

/-! ## Threads: results of instructions that waited -/

/-- 06 R169: a scalar register; s0 reads 0. -/
def Thread.getS (t : Thread) (n : Nat) : W64 := if n = 0 then 0 else KList.getD t.s n 0

/-- A scalar register written with its poison bit; s0 is not written. -/
def Thread.setS (t : Thread) (n : Nat) (v : W64) (poison : Bool := false) : Thread :=
  if n = 0 then t
  else { t with s := KList.put t.s n v,
                sPoison := if poison then n :: t.sPoison.filter (· != n) else t.sPoison.filter (· != n) }

/-- 07 R199: the failure word. -/
def failWord (code : Nat) : W64 := BitVec.ofNat 64 (2 ^ 63 + code)

/-- The instruction that a thread held completes: its result, its status, the next PC. -/
def Thread.retire (t : Thread) (rd : Nat) (v : W64) (code : Nat) : Thread :=
  { t.setS rd v with lstat := code, pc := (t.pc + 1) % 32768, wait := none, waitRd := 0 }

/-- 07 R199: a waiting instruction fails with a returned code. -/
def Node.failWait (s : Node) (n code : Nat) : Node :=
  match s.thread n with
  | none => s
  | some t => if t.wait.isSome then s.setThread n (t.retire t.waitRd (failWord code) code) else s

/-! ## Flush and disable -/

/-- 13 R410, R417: the end of the last whole item at or before TAIL, of a ring that threads write: from count `c` on. -/
def Queue.wholeEnd (x : Queue) : Nat → Nat → Nat
  | 0, c => c
  | fuel + 1, c =>
    match KList.find? x.pushed c with
    | none => c
    | some m => if (x.tail + 65536 - c) % 65536 < m % 65536 then c else x.wholeEnd fuel ((c + m) % 65536)

/-- 13 R417: a flush. -/
def Node.flushQueue (s : Node) (q : Nat) : Node :=
  let c := s.qcfg q
  let x := s.queue q
  let x := { x with epoch := (x.epoch + 1) % 256 }
  s.setQueue q (if c.kind == 1 then { x with head := x.tail }
    else if c.host && x.readTo != x.tail then { x with cut := true }
    else
      let t := if c.host then x.head else x.wholeEnd (x.used + 1) x.head
      { x with tail := t, readTo := t, pushes := [], reserved := t })

/-- 13 R407: the committed items that have not been admitted complete with `QUEUE_DISABLED`. -/
def Node.rejectAll (s : Node) (q code : Nat) : Node :=
  let x := s.queue q
  x.items.foldl (fun s i => s.reject i code) (s.setQueue q { x with items := [] })

/-- 13 R407, 00 R10: `VALID` becomes 0. -/
def Node.disableQueue (s : Node) (q : Nat) : Node :=
  let v := s.reg .qcfg q
  let s := s.flushQueue q
  let s := if (s.qcfg q).kind == 0 then s.rejectAll q 0x0406 else s
  s.setReg .qcfg q (v % 2 ^ 63)

/-! ## Doorbells (13 R415) -/

/-- The status of a doorbell. -/
def Node.doorbellCode (s : Node) (q epoch count : Nat) : Nat :=
  let c := s.qcfg q
  let x := s.queue q
  if epoch ≠ x.epoch then 0x0401
  else if c.kind == 1 then
    if (count + 65536 - x.head) % 65536 ≤ x.used then 0 else 0x01D0
  else
    let d := (count + 65536 - x.tail) % 65536
    if 1 ≤ d ∧ d ≤ c.n - x.used then 0 else 0x01D0

/-- The data plane runs: no L2, L1 or L0 holds it, no save runs, and the node is not in Pewter mode (01 R22, 15). -/
def Node.dataUp (s : Node) : Bool :=
  (s.mgt.resets.all fun r => !r.begun || r.level == 3) && s.mgt.pfPhase == .idle && !s.dev.pewter

/-- A write of `Q_DB` to a queue that is valid: a doorbell, or a flush. One that arrives in a reset of QSY is discarded
(01 Table 1.4). -/
def Node.doorbell (s : Node) (q value : Nat) : Node :=
  let c := s.qcfg q
  let x := s.queue q
  let epoch := fld value 16 8
  let count := fld value 0 16
  let rejectWith := fun code => s.setQueue q { x with last := code, rej := min 255 (x.rej + 1) }
  if !c.valid || !s.dataUp then s
  else if x.cut then s.setQueue q { x with held := x.held ++ [value] }
  else if bitAt value 31 then
    if epoch == 0 && count == 0 then s.flushQueue q else rejectWith 0x01D0
  else
    match s.doorbellCode q epoch count with
    | 0 => s.setQueue q (if c.kind == 1 then { x with head := count, last := 0 } else { x with tail := count, last := 0, readAt := if x.readTo == x.tail then s.clk else x.readAt })
    | code => rejectWith code

/-! ## Taking items from a ring (13 R409, R410, R416) -/

/-- The items that a run of slots holds whole: each with its slot count, and the slots that are left. -/
def splitItems : Nat → List Bytes → List (Nat × Bytes)
  | 0, _ => []
  | _, [] => []
  | fuel + 1, b :: t =>
    let n := if getLe b 0 1 == 0x10 then 1 else fld (getLe b 2 1) 0 4 + 1
    if n ≤ t.length + 1 then (n, ((b :: t).take n).flatMap (slice · 0 128)) :: splitItems fuel ((b :: t).drop n) else []

/-- 13 R410: the items of a ring that threads write: the slot counts are those of the pushes. -/
def Node.pushedItems (s : Node) (q : Nat) : Nat → Nat → List (Nat × Bytes)
  | _, 0 => []
  | c, fuel + 1 =>
    let x := s.queue q
    let cfg := s.qcfg q
    match KList.find? x.pushed c with
    | none => []
    | some m =>
      let n := m % 65536
      if (x.tail + 65536 - c) % 65536 < n then []
      else
        let b := (List.range n).flatMap fun i => s.read cfg.owner (s.reg .qbase q + 128 * (((c + i) % 65536) % cfg.n)) 128
        (m, b) :: s.pushedItems q ((c + n) % 65536) fuel

/-- The count after the newest reservation: never behind the tail. -/
def Queue.resAt (x : Queue) (n : Nat) : Nat := if (x.reserved + 65536 - x.tail) % 65536 ≤ n then x.reserved else x.tail

/-- The next items of a ring become items that wait for admission. Those of store clients restart their leases (08 R260). -/
def Node.takeItems (s : Node) (q : Nat) (l : List (Nat × Bytes)) : Node :=
  let x := s.queue q
  let n := sumN (l.map fun p => p.1 % 65536)
  let its := l.map fun p => { q := q, slots := p.1 % 65536, bytes := p.2, fwd := decide (65536 ≤ p.1), src := p.1 / 65536 - 1, checked := false, cost := 0, reserve := 0 }
  let h := (x.head + n) % 65536
  let t := if x.cut then h else x.tail
  let s := s.setQueue q { x with items := x.items ++ its, head := h, tail := t, readTo := t, cut := false, held := [],
                                 pushed := x.pushed.filter fun p => !decide ((p.1 + 65536 - x.head) % 65536 < n) }
  if (s.qcfg q).valid then x.held.foldl (fun s v => s.doorbell q v) (its.foldl (fun s i => (s.itemClient i).elim s s.touchLease) s)
  else s.rejectAll q 0x0406

/-- A flush that waits for a read that will not end: the slots that were not read are given up (notes/assumptions/28.md). -/
def Node.endCut (s : Node) (q : Nat) : Node :=
  let x := s.queue q
  if x.cut then s.setQueue q { x with tail := x.head, readTo := x.head, cut := false, held := [] } else s

/-- 17 R539: a ring's DMA read failed. -/
def Node.dmaFail (s : Node) (q : Nat) (timeout : Bool) : Node :=
  let owner := (s.qcfg q).owner
  let s := ((s.disableQueue q).endCut q).logFor 0x01D2 owner
  if timeout then s.emit (.aer (s.qcfg q).func 4) else s

/-! ## Token buckets (13 R423, R425, R427) -/

def bucketRate (v : Nat) : Nat := fld v 0 24
def bucketBurst (v : Nat) : Nat := fld v 40 24

/-- Tokens, in 1/1,024 of a unit. -/
def Node.tenTok (s : Node) (t : Nat) : Nat := KList.getD s.adm.tenTok t 0
def Node.clsTok (s : Node) (c : Nat) : Nat := KList.getD s.adm.clsTok c 0

def Node.setTenTok (s : Node) (t v : Nat) : Node := { s with adm := { s.adm with tenTok := KList.put s.adm.tenTok t v } }
def Node.setClsTok (s : Node) (c v : Nat) : Node := { s with adm := { s.adm with clsTok := KList.put s.adm.clsTok c v } }

/-- What a bucket holds after one more microsecond. -/
def refill (cfg tok : Nat) : Nat := min (bucketBurst cfg * 1024) (tok + bucketRate cfg * 1024 / 1000)

/-- Slots of a completion queue that may still be reserved (13 R413). -/
def Node.cqRoom (s : Node) (cq : Nat) : Nat := (s.qcfg cq).n - (s.queue cq).used - (s.queue cq).cqReserved

/-! ## Synchronisation objects (13 R419-R421) -/

def Node.sync (s : Node) (i : Nat) : Option Sync := KList.find? s.qsy.syncs i

def Node.setSync (s : Node) (i : Nat) (x : Sync) : Node := { s with qsy := { s.qsy with syncs := KList.put s.qsy.syncs i x } }

/-- Whether a context's owner may use an object. -/
def Sync.usable (x : Sync) (owner : Nat) : Bool := owner == sysOwner || x.owner == owner

/-- Waiters end with a code. -/
def Node.endWaiters (s : Node) (l : List Nat) (code : Nat) : Node := l.foldl (fun s n => s.failWait n code) s

/-- Objects that an owner has created. -/
def Node.syncCount (s : Node) (owner : Nat) : Nat := (s.qsy.syncs.filter fun p => p.2.owner == owner).length

/-- The waiters whose wait is over complete with `OK`: those of a test. -/
def Node.wakeWaiters (s : Node) (l : List Nat) : Node :=
  l.foldl (fun s n => match s.thread n with
    | some t => if t.wait.isSome then s.setThread n (t.retire t.waitRd 0 0) else s
    | none => s) s

/-- 07 R234: a semaphore's or counter's value serves its waiters, oldest first; one that cannot be served blocks those
behind it. A semaphore's waiter takes its count. -/
def serveSem (t : Nat → Option (Nat × Bool)) : List Nat → Nat → List Nat × List Nat × Nat
  | [], v => ([], [], v)
  | n :: r, v =>
    match t n with
    | some (need, takes) =>
      if need ≤ v then
        let x := serveSem t r (if takes then v - need else v)
        (n :: x.1, x.2.1, x.2.2)
      else ([], n :: r, v)
    | none => serveSem t r v

/-- What a waiting thread asks of a semaphore or counter. -/
def Node.semNeed (s : Node) (takes : Bool) (n : Nat) : Option (Nat × Bool) :=
  match (s.thread n).bind (·.wait) with
  | some (.sem _ c _) => some (c, takes)
  | _ => none

/-- A semaphore or counter whose value is now `v`. -/
def Node.settleSem (s : Node) (i : Nat) (x : Sync) (v : Nat) : Node :=
  let r := serveSem (s.semNeed (x.type == 0)) x.waiters v
  (s.setSync i { x with value := r.2.2, waiters := r.2.1 }).wakeWaiters r.1

end Sys2Proof.Machine
end

