-- ==== Sys2Proof/Machine/Mem.lean ====
section
/-! DEFINITION. Stalls and timeouts (09) and store clients (08): the shared operations. -/

namespace Sys2Proof.Machine

/-- 09 R291: a stall counted. -/
def Node.stall (s : Node) (owner cause : Nat) : Node :=
  if owner < 1024 then
    { s with mem := { s.mem with stalls := KList.put s.mem.stalls (4 * owner + cause) (KList.getD s.mem.stalls (4 * owner + cause) 0 + 1) } }
  else s

/-- 09 R292: a tier timeout counted. -/
def Node.tmo (s : Node) (owner : Nat) : Node :=
  if owner < 1024 then { s with mem := { s.mem with tmos := KList.put s.mem.tmos owner (KList.getD s.mem.tmos owner 0 + 1) } } else s

/-! ## Store clients (08 R258-R263) -/

def Node.acceptsSearch (s : Node) : Bool := s.dev.func == 0 || s.dev.func == 2
def Node.acceptsStore (s : Node) : Bool := s.dev.func == 1 || s.dev.func == 2

/-- A read of the client's own status restarts a lease that is live. -/
def Node.touchStat (s : Node) (c : Nat) : Node := s.setClient c { s.client c with lastReq := s.clk, term := fld (s.reg .stoCfg) 16 16 }

/-- Locks that a client holds. -/
def Node.locksOf (s : Node) (c : Nat) : List Lock := s.store.locks.filter fun l => l.client == c

/-- The release of a lock word as an atomic of the node, which `STORE_COMPLETE` serves: it writes 0 where the word still holds
the value written (08 R262). -/
def lockRelease (l : Lock) (clk : Nat) : Access :=
  { thr := 2 * orphan, owner := l.owner, job := none, kind := 2, fn := 25, addr := l.addr, size := 8, dst := .none, data := natLe 8 0
    cmp := l.value, mask := 255, x := false, acquire := false, after := [], tag := none, pc := 0, word := 0, issued := clk, begun := true
    hold := false }

/-- 08 R262: a lock word released on lapse, if it still holds the value written: at once where one byte of memory of this node
holds it, else as an atomic. -/
def Node.dropLock (s : Node) (l : Lock) : Node :=
  match s.region l.owner (regionOf l.addr) with
  | none => s
  | some r =>
    if decide (3 ≤ r.tier) || bitAt r.rfl 3 || s.peloton.repls.any fun x => x.owner == l.owner && decide (x.first ≤ regionOf l.addr ∧ regionOf l.addr < x.first + x.count) then
      let f := s.fresh
      { f.2 with spokes := { f.2.spokes with accesses := KList.put f.2.spokes.accesses f.1 (lockRelease l s.clk) } }
    else if !bitAt r.rfl 0 && s.readLe l.owner l.addr 8 == l.value then s.write l.owner l.addr (natLe 8 0) else s

/-- An admitted item that has begun and waits ends with a code. -/
def Node.endItem (s : Node) (a : Admitted) (code : Nat) : Node :=
  match List.find? (fun (p : Nat × Ctx) => p.2.adm == some a) s.spokes.ctxs with
  | some p => s.endCtx p.1 code
  | none =>
    let x := s.queue a.item.q
    (s.setQueue a.item.q { x with mItems := x.mItems.filter (· != a) }).finish a (done code)

/-- 08 R261: a lease lapses. -/
def Node.lapse (s : Node) (c : Nat) : Node :=
  let x := s.client c
  let s := s.setClient c { x with epoch := (x.epoch + 1) % 65536, live := false, waiting := [] }
  let s := (s.locksOf c).foldl Node.dropLock s
  let ends := (s.store.bwItems).filter fun p => x.waiting.any fun w => w.1 == p.1
  let s := { s with store := { s.store with
    locks := s.store.locks.filter fun l => l.client != c
    bwItems := s.store.bwItems.filter fun p => !x.waiting.any fun w => w.1 == p.1
    bwWaits := s.store.bwWaits.filter fun p => !x.waiting.any fun w => w.1 == p.1
    lapses := s.store.lapses + 1 } }
  let s := ends.foldl (fun s p => s.endItem p.2 0x0240) s
  x.waiting.foldl (fun s w => if ends.any fun p => p.1 == w.1 then s else s.cxlLater c 0x0240 []) s

/-- The leases of a set of entries lapse, those that are live. -/
def Node.lapseAll (s : Node) (l : List Nat) : Node := l.foldl (fun s c => if (s.client c).live then s.lapse c else s) s

/-- The entries of local functions, or of one function. -/
def Node.localClients (s : Node) (func : Option Nat) : List Nat :=
  s.cliEntries.filter fun c => let x := s.cliId c; !x.remote && (match func with
    | some f => x.func == f
    | none => true)

/-- 08 R265: the exports that are valid: number, TID, first region, regions; in rising number. -/
def Node.exports (s : Node) : List (Nat × Nat × Nat × Nat) :=
  (List.range 64).filterMap fun x =>
    let b := s.reg .expBase x
    if bitAt b 63 then some (x, fld b 48 10, fld b 21 27, fld (s.reg .expLen x) 0 27) else none

/-- 08 R265: where a device physical address falls: TID, tenant-local address, bytes left in the export. -/
def locateDpa : List (Nat × Nat × Nat × Nat) → Nat → Option (Nat × Nat × Nat)
  | [], _ => none
  | (_, tid, first, n) :: t, a =>
    if a < n * 2097152 then some (tid, first * 2097152 + a, n * 2097152 - a) else locateDpa t (a - n * 2097152)

end Sys2Proof.Machine
end

