-- ==== Sys2Proof/Machine/Admin.lean ====
section
/-! DEFINITION. Operations of the management plane that registers and other commands share: reset requests (15),
snapshots (16), isolation (13), tenants (14), jobs and windows (12), configuration digests (12). -/

namespace Sys2Proof.Machine

/-! ## Resets (15 R484-R488) -/

/-- 15 Table 15.5: default, lowest and highest value of each entry. -/
def resetTable : List (Nat × Nat × Nat) :=
  [(0, 0, 0), (0, 0, 0), (1, 0, 2), (2, 1, 3), (3, 1, 3), (1, 0, 1), (1, 1, 1), (0, 0, 1), (1, 0, 1), (2, 2, 3), (1, 0, 2),
   (0, 0, 0), (3, 2, 3), (3, 2, 3), (1, 0, 1), (3, 3, 3)]

def packEntries (f : Nat × Nat × Nat → Nat) : Nat :=
  sumN ((resetTable.zip (List.range 16)).map fun p => put (f p.1) (2 * p.2) 2)

/-- `MGT_RST_MAP.MAP`: the table in force. -/
def Node.rstMap (s : Node) : Nat := if s.fuses.rstProg then s.fuses.rstMap else packEntries (·.1)
def rstMin : Nat := packEntries (·.2.1)
def rstMax : Nat := packEntries (·.2.2)

/-- The level that a source selects. -/
def Node.resetLevel (s : Node) (source : Nat) : Nat := fld s.rstMap (2 * source) 2

/-- The cause of a reset is recorded (15 R488). -/
def Node.setCause (s : Node) (level tile source : Nat) : Node :=
  { s with mgt := { s.mgt with causeLevel := level, causeSource := source,
                               causeTile := if level == 3 then tile else s.mgt.causeTile } }

/-- A request merged into the resets in progress. -/
def Node.mergedOne (s : Node) : Node := { s with mgt := { s.mgt with merged := min 65535 (s.mgt.merged + 1) } }

/-- 15 R488: a reset of a level is requested. Value 3 of a source that names no tile resets no level. -/
def Node.requestLevel (s : Node) (level tile source : Nat) : Node :=
  let run : ResetRun := { level := level, tile := tile, source := source, since := s.clk, begun := false }
  let put := fun (s : Node) (l : List ResetRun) =>
    { s with mgt := { s.mgt with resets := l, nodeBusyN := if level ≤ 1 then false else s.mgt.nodeBusyN } }
  if s.mgt.pfPhase != .idle then
    let w := match s.mgt.waitReset with
      | some r => if r.level ≤ level then r else run
      | none => run
    ({ s with mgt := { s.mgt with waitReset := some w } }).mergedOne
  else
    match s.mgt.resets with
    | [] => (put s [run]).setCause level tile source
    | rs =>
      if level == 3 && rs.all fun r => r.level == 3 && r.tile != tile then (put s (rs ++ [run])).setCause level tile source
      else
        let deepest := rs.foldl (fun m r => min m r.level) 3
        if level < deepest then (put s [run]).mergedOne.setCause level tile source else s.mergedOne

/-- 15 R484: a source raises its entry. -/
def Node.requestReset (s : Node) (source : Nat) (tile : Option Nat) : Node :=
  let l := s.resetLevel source
  match l, tile with
  | 3, none => s
  | l, t => s.requestLevel l (t.getD 0) source

/-! ## Snapshots (16 R522) -/

/-- Whether an arm at T is accepted, and whether it joins an armed one. -/
def Node.armCode (s : Node) (t : Nat) : Nat :=
  if t < s.now + 10000 then 0x0175
  else if s.snap.armed.any fun a => decide (t ≤ a.t + 1000 ∧ a.t ≤ t + 1000) then 0
  else if 4 ≤ s.snap.armed.length then 0x0390 else 0

/-- An accepted arm; one within 1 µs of an armed T joins it. -/
def Node.armSnap (s : Node) (t : Nat) : Node :=
  if s.snap.armed.any fun a => decide (t ≤ a.t + 1000 ∧ a.t ≤ t + 1000) then s
  else { s with snap := { s.snap with armed := s.snap.armed ++ [⟨t, s.snap.nextSeq⟩], nextSeq := (s.snap.nextSeq + 1) % 65536 } }

/-- The ports that are UP. -/
def Node.upPorts (s : Node) : List Nat := (s.links.ports.filter fun p => p.2.state == 5).map (·.1)

/-- 16 R525: the flood of a domain-scope arm, to every UP port but one: a posted write of 32 B to the neighbour's snapshot
port (its layout: notes/assumptions/100.md). -/
def Node.floodArm (s : Node) (t issuer seq : Nat) (but : Option Nat) : Node :=
  let b := natLe 8 t ++ natLe 8 issuer ++ natLe 16 seq
  { s with fabric := { s.fabric with
      portOut := s.fabric.portOut ++ (s.upPorts.filter fun p => but != some p).map fun p => (p, 0xF50000000000, b) } }

/-- An arm of this node: of the node, or of the domain (bench mode: of the node). -/
def Node.arm (s : Node) (t : Nat) (domain : Bool) : Node :=
  let s := s.armSnap t
  if domain && !s.dev.bench then
    let q := s.snap.armSeq
    let s := { s with snap := { s.snap with armSeq := q + 1, seen := (s.dev.node, q) :: s.snap.seen } }
    s.floodArm t s.dev.node q none
  else s

/-! ## Isolation (13 R430, 01 R30) -/

/-- Hubs of a tile that the worst case needs withdrawn at a limit in watts. -/
def worstWithdrawn (tileW : Nat) : Nat := ceilDiv (56100 - 1000 * tileW) 7030

/-- Hubs that R30 withdraws, as a mask: of each tile as many as the worst case needs out of dispatch, those that are
retired counted, the highest-numbered of the others (notes/assumptions/91.md). -/
def Node.fsWithdrawn (s : Node) : Nat :=
  let n := worstWithdrawn (fld (s.reg .tpwrLim) 0 8)
  sumN ((List.range 8).flatMap fun t =>
    let live := (List.range 4).filter fun j => !bitAt s.power.hubRet (4 * t + j)
    (live.reverse.take (n + live.length - 4)).map fun j => 2 ^ (4 * t + j))

/-- 01 R29: a throttle event of shared mode. -/
def Node.concEvent (s : Node) : Node := if s.fixedSlot then s else s.service

/-- The TIDs that own a valid queue. -/
def Node.queueTids (s : Node) : List Nat :=
  ((s.validQueues.filter fun q => !(s.qcfg q).sys).map fun q => (s.qcfg q).tid).dedup

def Node.fsHubs (s : Node) (t : Nat) : Nat := fld (s.reg .fsTen t) 32 32

/-- Masks that overlap none of the others. -/
def disjointMasks : List Nat → Bool
  | [] => true
  | m :: t => (t.all fun x => m &&& x == 0) && disjointMasks t

/-- 13 R430, 14 R468, 09 R285: what entry to fixed-slot mode gives, for the register value of the write. -/
def Node.fsEntryCode (s : Node) (value : Nat) : Nat :=
  let ts := s.queueTids
  let slots := fld value 12 4
  let masks := ts.map s.fsHubs
  let fl := ts.map fun t => fld (s.reg .fsTen t) 28 4
  let pm := ts.map fun t => fld (s.reg .fsTen t) 0 10
  let sys := fld (s.reg .fsSys) 32 32
  let wd := s.fsWithdrawn
  let lim := fun lo w => sumN (s.assigned.map fun t => fld (s.reg .fsLim t) lo w)
  if (masks.all fun m => m != 0 && m &&& wd == 0) && disjointMasks (masks ++ [sys])
      && (fl.all fun f => decide (1 ≤ f ∧ f ≤ slots)) && fl.dedup.length == fl.length
      && (pm.all fun p => decide (1 ≤ p)) && decide (sumN pm ≤ 800)
      && sys != 0 && sys &&& wd == 0
      && decide (lim 48 16 ≤ 65535 ∧ lim 38 10 ≤ 1023 ∧ lim 26 12 ≤ 4095 ∧ lim 14 12 ≤ 4095 ∧ lim 2 12 ≤ 4095) then
    if s.quotasFit then 0 else 0x0350
  else 0x01D4

/-! ## Windows and jobs (12 R371-R375) -/

def Node.dropWindows (s : Node) (p : Window → Bool) : Node :=
  { s with fabric := { s.fabric with windows := s.fabric.windows.filter fun w => !p w.2 } }

def Node.job (s : Node) (j : Nat) : Option Job := KList.find? s.fabric.jobs j

def Node.setJob (s : Node) (j : Nat) (x : Job) : Node :=
  { s with fabric := { s.fabric with jobs := KList.put s.fabric.jobs j x } }

/-- A unified access ends with a failure before it took effect: it takes no effect, and its thread learns of it when
LOAD_COMPLETE or STORE_COMPLETE is told; here it is withdrawn (12 R375). -/
def Node.dropAccesses (s : Node) (p : Access → Bool) : Node :=
  { s with spokes := { s.spokes with accesses := s.spokes.accesses.filter fun a => !p a.2 } }

/-- 12 R375: a job faults here. -/
def Node.faultJob (s : Node) (j : Nat) : Node :=
  match s.job j with
  | none => s
  | some x =>
    if x.faulted || j == 0 then s
    else
      let s := (s.setJob j { x with faulted := true }).dropWindows fun w => w.job == j
      let s := s.endCtxs (s.ctxsWhere fun _ c => c.job == some j) 0x0605
      let s := s.dropAccesses fun a => a.job == some j
      { s with fabric := { s.fabric with reqs := s.fabric.reqs.filter fun r => r.2.job != j } }

/-! ## Configuration digest (12 R400) -/

def Node.devId (s : Node) : Nat := 0x0E031000 + put s.fuses.hbmStacks 4 4

/-- `FAB_DIGEST`: bytes 0-15. -/
def Node.digest (s : Node) : Nat :=
  let pel := s.reg .pelCfg - (if bitAt (s.reg .pelCfg) 7 then 128 else 0)
  let vals := [0x0E031000, pel] ++ (List.range 5).map (s.reg .pelCncl)
    ++ [s.reg .tmoCfg, s.reg .linkCfg, s.reg .mrgCfg, s.reg .stoCfg, s.reg .replCfg, s.reg .genCfg, s.reg .scnCfg]
  leNat ((Sha.sha384 (natLe 48 s.dev.measure2 ++ vals.flatMap (natLe 8))).take 16)

/-! ## Shards of a tenant -/

/-- 02 R63: a compaction is no more; its pin is released. -/
def Node.dropCompaction (s : Node) (c : Compaction) (inst : Nat) : Node :=
  let s := { s with index := { s.index with compactions := s.index.compactions.filter (· != c) } }
  if c.pinned then s.unpin ⟨c.shard, inst, c.gen⟩ else s

/-- An instruction that a thread holds faults (06 R184). -/
def Node.faultHeld (s : Node) (n code addr : Nat) : Node :=
  match s.thread n with
  | some t => s.threadFault n t.pc code (s.instrAt t.pc) addr
  | none => s

/-- 13 R411 INDEX_DROP: every generation of a shard becomes unpinnable; those that nothing pins go, and with them their
storage (02 R66). What waited for the shard ends with `PARAM_INDEX`, which faults a thread (07 R200). -/
def Node.dropShard (s : Node) (sh : ShardId) : Node :=
  match s.shard sh with
  | none => s
  | some x =>
    let s := (s.index.compactions.filter fun c => c.shard == sh).foldl (fun s c => s.dropCompaction c x.inst) s
    let gs := (s.index.gens.map fun r => if r.inst == x.inst then
        { r with state := if r.state == 2 || r.state == 3 then 3 else 5, draining := true } else r).filter fun r =>
      !(r.inst == x.inst && (r.pins == 0 || r.state == 5))
    let ends := (s.index.seals.filter fun q => q.shard == sh).flatMap (·.waiters) ++ (s.index.unheld.filter fun u => u.shard == sh).map (·.who)
    let s := { s with
      index := { s.index with
        gens := gs, dropped := s.index.dropped ++ [x], shards := s.index.shards.filter fun x => x.id != sh, seals := s.index.seals.filter fun q => q.shard != sh,
        unheld := s.index.unheld.filter fun u => u.shard != sh
        objs := s.index.objs.map fun (o : StoredObj) => if o.inst == x.inst then
          { o with birth := some (o.birth.getD 0), death := some (o.death.getD (2 ^ 48)) } else o }
      flash := { s.flash with data := s.flash.data.filter fun r => !(r.jtype == 3 && r.key ==
        sh.index.val + 4096 * sh.shard.val + 2 ^ 28 * sh.tid.val) } }
    ends.foldl (fun s w => match w with
      | .item a => s.finish a (done 0x0120)
      | .thread n => s.faultHeld n 0x0120 0) s.dropSaved.freeStorage

def Node.dropShards (s : Node) (tid : Nat) : Node :=
  ((s.index.shards.filter fun x => x.id.tid.val == tid).map (·.id)).foldl Node.dropShard s

/-! ## Tenants (14 R435) -/

def Node.setTen (s : Node) (t : Nat) (x : TenCfg) : Node := { s with sec := { s.sec with ten := KList.put s.sec.ten t x } }

def Node.setKslot (s : Node) (i : Nat) (x : KeySlot) : Node := { s with sec := { s.sec with kslots := KList.put s.sec.kslots i x } }

/-- Step 6: the key, its persisted copy, and the nonce streams. -/
def Node.zeroKey (s : Node) (t : Nat) : Node :=
  { s with sec := { s.sec with kslots := KList.del s.sec.kslots t, persisted := KList.del s.sec.persisted t,
                               nonces := KList.del s.sec.nonces t } }

/-- The value of `CAS_SLOT`'s owner fields. -/
def Node.slotOwner (s : Node) (i : Nat) : Option Nat :=
  let v := s.reg .casSlot i
  if bitAt v 27 then some (if bitAt v 26 then sysOwner else fld v 16 10) else none

/-- 05 R152: a slot is to be unloaded. -/
def Node.startUnload (s : Node) (i : Nat) (a : Option Admitted) : Node :=
  let x := s.slot i
  let s := s.setSlot i { x with state := 3, item := a }
  if x.refs == 0 then s.emptyOut i else s

/-- Steps 1 to 5 of a destruction, as far as they still have an effect. -/
def Node.destroySteps (s : Node) (t : Nat) : Node :=
  let qs := s.validQueues.filter fun q => let c := s.qcfg q; !c.sys && c.tid == t
  let s := qs.foldl Node.disableQueue s
  let s := s.endCtxs (s.ctxsWhere fun _ c => c.owner == t) 0x0102
  let s := ((List.range 64).filter fun i => s.slotOwner i == some t && (s.slot i).state != 0 && (s.slot i).state != 1).foldl
    (fun s i => s.startUnload i none) s
  let s := s.dropWindows fun w => !w.sys && w.tid == t
  let s := (List.range 64).foldl (fun s x =>
    let b := s.reg .expBase x
    if bitAt b 63 && fld b 48 10 == t then s.setReg .expBase x (b % 2 ^ 63) else s) s
  let s := s.dropShards t
  { s with mem := { s.mem with unmaps := s.mem.unmaps ++
      [{ owner := t, regions := (KList.getD s.mem.regions t []).map (·.1), item := none }] } }

/-- The operator clears VALID: the record that destruction is in progress, then the steps. -/
def Node.destroyTenant (s : Node) (t : Nat) : Node :=
  let x := s.ten t
  let s := s.setTen t { x with valid := false }
  ({ s with sec := { s.sec with destroying := KList.put s.sec.destroying t 5 } }).destroySteps t

/-! ## Sessions (14 R455) -/

/-- The sessions that a test names end. -/
def Node.endSessions (s : Node) (p : Session → Bool) : Node :=
  { s with sec := { s.sec with sessions := s.sec.sessions.filter fun x => !p x.2 } }

/-! ## PLDM state sensors (17 R546) -/

/-- A state sensor changes: an event waits, and SMB_ALERT_N goes low. -/
def Node.stateEvent (s : Node) (sensor state : Nat) : Node :=
  if KList.getD s.hif.stateSensors sensor 0 == state then s
  else { s with
    hif := { s.hif with stateSensors := KList.put s.hif.stateSensors sensor state,
                        pldmEvents := s.hif.pldmEvents ++ [(sensor, state)] }
    mgt := { s.mgt with smbAlertN := false } }

/-- Sensor 128: 0 starting, 1 READY, 2 Pewter, 3 saving, 4 throttled (notes/assumptions/29.md). -/
def Node.seeNode (s : Node) : Node :=
  s.stateEvent 128 (if s.dev.pewter then 2 else if s.mgt.pfPhase != .idle then 3 else if s.power.throttle then 4
    else if s.dev.ready then 1 else 0)

end Sys2Proof.Machine
end

