-- ==== Sys2Proof/Machine/Derail.lean ====
section
/-! DEFINITION. Moves between tiers (09 R280-R290, R296) and the retirement of units (16 R509, R514). -/

namespace Sys2Proof.Machine

/-! ## Where a region may go -/

/-- 09 R285: one more system region in a tier keeps the quotas' sum within its capacity. -/
def Node.sysFits (s : Node) (tier : Nat) : Bool :=
  !s.fixedSlot || decide (s.quotaSum tier + s.tierUse sysOwner tier + 1 ≤ s.tierCap tier)

/-- A TID's quota, or the system's bound, leaves room for one more region in a tier. -/
def Node.quotaRoom (s : Node) (owner tier : Nat) : Bool :=
  if owner == sysOwner then s.sysFits tier else decide (s.tierUse owner tier < s.quota owner tier)

/-- Room for a region in a tile's area. -/
def Node.tileRoom (s : Node) (t : Nat) : Bool := !bitAt s.power.tileRet t && decide (s.tileUse t < s.tileLimit t)

/-- Quota and free capacity for one region of an owner in a tier; in TILE, in the tile named, and for the copies of a
replicated region in every other (09 R277). -/
def Node.hasRoom (s : Node) (owner tier tile : Nat) (repl : Bool := false) : Bool :=
  s.quotaRoom owner tier && decide (0 < s.tierFree tier)
  && (tier != 1 || (s.tileRoom tile && (!repl || (List.range 8).all fun t => bitAt s.power.tileRet t || s.tileRoom t)))

/-- 09 R282: a tier is open. -/
def Node.tierOpen (s : Node) (owner tier : Nat) : Bool :=
  (owner == sysOwner || s.quota owner tier != 0) && (tier != 3 || s.mem.grants != [])

/-- The next open tier above one. -/
def Node.tierAbove (s : Node) (owner tier : Nat) : Option Nat :=
  ([3, 2, 1].filter fun t => decide (t < tier)).find? (s.tierOpen owner)

/-- The first open tier below one that has room. -/
def Node.tierBelow (s : Node) (owner tier : Nat) : Option Nat :=
  ([2, 3, 4].filter fun t => decide (tier < t)).find? fun t => s.tierOpen owner t && s.hasRoom owner t 0

/-! ## Moves -/

/-- A region that the derailleur may move. -/
def Region.movable (r : Region) : Bool := !bitAt r.rfl 2 && !bitAt r.rfl 3 && !bitAt r.rfl 5

/-- 14 Table 14.10: in fixed-slot mode the 64 move slots are divided equally among the assigned TIDs. -/
def Node.moveSlot (s : Node) (owner : Nat) : Bool :=
  !s.fixedSlot || decide (1024 ≤ owner)
  || decide ((s.mem.moves.filter fun p => p.2.owner == owner).length < 64 / max 1 s.assigned.length)

/-- 09 R286, R287: a move starts: its destination is reserved, and `MOVING` is set. -/
def Node.startMove (s : Node) (owner region tier tile : Nat) : Node :=
  match s.region owner region, KList.firstFree s.mem.moves 64 0 with
  | some r, some m =>
    if r.movable && decide (m < 64) && s.moveSlot owner && s.hasRoom owner tier tile (bitAt r.rfl 1) then
      let loc := s.freeLoc tier tile
      let mv : Move := { owner := owner, region := region, tier := tier, loc := loc, atDst := 0, stopped := none, rehash := false }
      ({ s with mem := { s.mem with moves := KList.put s.mem.moves m mv } }).setRegion owner region
        { r with rfl := r.rfl ||| 8, move := m }
    else s
  | _, _ => s

/-- A list placed in an order. -/
def insertBy {α : Type} (le : α → α → Bool) (x : α) : List α → List α
  | [] => [x]
  | y :: t => if le x y then x :: y :: t else y :: insertBy le x t

def sortBy {α : Type} (le : α → α → Bool) (l : List α) : List α := l.foldr (insertBy le) []

/-- Coldest first, then by owner and region. -/
def colder (a b : Nat × Nat × Region) : Bool :=
  decide (a.2.2.heat < b.2.2.heat)
  || (a.2.2.heat == b.2.2.heat && (decide (a.1 < b.1) || (a.1 == b.1 && decide (a.2.1 ≤ b.2.1))))

/-- Regions that pass a test and may be moved, coldest first. -/
def Node.coldest (s : Node) (p : Nat → Nat → Region → Bool) : List (Nat × Nat × Region) :=
  sortBy colder (s.allRegions.filter fun r => r.2.2.movable && p r.1 r.2.1 r.2.2)

/-- One region demoted. -/
def Node.demote (s : Node) (owner region : Nat) : Node :=
  match s.region owner region with
  | some r => match s.tierBelow owner r.tier with
    | some t => s.startMove owner region t 0
    | none => s
  | none => s

def Node.demoteAll (s : Node) (l : List (Nat × Nat × Region)) : Node := l.foldl (fun s r => s.demote r.1 r.2.1) s

/-- The first `k` regions of a list that can be demoted. -/
def Node.demoteUpTo (s : Node) : Nat → List (Nat × Nat × Region) → Node
  | 0, _ => s
  | _, [] => s
  | k + 1, r :: l =>
    let s' := s.demote r.1 r.2.1
    if s'.mem.moves.length = s.mem.moves.length then s.demoteUpTo (k + 1) l else s'.demoteUpTo k l

/-- Regions that leave a tier by moves that run. -/
def Node.leaving (s : Node) (owner tier : Nat) : Nat :=
  ((KList.getD s.mem.regions owner []).filter fun r => r.2.tier == tier && bitAt r.2.rfl 3).length

/-- 09 R296: a TID's coldest regions are demoted until use fits its quota. -/
def Node.demoteQuota (s : Node) (owner : Nat) : Node :=
  [1, 2, 3].foldl (fun s t =>
    let excess := s.tierUse owner t - s.leaving owner t - s.quota owner t
    s.demoteUpTo excess (s.coldest fun o _ r => o == owner && r.tier == t)) s

/-- 09 R276: TILE regions are demoted from each tile until use fits. -/
def Node.demoteTiles (s : Node) : Node :=
  (List.range 8).foldl (fun s t =>
    let limit := if bitAt s.power.tileRet t then 0 else s.tierMb / 2
    let here := s.coldest fun _ _ r => r.tier == 1 && s.inTile r t
    let going := (s.allRegions.filter fun r => r.2.2.tier == 1 && bitAt r.2.2.rfl 3 && s.inTile r.2.2 t).length
    s.demoteUpTo (s.tileUse t - going - limit) here) s

/-- 09 R280: regions in frames that the layout has lost are demoted, coldest first. Once none is left, every region in HBM
is to be moved to the new layout. -/
def Node.demoteFrames (s : Node) : Node :=
  let s := s.demoteAll (s.coldest fun _ _ r => r.tier == 2 && decide (s.hbmFrames ≤ r.loc))
  let left := s.allRegions.any fun r => r.2.2.tier == 2 && decide (s.hbmFrames ≤ r.2.2.loc)
  let todo := if left then s.mem.rehashLeft else (s.allRegions.filter fun r => r.2.2.tier == 2).map fun r => (r.1, r.2.1)
  { s with mem := { s.mem with hbmRehash := left, rehashLeft := todo } }

/-- 09 R280: the moves to the new layout that move records allow; each is of a whole frame. -/
def Node.startRehash (s : Node) : Node :=
  s.mem.rehashLeft.foldl (fun s p =>
    let rest := s.mem.rehashLeft.filter (· != p)
    match s.region p.1 p.2, KList.firstFree s.mem.moves 64 0 with
    | some r, some m =>
      if r.tier == 2 && !bitAt r.rfl 3 && decide (m < 64) && s.moveSlot p.1 then
        let mv : Move := { owner := p.1, region := p.2, tier := 2, loc := r.loc, atDst := 0, stopped := none, rehash := true }
        ({ s with mem := { s.mem with moves := KList.put s.mem.moves m mv, rehashLeft := rest } }).setRegion p.1 p.2
          { r with rfl := r.rfl ||| 8, move := m }
      else if r.tier == 2 then s
      else { s with mem := { s.mem with rehashLeft := rest } }
    | none, _ => { s with mem := { s.mem with rehashLeft := rest } }
    | _, none => s) s

/-- What must leave its place, at each epoch end. -/
def Node.evacuate (s : Node) : Node :=
  let s := s.demoteTiles
  if s.mem.hbmRehash then s.demoteFrames else s.startRehash

/-! ## HBM channels (09 R278, R280; 08 R248) -/

/-- 09 R278: the channel of a byte of a frame. -/
def Node.channelOf (s : Node) (frame off : Nat) : Nat :=
  let live := s.liveChannels
  let n := max 1 live.length
  let line := frame * 8192 + off / 256
  live.getD ((line % n + crc32c (natLe 8 (line / n)) % n) % n) 0

/-- 09 R280: whether a line of a frame lay in a channel that has been retired since the layout that the re-hash leaves. -/
def Node.inRetired (s : Node) (frame off : Nat) : Bool :=
  bitAt s.mem.hbmRet (({ s with mem := { s.mem with hbmRet := s.mem.rehashFrom } } : Node).channelOf frame off)

/-- 09 R280: whether FLS holds a persisted copy of a line: of an object that a seal has written. -/
def Node.hasCopy (s : Node) (owner addr n : Nat) : Bool :=
  s.index.objs.any fun o => o.owner == owner && o.birth.isSome && overlaps addr n o.addr o.size

/-- 09 R280: the lines of a frame that could not be read from a retired channel are poisoned, but for those with a persisted
copy. Which could not be read is free. -/
def Node.loseLines (s : Node) (owner region frame : Nat) : Node :=
  let f := s.free
  let base := region * 2097152
  let lost := (List.range 8192).filter fun j => bitAt f.1 j && s.inRetired frame (256 * j) && !s.hasCopy owner (base + 256 * j) 256
  { f.2 with mem := { f.2.mem with poison := lost.foldl (fun p j =>
      (List.range 4).foldl (fun p i => KList.put p (memKey owner (base + 256 * j) / 64 + i) 0x0501) p) f.2.mem.poison } }

/-- 09 R280, 08 R248: a channel and its row engine retire. -/
def Node.retireChannel (s : Node) (c : Nat) : Node :=
  if bitAt s.mem.hbmRet c || !s.populated c then s
  else
    let busy := s.store.engines.any fun e => e.2 != []
    let s := { s with mem := { s.mem with
      rehashFrom := if s.mem.hbmRehash || s.mem.rehashLeft != [] then s.mem.rehashFrom else s.mem.hbmRet
      hbmRet := s.mem.hbmRet ||| 2 ^ c, hbmRehash := true } }
    let s := { s with store := { s.store with remap := s.store.remap || busy } }
    s.demoteFrames

/-- 16 Table 16.4: an uncorrectable error of a channel; the sixteenth within 24 h retires it. -/
def Node.channelError (s : Node) (c : Nat) : Node :=
  let day := 24 * 3600 * 1000000000
  let l := s.now :: (KList.getD s.mem.hbmErr c []).filter fun t => decide (s.now < t + day)
  let s := { s with mem := { s.mem with hbmErr := KList.put s.mem.hbmErr c l } }
  if 16 ≤ l.length then s.retireChannel c else s

/-! ## Spokes, hubs, tiles (16 R509, R514) -/

/-- A tile retires: its hubs, its cassette, its TILE area. -/
def Node.retireTile (s : Node) (t : Nat) : Node :=
  if bitAt s.power.tileRet t then s
  else
    let s := { s with power := { s.power with tileRet := s.power.tileRet ||| 2 ^ t, hubRet := s.power.hubRet ||| (15 * 2 ^ (4 * t)) } }
    s.demoteTiles

def Node.retireHub (s : Node) (h : Nat) : Node :=
  let s := { s with power := { s.power with hubRet := s.power.hubRet ||| 2 ^ h } }
  if fld s.power.hubRet (4 * (h / 4)) 4 == 15 then s.retireTile (h / 4) else s

def Node.retireSpoke (s : Node) (h sp : Nat) : Node :=
  let m := KList.getD s.spokes.retired h 0 ||| 2 ^ sp
  let s := { s with spokes := { s.spokes with retired := KList.put s.spokes.retired h m } }
  if 16 ≤ popcount 64 m then s.retireHub h else s

/-- 16 R512, R513: a suspect report: its entries and records. `unit` is the failed unit. -/
def Node.suspect (s : Node) (unit start : Nat) (es : List GangEntry) (wrapped : Bool) (earliest : Nat) : Node :=
  let n := s.log.nextReport % 4
  let rep : Suspect := { start := start, finish := s.now, wrapped := wrapped, earliest := earliest, entries := es }
  let full := s.log.held == 15
  let s := { s with log := { s.log with
    reports := KList.put s.log.reports n rep, held := s.log.held ||| 2 ^ n, nextReport := n + 1,
    suspOvf := s.log.suspOvf || full } }
  let detail := natLe 1 n ++ natLe 1 (b2n wrapped) ++ natLe 2 es.length ++ natLe 4 0 ++ natLe 8 start ++ natLe 8 earliest
  let s := s.logEvent { code := 0x0502, unit := unit, tid := noTid, all := false, count := 1, detail := detail }
  let tids := (es.map (·.owner)).dedup.filter fun o => decide (o < 1024)
  let s := tids.foldl (fun s o =>
    let n := (es.filter fun e => e.owner == o).length
    s.logEvent { code := 0x0503, unit := unit, tid := o, all := false, count := n, detail := [] }) s
  s.service

/-- The entries of a hub's ring that lie in a window, and the earliest start that the ring retains. -/
def Node.gangsIn (s : Node) (hub start : Nat) (p : GangEntry → Bool) : List GangEntry :=
  (KList.getD s.log.gangRings hub []).filter fun e => p e && (e.tEnd == 0 || decide (start ≤ e.tEnd))

/-- Whether a hub's ring has wrapped within the window, and the earliest `T_START` that it retains. -/
def Node.ringWrap (s : Node) (hub start : Nat) : Bool × Nat :=
  let r := KList.getD s.log.gangRings hub []
  let e := (r.map (·.tStart)).foldl min (2 ^ 64 - 1)
  let e := if r.isEmpty then 0 else e
  (decide (4096 < KList.getD s.log.gangWrote hub 0) && decide (start < e), e)

end Sys2Proof.Machine
end

