-- ==== Sys2Proof/Machine/RegOps.lean ====
section
/-! DEFINITION. Register reads and writes (00 R8-R10, R556; 17 R532-R537): what a register reads as, which writes are
in range, what a write does. -/

namespace Sys2Proof.Machine

def emptyPort : Port :=
  { state := 0, since := 0, retryAt := none, nv := false, nbr := 0, alt := false, annTime := 0, rx := 0, tx := 0, rxBad := 0,
    txBad := 0, rxSpared := false, txSpared := false, rxSwitch := [], txSwitch := [], rxCount := 0, laser := [],
    laserLow := 0, spareThr := 64, rekeyExp := 39, txKey := [], rxKeys := [], newKeys := none, syncNum := 0, xchk := 250, keyPhase := false, rxPhase := false, rekey := none, rxRekey := none, cnt := [], txSeq := 0, fctr := 0,
    credits := 0, buffer := [], waiting := [], timer := none, replays := 0, e := 0, accepted := 0, ackDue := none,
    lastAck := none, replaySent := false, owed := 0, exNum := 0, t1 := 0, t2 := 0, t3 := 0, diverged := 0, digestSeen := [],
    certNext := 0, certOk := false, keyOk := false, neighOk := false, ackNow := false }

def Node.port (s : Node) (p : Nat) : Port := KList.getD s.links.ports p emptyPort

def emptyCas : Cassette :=
  { queue := [], active := none, staged := none, batch := none, rest := [], copies := [], scales := [], shifts := 0, runs := 0, katAt := 0, window := 0 }

def Node.tile (s : Node) (n : Nat) : Cassette := KList.getD s.cas.tiles n emptyCas

def noMember : Member := { incarn := 0, diverged := false, func := 0, state := 0, nwatch := 0 }

def Node.member (s : Node) (n : Nat) : Member := KList.getD s.peloton.members n noMember

/-- Table 16.2: a gang ring entry as 32 bytes. -/
def gangBytes (e : GangEntry) : Bytes :=
  natLe 8 e.tStart ++ natLe 8 e.tEnd ++ natLe 8 e.spokes ++ natLe 4 e.cookie
  ++ natLe 4 (e.ctx % 2 ^ 15 + (if e.owner == sysOwner then 2 ^ 25 else e.owner % 1024 * 2 ^ 15))

/-! ## Flash figures (10) -/

end Sys2Proof.Machine

namespace Sys2Proof

open Sys2Proof.Machine

def Population.blocksPerDie (p : Population) : Nat := p.pagesPerDie / max 1 p.pagesPerBlock
def Population.bits (p : Population) : Nat := if p.qlc then 4 else 3

/-- SLC blocks of the static areas on each die: the journal areas, the system area, the seal area (10 Table 10.3). -/
def Population.staticBlocks (p : Population) : Nat := 6 + ceilDiv (p.blocksPerDie * p.bits) 256

/-- 10 R332: the save bound, in nanoseconds. -/
def Population.saveNs (p : Population) (dies : Nat) : Nat :=
  let tx := 18256 * 1000 / max 1 p.rateMts
  let n := ceilDiv 1094 dies
  100000 + dies / 16 * p.planes * tx + max (ceilDiv n p.planes * p.tProgUs * 1000) (n * (dies / 16) * tx) + tx + p.tProgUs * 1000

end Sys2Proof

namespace Sys2Proof.Machine

def Node.retiredDies (s : Node) : Nat := popcount 256 s.flash.dieRet
def Node.liveDies (s : Node) : Nat := s.flash.dies - s.retiredDies

/-- Blocks outside the FREE pool, and all blocks. -/
def Node.usedBlocks (s : Node) : Nat := (s.flash.blocks.filter fun b => b.2.pool != 0).length
def Node.allBlocks (s : Node) : Nat := match s.flash.pop with
  | some p => s.flash.dies * p.blocksPerDie
  | none => 0

/-- Blocks that are not listed are FREE, but for the static ones. -/
def Node.freeBlkCount (s : Node) : Nat := match s.flash.pop with
  | some p => s.allBlocks - s.usedBlocks - s.flash.dies * p.staticBlocks
  | none => 0

def jrecSize (r : JRec) : Nat := 32 + ceilDiv r.payload.length 32 * 32
def Node.dataBytes (s : Node) : Nat := sumN (s.flash.data.map jrecSize)
def Node.mapBytes (s : Node) : Nat := sumN (s.flash.maps.map jrecSize)

/-- 10 R320: spare blocks now, beyond what the namespace, the parity and the static areas need. -/
def Node.spareNow (s : Node) : Nat :=
  s.flash.spare0 - (s.flash.blocks.filter fun b => b.2.pool == 4).length
    - s.retiredDies * (match s.flash.pop with
      | some p => p.blocksPerDie
      | none => 0)
def Node.sparePct (s : Node) : Nat := if s.flash.spare0 = 0 then 0 else 100 * s.spareNow / s.flash.spare0

def Node.erasesSum (s : Node) : Nat := sumN ((s.flash.blocks.filter fun b => b.2.pool == 0 || b.2.pool == 2).map fun b => b.2.erases)
def Node.erasesMean (s : Node) : Nat := s.erasesSum / max 1 (s.allBlocks)
def Node.wearPct (s : Node) : Nat := match s.flash.pop with
  | some p => min 255 (100 * s.erasesSum / max 1 (s.allBlocks) / max 1 p.peRated)
  | none => 0

/-- 10 R313: the buffer limit in blocks. -/
def Node.bufLimit (s : Node) : Nat := match s.flash.pop with
  | some p => min (fld (s.reg .flsCfg) 0 8 * s.allBlocks / 100) (s.freeBlkCount / p.bits)
  | none => 0

/-- 10 Table 10.8. -/
def Node.healthPage (s : Node) : Bytes :=
  let h := s.flash.health
  let n := h.recent.length
  let avg := if n = 0 then 0 else fDiv .f32 (fOfInt .f32 (sumN (h.recent.map (·.1)) : Nat)) (fOfInt .f32 (n : Nat))
  let rr := if n = 0 then 0 else fDiv .f32 (fOfInt .f32 ((h.recent.filter (·.2)).length : Nat)) (fOfInt .f32 (n : Nat))
  let warn := h.warn ||| ((if s.sparePct ≤ 10 then 4 else 0) + (if s.flash.readOnly then 8 else 0) + (if 0 < s.retiredDies then 32 else 0))
  let b := natLe 4 0x48544C48 ++ natLe 2 1 ++ natLe 1 s.flash.state ++ natLe 1 warn ++ natLe 1 s.wearPct ++ natLe 1 s.sparePct
    ++ natLe 2 s.liveDies ++ natLe 2 s.retiredDies ++ natLe 2 0
    ++ natLe 4 ((s.flash.pop.map (·.peRated)).getD 0) ++ natLe 4 (maxN (s.flash.blocks.map fun b => b.2.erases))
    ++ natLe 4 s.erasesMean ++ natLe 4 (s.flash.blocks.filter fun b => b.2.pool == 4).length
    ++ natLe 8 h.unitsIn ++ natLe 8 h.unitsMedia ++ natLe 8 h.cwRead ++ natLe 8 h.cwRetry ++ natLe 8 h.rebuilds
    ++ natLe 8 h.uncorr ++ natLe 8 h.refreshed ++ natLe 8 h.wlMoves ++ natLe 4 avg ++ natLe 4 rr ++ natLe 4 s.bufLimit
    ++ natLe 4 (1000 * s.freeBlkCount / max 1 s.allBlocks) ++ natLe 8 h.saves ++ natLe 8 h.saveTime ++ natLe 2 h.saveUs
    ++ natLe 2 h.saveStatus ++ natLe 4 (s.flash.nu / 128) ++ List.replicate 116 0
  b ++ natLe 4 (crc32c b)

/-! ## What registers read as -/

def accErrVal (a : AccErr) : Nat :=
  put a.code 48 16 + put a.func 37 11 + put (b2n a.wr) 36 1 + put (b2n a.valid) 35 1 + put (b2n a.ovf) 34 1 + put a.offset 0 26

def noAccErr : AccErr := { code := 0, func := 0, wr := false, valid := false, ovf := false, offset := 0 }

/-- Element `i` of a word window over bytes. -/
def wordAt (b : Bytes) (i : Nat) : Nat := getLe b (8 * i) 8

def Node.queueStat (s : Node) (q : Nat) : Nat :=
  let x := s.queue q
  put x.head 48 16 + put x.tail 32 16 + put x.epoch 24 8 + put x.rej 16 8 + put x.last 0 16

def Node.tuse0 (s : Node) (t : Nat) : Nat := put (s.tierUse t 3) 32 25 + put (s.tierUse t 1) 24 8 + put (s.tierUse t 2) 0 17

def Node.cliStat (s : Node) (c : Nat) : Nat :=
  let x := s.client c
  put (s.locksOf c).length 48 16 + put x.epoch 32 16 + put x.load 8 4 + put (b2n x.live) 0 1

def Node.threadsOf (s : Node) (hub : Nat) : List (Nat × Thread) := s.spokes.threads.filter fun p => thrHub p.1 == hub

def Node.spokeRet (s : Node) (hub : Nat) : Nat := KList.getD s.spokes.retired hub 0

/-- 06 R166: a spoke has a thread that is free. -/
def Node.spokeFree (s : Node) (hub sp : Nat) (pages : Nat) : Bool :=
  let ts := (s.threadsOf hub).filter fun p => thrSpoke p.1 == sp
  !bitAt (s.spokeRet hub) sp && decide (ts.length < 4) && decide (sumN (ts.map fun p => p.2.lsize) + pages ≤ 16)

def Node.hubOcc (s : Node) (hub : Nat) : Nat :=
  let ts := s.threadsOf hub
  let full := ((List.range 64).filter fun sp => !s.spokeFree hub sp 1).length
  put ts.length 32 9 + put ((ts.map fun p => p.2.ctx).dedup.length) 16 9 + put full 0 7

/-- 16 R512: the entries of a report; the tenant's own. -/
def Node.report (s : Node) (r : Nat) : List GangEntry := match KList.find? s.log.reports r with
  | some x => x.entries
  | none => []

def Node.logRecord (s : Node) (i : Nat) : Bytes :=
  let d := (s.log.head + 2 ^ 32 - i) % 2 ^ 32
  match KList.find? s.log.ring i with
  | some r => if 1 ≤ d ∧ d ≤ 20480 then logBytes r else []
  | none => []

/-- The RO, RW and W1C fields of a BAR0 register as it reads; WO and reserved fields read 0. -/
def Node.regValue (s : Node) (n : RegName) (i : Nat) : Nat :=
  let rw := s.reg n i
  match n with
  | .devId => s.devId
  | .devStatus => put (b2n s.dev.ready) 31 1 + put (b2n s.dev.pewter) 30 1 + put (b2n s.dev.cfgDefaulted) 29 1 + put s.dev.slot 28 1
      + put (b2n s.dev.slotFallback) 27 1 + put (b2n s.dev.bench) 26 1 + put s.dev.func0 24 2 + put s.dev.strap 20 4 + put s.qspi.fails 18 2
  | .rstCause => put s.mgt.merged 16 16 + put s.mgt.causeTile 8 3 + put s.mgt.causeLevel 6 2 + put s.mgt.causeSource 0 4
  | .rstMap => put (b2n s.fuses.rstProg) 32 1 + s.rstMap
  | .rstRange => rstMax * 2 ^ 32 + rstMin
  | .strapOvr => put (b2n s.qspi.ovrValid) 4 1 + put s.qspi.ovrCode 0 4
  | .pfStat => put s.mgt.saves 32 32 + put s.mgt.saveUs 16 16 + put (b2n s.mgt.incomplete) 1 1 + put (b2n s.mgt.pfActive) 0 1
  | .time => s.mgt.timeNs
  | .timeStat => put (b2n s.mgt.timeHold.isSome) 1 1 + put (b2n s.mgt.timeValid) 0 1
  | .pwrStat => put s.power.hubWd 32 32 + put s.power.nodeW 0 10
  | .concRedCnt => s.power.concRed
  | .therm => rw + put (b2n s.power.throttle) 16 1
  | .mboxCtl => put s.mbox.status 48 16 + put (b2n s.mbox.busy) 47 1
  | .logStat => put s.log.unread 32 32 + put s.log.held 4 4 + put (b2n s.log.suspOvf) 3 1 + put (b2n s.log.tsus) 2 1
      + put (b2n (decide (17920 ≤ s.log.unread))) 1 1 + put (b2n (decide (20480 ≤ s.log.unread))) 0 1
  | .logRing => put s.log.head 32 32 + put s.log.tail 0 32
  | .logWin => wordAt (s.logRecord (s.reg .logRdSel)) i
  | .ffTime => s.log.ffTime
  | .ffInfo => match s.log.ffInfo with
      | some e => put e.code 48 16 + put e.tid 32 16 + put e.unit 0 32
      | none => 0
  | .ffCtl => put s.log.later 32 32
  | .clsCnt => KList.getD s.log.cls i 0
  | .dropCnt => s.log.drop
  | .coalCnt => s.log.coal
  | .eccCnt => s.log.ecc
  | .snapStat => put s.snap.seq1 48 16 + put s.snap.seq0 32 16 + put s.snap.late 24 8 + put s.snap.armed.length 0 3
  | .snapData =>
      let sel := s.reg .snapSel
      KList.getD (if bitAt sel 63 then s.snap.bank1 else s.snap.bank0) (fld sel 3 23 * 8) 0
  | .suspWin =>
      let sel := s.reg .suspSel
      wordAt (((s.report (fld sel 12 2))[fld sel 0 12]?).elim [] gangBytes) i
  | .tenCfg =>
      let x := s.ten i
      put (b2n x.valid) 63 1 + put (b2n x.kpersist) 62 1 + put (b2n x.ksrc) 61 1 + put (b2n x.consent) 60 1 + put x.deadline 0 32
  | .kslot => let x := s.kslot i; (if x.state == 0 then 0 else x.keyId / 4 * 4) + x.state
  | .roleStat => put s.sec.sessions.length 3 4 + put (b2n (s.roleAnywhere .maker)) 2 1 + put (b2n (s.roleAnywhere .installer)) 1 1
      + put (b2n (s.roleAnywhere .operator)) 0 1
  | .dbgStat => put (s.fuses.anchors.length - 1) 6 2 + put (b2n s.fuses.rma) 5 1 + put (b2n s.sec.token.isSome) 4 1 + put s.fuses.dbgPol 0 2
  | .audSeq => s.sec.audSeq
  | .audWin => wordAt ((KList.find? s.sec.audit (s.reg .audSel)).elim [] auditBytes) i
  | .accErr => accErrVal (KList.getD s.hif.acc 0 noAccErr)
  | .linkStat => put (b2n s.hif.linkCxl) 15 1 + put (b2n s.hif.linkFlit) 14 1 + put s.hif.linkWidth 9 5 + put s.hif.linkSpeed 6 3 + put (b2n s.hif.linkUp) 0 1
  | .gpioData =>
    -- A pin that this node drives is sampled as it drives it (DEDUCED, notes/assumptions/50.md).
    put ((List.range 8).foldl (fun a g =>
      let m := fld (s.reg .gpioCfg) (2 * g) 2
      let v := if m == 1 then bitAt rw g else if m == 2 then bitAt rw g && bitAt s.hif.gpioIn g else bitAt s.hif.gpioIn g
      a + b2n v * 2 ^ g) 0) 8 8 + rw
  | .qstat | .qDbStat => s.queueStat i
  | .syncStat => match s.sync i with
      | some x => put 1 63 1 + put x.type 61 2 + put (b2n (x.owner == sysOwner)) 60 1 + put (if x.owner == sysOwner then 0 else x.owner) 50 10
          + put x.waiters.length 32 14
      | none => 0
  | .syncVal => match s.sync i with
      | some x => if x.type == 2 then put x.parts 32 32 + put x.value 0 32 else x.value % 2 ^ 64
      | none => 0
  | .genStat => put (s.index.seals.filter fun q => !q.closed).length 32 11 + put (s.index.gens.length + s.index.shards.length) 0 17
  | .genSealCnt => s.index.sealCnt
  | .genDelMissCnt => s.index.delMiss
  | .scnNanCnt => KList.getD s.index.nan i 0
  | .shpTok => s.tenTok i
  | .clsTok => s.clsTok i
  | .pfaultCnt => KList.getD s.spokes.pfaultCnt i 0
  | .pfaultLast => KList.getD s.spokes.pfaultLast i 0
  | .selStat => put s.sel.sessions.length 32 13 + put (sumN ((List.range 32).map fun h => 64 - sumN (s.freeBlocks h))) 0 12
  | .bpCnt => s.sel.bp
  | .blkWaitCnt => s.sel.blkWait
  | .msWaitCnt => s.sel.msWaitCnt
  | .selMissCnt => s.sel.miss
  | .casStat =>
      let x := s.tile i
      put x.queue.length 32 9 + put (b2n x.staged.isSome) 14 1 + put ((x.staged.map (·.slot)).getD 0) 8 6 + put (b2n x.active.isSome) 6 1
        + put ((x.active.map (·.slot)).getD 0) 0 6
  | .casShiftCnt => (s.tile i).shifts
  | .casRunCnt => (s.tile i).runs
  | .casSlot =>
      let x := s.slot i
      put x.refs 48 16 + put x.area 32 16 + rw + put (if x.state == 0 then 0 else fld (getLe x.image 6 1) 0 3) 4 3 + put x.state 0 3
  | .drlStat => put (s.tierFree 2) 32 17 + put s.liveChannels.length 16 8 + put (s.mem.moves.filter fun m => decide (m.1 < 64)).length 0 7
  | .moveCnt => s.mem.moveCnt
  | .hbmRet => fld s.mem.hbmRet (64 * i) 64
  | .tuse0 => s.tuse0 i
  | .tuse1 => put (s.tierUse i 4) 0 25
  | .stallCnt => KList.getD s.mem.stalls i 0
  | .tmoCnt => KList.getD s.mem.tmos i 0
  | .stoStat => put s.store.nload 20 4 + put s.store.locks.length 0 17
  | .leaseLapseCnt => s.store.lapses
  | .cliStat => s.cliStat i
  | .flsStat => put (ceilDiv s.mapBytes 1024) 50 14 + put (ceilDiv s.dataBytes 1024) 36 14 + put (100 * s.freeBlkCount / max 1 s.allBlocks) 24 8
      + put s.liveDies 8 9 + put s.flash.state 0 3
  | .flsPop => match s.flash.pop with
      | some p => put (p.saveNs s.flash.dies / 1000) 48 16 + put p.tProgUs 32 16 + put (if p.qlc then 2 else 1) 28 2 + put p.planes 24 3
          + put p.cePerCh 16 5 + put s.flash.dies 0 9
      | none => 0
  | .dieRet => fld s.flash.dieRet (64 * i) 64
  | .healthWin => wordAt s.healthPage i
  | .portStat =>
      let x := s.port i
      put (b2n x.nv) 63 1 + put x.nbr 48 15 + put (b2n x.alt) 47 1 + put x.rx 32 9 + put x.tx 16 9 + put (b2n x.keyPhase) 8 1 + put x.state 0 3
  | .laserPwr => sumN (((s.port i).laser.zip (List.range 9)).map fun p => put p.1 (7 * p.2) 7)
  | .fabTimeStat => put s.links.offset 32 32 + put s.links.delay 16 16 + put (if bitAt (s.reg .timeCfg) 5 then 3 else s.links.tstate) 0 2
  | .digest => fld s.digest (64 * i) 64
  | .pelStat => put s.peloton.incarn 48 16 + put (b2n s.peloton.leader.isSome) 47 1 + put (s.peloton.leader.getD 0) 32 15 + put s.peloton.state 0 4
  | .membData =>
      let x := s.member (s.reg .membSel)
      put x.incarn 48 16 + put (b2n x.diverged) 36 1 + put x.func 34 2 + put x.state 30 4 + put x.nwatch 25 5
  | .ledgerHead => s.fabric.ledgerNext % 2 ^ 32
  | .ledgerOvfCnt => s.fabric.ledgerOvf
  | .staleCnt => s.fabric.stale
  | .ledgerWin => wordAt (KList.getD s.fabric.ledger (i / 8) []) (i % 8)
  | .hubOcc | .spkRet | .portCnt => 0
  | .rstProg | .rstReq | .timeSet | .snapArm | .qDb => 0
  | _ => rw

/-- A register found in BAR0, with the arrays of arrays that an offset selects. -/
def Node.regValueAt (s : Node) (a : RegAt) : Nat :=
  match a.row.name with
  | .hubOcc => s.hubOcc (4 * ((a.off - 0x300100) / 0x20000) + (a.off - 0x300100) % 0x20000 / 8)
  | .spkRet => s.spokeRet (4 * ((a.off - 0x300200) / 0x20000) + (a.off - 0x300200) % 0x20000 / 8)
  | .portCnt => KList.getD (s.port ((a.off - 0x700100) / 0x10000)).cnt ((a.off - 0x700100) % 0x10000 / 8) 0
  | n => s.regValue n a.idx

/-- The queue behind page p of VF t's window (17 R532). -/
def Node.vfQueue (s : Node) (t p : Nat) : Option Nat :=
  s.validQueues.find? fun q => let c := s.qcfg q; c.func == t + 1 && c.vpage == p

/-- 17 R544: the entries of a TID in a report. -/
def Node.tenReport (s : Node) (t r : Nat) : List GangEntry := (s.report r).filter fun e => e.owner == t

/-- A register of VF t's window as it reads. -/
def Node.vfValue (s : Node) (t : Nat) (a : RegAt) : Nat :=
  match a.row.name with
  | .qDbStat => (s.vfQueue t a.idx).elim 0 s.queueStat
  | .tspId => put (b2n (s.ten t).valid) 63 1 + put (b2n (s.ten t).consent) 62 1 + put (s.kslot t).state 60 2 + put (b2n s.fixedSlot) 59 1 + t
  | .tspAccErr => accErrVal (KList.getD s.hif.acc (t + 1) noAccErr)
  | .tspNan => s.regValue .scnNanCnt t
  | .tspTmo => s.regValue .tmoCnt t
  | .tspStall => s.regValue .stallCnt (4 * t + a.idx)
  | .tspTuse0 => s.tuse0 t
  | .tspTuse1 => s.regValue .tuse1 t
  | .tspCli => ((s.localClients (some (t + 1))).head?).elim 0 s.cliStat
  | .tspLogCnt => (KList.getD s.log.tenant t (0, [])).1
  | .tspLogSel | .tspLdgSel | .tspSuspSel => s.vfReg t a.off
  | .tspLogWin =>
      let l := KList.getD s.log.tenant t (0, [])
      let i := s.vfReg t 0xF060
      if i < l.1 then wordAt ((l.2[l.1 - 1 - i]?).elim [] logBytes) a.idx else 0
  | .tspLdgWin =>
      let i := s.vfReg t 0xF068
      let b := KList.getD s.fabric.ledger (i % 4096) []
      if getLe b 8 4 == i && (s.job (getLe b 14 2)).any fun j => j.owner == t then wordAt b a.idx else 0
  | .tspSuspWin =>
      let sel := s.vfReg t 0xF070
      wordAt (((s.tenReport t (fld sel 12 2))[fld sel 0 12]?).elim [] gangBytes) a.idx
  | _ => 0

/-! ## Writes out of range -/

def inR (v lo hi : Nat) : Bool := decide (lo ≤ v ∧ v ≤ hi)

/-- The first failing check of a list. -/
def firstBad : List (Bool × Nat) → Nat
  | [] => 0
  | (ok, c) :: t => if ok then firstBad t else c

/-- All of a register's checks have one code. -/
def okElse (code : Nat) (b : Bool) : Nat := if b then 0 else code

/-- The regions of a range are all mapped. -/
def Node.allMapped (s : Node) (owner first n : Nat) : Bool :=
  let rs := (KList.getD s.mem.regions owner []).filter fun r => decide (first ≤ r.1 ∧ r.1 < first + n)
  rs.length == n

/-- Council members below NCOUNCIL are distinct (12 R402). -/
def distinctCouncil (ms : List Nat) (n : Nat) : Bool := (ms.take n).dedup.length == min n ms.length

/-- 13 R406, R434, 17 R532: a write of QSY_QCFG of queue q; a rule over several fields stands at the first of them that
it restricts (00 R556). -/
def Node.qcfgCode (s : Node) (q v : Nat) : Nat :=
  let old := s.qcfg q
  let c := readQcfg v
  if old.valid then okElse 0x01D2 (v == s.reg .qcfg q % 2 ^ 63 || v == s.reg .qcfg q)
  else if !c.valid then 0
  else
    let cq := s.qcfg c.cq
    firstBad [
      (c.vpage != 15 && (c.func == 0 || !(s.validQueues.any fun x => x != q && (s.qcfg x).func == c.func && (s.qcfg x).vpage == c.vpage)), 0x01D2),
      (c.func == 0 || c.vec ≤ 15, 0x01D2),
      (c.func ≤ 1024 && (!c.host || c.func == 0 || (!c.sys && c.func == c.tid + 1)), 0x01D2),
      (c.kind != 0 || (cq.valid && cq.kind == 1 && cq.sys == c.sys && cq.tid == c.tid), 0x01D2),
      (inR c.log2n 4 15, 0x01D2),
      (c.sys || (s.ten c.tid).valid, 0x0102),
      (c.role != 3 && (c.kind != 2 || !c.host) && c.kind != 3, 0x01D2)]

/-- Step 4 of 00 R556: the code of a write of value `v`, 0 when it is in range. -/
def Node.regCheck (s : Node) (n : RegName) (i v : Nat) : Nat :=
  match n with
  | .rstProg => firstBad [(!s.fuses.rstProg, 0x0380),
      ((List.range 16).all fun e => inR (fld v (2 * e) 2) (fld rstMin (2 * e) 2) (fld rstMax (2 * e) 2), 0x01F0)]
  | .strapOvr => okElse 0x01F0 (fld v 0 4 ≤ 11)
  | .pfCfg => okElse 0x01F0 (inR v 100 114)
  | .timeSet => okElse 0x01F1 ((bitAt (s.reg .timeCfg) 5 || !bitAt (s.reg .timeCfg) 4) && !(s.mgt.timeValid && decide (v < s.now)))
  | .clkCfg => okElse 0x01F0 (inR (fld v 0 16) 1 1000 && fld v 16 16 ≤ 1000)
  | .tpwrLim => okElse 0x0110 (inR v 36 56)
  | .therm => okElse 0x01F0 (decide (85 ≤ fld v 0 8 ∧ fld v 0 8 + 5 ≤ fld v 8 8) && inR (fld v 8 8) 100 115)
  | .logRing => okElse 0x01F8 (decide ((v % 2 ^ 32 + 2 ^ 32 - s.log.tail) % 2 ^ 32 ≤ s.log.unread))
  | .snapArm => s.armCode v
  | .tenCfg =>
      let dl := fld v 0 32
      firstBad [(dl == 0 || inR dl 10 100000000, 0x01E0),
        (!(bitAt v 63 && (KList.find? s.sec.destroying i).isSome), 0x0903)]
  | .fsLim => okElse 0x01E0 (!s.fixedSlot)
  | .cxlCfg => okElse 0x0101 (v ≤ 256)
  | .smbCfg => okElse 0x0101 (inR (fld v 0 7) 0x08 0x77 && fld v 8 2 != 3)
  | .qcfg => s.qcfgCode i v
  | .qbase | .qshd => okElse 0x01D2 (!(s.qcfg i).valid)
  | .genCfg => okElse 0x0128 (inR (fld v 8 8) 1 64 && inR (fld v 16 8) 5 90)
  | .scnCfg => okElse 0x0138 (v != 0)
  | .shpCfg | .clsCfg => okElse 0x01D3 (bucketRate v == 0 || bucketBurst v != 0)
  | .gateCfg => okElse 0x01D3 (inR (fld v 0 20) 1 (fld v 20 20) && inR (fld v 20 20) 100 1000000 && fld v 40 24 != 0)
  | .egrCfg | .egrCfg3 => okElse 0x01D3 (inR (fld v 0 10) 1 1000 && fld v 16 10 != 0)
  | .isoCfg => firstBad [
      (!(bitAt v 0 && !s.fixedSlot) || s.fsEntryCode v == 0, s.fsEntryCode v),
      (fld v 12 4 != 0 && inR (fld v 16 16) 100 10000, 0x01D3)]
  | .fsTen | .fsSys => okElse 0x01D4 (!s.fixedSlot)
  | .mrgCfg => okElse 0x0143 (inR v 10 1000)
  | .casCfg =>
      let old := fld (s.reg .casCfg) 0 6
      let w := fld v 0 6
      okElse 0x0152 (inR w 4 32 && inR (fld v 8 8) 10 255
        && (w == old || (s.cas.slots.all fun p => p.2.state == 0)) && (w ≤ old || decide (s.tierMb + w ≤ 40)))
  | .casSlot => firstBad [
      (fld v 16 10 == 0 || (bitAt v 27 && !bitAt v 26), 0x0152),
      (!bitAt v 26 || bitAt v 27, 0x0152),
      ((s.slot i).state == 0, 0x0153)]
  | .drlCfg => okElse 0x0192 (inR (fld v 0 8) 1 64 && decide (fld v 8 8 < fld v 16 8) && inR (fld v 16 8) 2 255 && inR (fld v 24 8) 1 100)
  | .stallCfg => okElse 0x0192 (inR v 1 1000)
  | .replCfg => okElse 0x0192 (inR v 10 10000)
  | .tbCfg => okElse 0x0192 (v ≤ 32 && v % 2 == 0 && decide (v + fld (s.reg .casCfg) 0 6 ≤ 40))
  | .tq0 => firstBad [(fld v 0 17 ≤ s.hbmFrames && fld v 24 8 ≤ 128, 0x0192), (!s.fixedSlot || (s.setReg .tq0 i v).quotasFit, 0x0350)]
  | .tq1 => okElse 0x0350 (!s.fixedSlot || (s.setReg .tq1 i v).quotasFit)
  | .stoCfg => okElse 0x0181 (inR (fld v 0 16) 50 50000 && inR (fld v 16 16) 50 10000)
  | .expBase => okElse 0x0181 (!bitAt v 63 ||
      (s.reg .expLen i != 0 && s.allMapped (fld v 48 10) (fld v 21 27) (s.reg .expLen i)))
  | .expLen => okElse 0x0181 (!bitAt (s.reg .expBase i) 63 ||
      (v != 0 && s.allMapped (fld (s.reg .expBase i) 48 10) (fld (s.reg .expBase i) 21 27) v))
  | .cliId =>
      let c := readCli v
      okElse 0x0181 (c.func ≤ 1024 && (c.remote || c.node == 0) && (!c.valid ||
        !(s.cliEntries.any fun e => e != i && s.cliId e == c)))
  | .cliBw => okElse 0x0181 (fld v 0 16 == 0 || fld v 16 16 != 0)
  | .flsCfg => okElse 0x01A0 (fld v 0 8 ≤ 25 && inR (fld v 8 8) 2 30 && inR (fld v 16 8) 1 20 && inR (fld v 24 8) 7 28
      && decide (fld v 16 8 < fld v 8 8))
  | .flsRdCfg => okElse 0x01A0 (fld v 4 4 != 0 && inR (fld v 8 8) 1 15 && decide (fld v 8 8 ≤ fld v 4 4) && inR (fld v 16 8) 1 60 && fld v 24 8 != 0)
  | .flsWlCfg => okElse 0x01A0 (inR (fld v 0 16) 1 1000 && inR (fld v 16 16) 20 1000)
  | .portCfg => okElse 0x01B0 (fld v 8 8 != 0)
  | .linkCfg => okElse 0x01B0 (inR v 32 39)
  | .timeCfg => okElse 0x01B0 (inR (fld v 16 16) 100 1000 && !(bitAt v 4 && bitAt v 5))
  | .pelCfg =>
      let n := fld v 4 3
      okElse 0x01C2 (!(bitAt v 0 && s.dev.bench) && (n == 1 || n == 3 || n == 5) && inR (fld v 9 4) 2 8 && inR (fld v 13 9) 50 400
        && inR (fld v 22 10) 10 1000 && decide (fld v 9 4 * fld v 13 9 ≤ 1600)
        && distinctCouncil ((List.range 5).map (s.reg .pelCncl)) n)
  | .tmoCfg => okElse 0x01C2 (inR v 100 10000)
  | .pelCncl =>
      let n := fld (s.reg .pelCfg) 4 3
      okElse 0x01C2 (decide (n ≤ i) || distinctCouncil (((List.range 5).map (s.reg .pelCncl)).set i v) n)
  | .mboxCtl => 0
  | _ => 0

/-! ## Effects of writes -/

/-- Suspect reports released (16 R513). -/
def Node.releaseReports (s : Node) (mask : Nat) : Node :=
  { s with log := { s.log with
      held := s.log.held - (s.log.held &&& mask)
      reports := s.log.reports.filter fun r => !bitAt mask r.1 } }

/-- A stored image as a boot slot's content. -/
def Node.putSlot (s : Node) (b : Bool) : Node :=
  { s with qspi := if b then { s.qspi with slotB := s.mbox.staged } else { s.qspi with slotA := s.mbox.staged } }

def Node.mboxStatus (s : Node) (c : Nat) : Node := { s with mbox := { s.mbox with status := c, busy := false } }

/-- The audit record of a register write (14 R462, notes/assumptions/25.md). -/
def Node.regAct (s : Node) (src : Src) (r : Option Role) (off v : Nat) : AuditAct :=
  let sess : Option Session := match src with
    | .mctp n => KList.find? s.sec.sessions n
    | _ => (List.find? (fun (p : Nat × Session) => p.2.established && p.2.role == r) s.sec.sessions).map fun (p : Nat × Session) => p.2
  { role := if src == .fw then 5 else (r.map Role.code).getD 5, chan := if src matches .mctp _ then 1 else 0,
    act := off / 8 % 2 ^ 15, subject := natLe 16 ((sess.map (·.subject)).getD 0), target := off, detail := natLe 32 v }

/-- 15 R500, 17 R547: a mailbox command; the code that the register write is rejected with, and the node. -/
def Node.mailbox (s : Node) (src : Src) (v : Nat) (sigOk : Bool) : Nat × Node :=
  let cmd := fld v 0 3
  let chunk := fld v 3 13
  let slotB := bitAt v 16
  if cmd == 1 then
    if 3839 < chunk then (0, s.mboxStatus 0x01F0)
    else
      let data := (List.range 512).flatMap fun i => natLe 8 (s.reg .mboxWin i)
      (0, ({ s with mbox := { s.mbox with staged := KList.put s.mbox.staged chunk data } }).mboxStatus 0)
  else if cmd == 2 then
    if !s.dev.pewter && s.dev.slot == b2n slotB then (0x01F0, s)
    else
      let code := if (s.roleOf src [.installer]).isNone then 0x0201 else if sigOk then 0 else 0x0203
      let act := s.regAct src (some .installer) 0x10F00 v
      let r := if s.dev.pewter then (code, if code = 0 then (s.audit act 0).putSlot slotB else s.audit act code)
        else s.privileged act code (fun s => s.putSlot slotB)
      (0, r.2.mboxStatus r.1)
  else if cmd == 3 then (0, ({ s with qspi := { s.qspi with fails := 0 } }).mboxStatus 0)
  else if cmd == 4 then
    if !s.dev.pewter then (0x01F0, s)
    else
      let r := s.free
      (0, (r.2.mboxStatus 0).requestLevel 0 0 (r.1 % 16))
  else (0x01F0, s)

/-- 14 R434, R439: what a write of SEC_TEN_CFG does. -/
def Node.writeTen (s : Node) (t v : Nat) : Node :=
  let old := s.ten t
  let kp := bitAt v 62
  let s := s.setTen t { old with kpersist := kp, deadline := fld v 0 32 }
  let s := { s with sec := { s.sec with persisted :=
    if kp && (s.kslot t).state == 1 then KList.put s.sec.persisted t ⟨(s.kslot t).key, s.dev.measure2⟩
    else if kp then s.sec.persisted else KList.del s.sec.persisted t } }
  if bitAt v 63 then s.setTen t { s.ten t with valid := true }
  else if old.valid then s.destroyTenant t else s

/-- 01 R29, R30: fixed-slot entry. R26's withdrawals outside the set end with R26: each such hub returns, an event of
the mode that ends; each hub that the set adds to `HUB_WD` is a withdrawal (notes/assumptions/91.md). -/
def Node.enterFixed (s : Node) (v : Nat) : Node :=
  let wd := s.fsWithdrawn
  let keep := s.power.thermWd ||| wd
  let back := setBits 32 (s.power.hubWd - (s.power.hubWd &&& keep))
  let s := back.foldl (fun s _ => s.concEvent) s
  let new := popcount 32 (wd - (wd &&& s.power.hubWd))
  let s := s.setReg .isoCfg 0 v
  { s with
    power := { s.power with
      hubWd := keep, thermWd := s.power.thermWd - (s.power.thermWd &&& wd), fixedWd := wd, concRed := s.power.concRed + new
      overCnt := [], roomCnt := [] }
    cas := { s.cas with
      fsWin := fld (s.reg .casCfg) 8 8
      tiles := (List.range 8).foldl (fun (l : KList Cassette) t =>
        KList.put l t { (KList.getD l t emptyCas) with window := s.now / (1000 * fld (s.reg .casCfg) 8 8) }) s.cas.tiles } }

/-- 13 R430: a write of ADM_ISO_CFG. At exit the hubs that entry withdrew stay out until R28 returns them
(notes/assumptions/91.md). -/
def Node.writeIso (s : Node) (v : Nat) : Node :=
  if bitAt v 0 && !s.fixedSlot then s.enterFixed v
  else
    let s := s.setReg .isoCfg 0 v
    if bitAt v 0 then s else { s with power := { s.power with fixedWd := 0 } }

/-- What an accepted write of a register of BAR0 does; `v` has no reserved bit set, `rw` its RW fields. -/
def Node.regEffect (s : Node) (src : Src) (a : RegAt) (v : Nat) : Node :=
  let n := a.row.name
  let i := a.idx
  let rw := v &&& a.row.mask fun x => x == .rw
  let store := if a.row.mask (fun x => x == .rw) == 0 then s else s.setReg n i rw
  match n with
  | .timeSet => { s with mgt := { s.mgt with timeNs := v, timeValid := true, timeHold := none } }
  | .rstProg => { s with fuses := { s.fuses with rstProg := true, rstMap := v } }
  | .rstReq =>
      if bitAt v 0 then
        let entry := match s.roleOf src [.operator, .installer, .maker] with
          | some .operator => 9
          | some .installer => 10
          | _ => 11
        s.requestReset entry (some (fld v 1 3))
      else s
  | .strapOvr => { s with qspi := { s.qspi with ovrValid := bitAt v 4, ovrCode := fld v 0 4 } }
  | .logStat =>
      let s := s.releaseReports (fld v 4 4)
      { s with log := { s.log with suspOvf := s.log.suspOvf && !bitAt v 3 } }
  | .logRing => { s with log := { s.log with tail := v % 2 ^ 32 } }
  | .ffCtl => if bitAt v 0 then { s with log := { s.log with ffInfo := none, ffTime := 0, later := 0 } } else s
  | .snapArm => s.arm v (bitAt (s.reg .snapCfg) 0)
  | .tenCfg => s.writeTen i v
  | .accErr =>
      let e := KList.getD s.hif.acc 0 noAccErr
      { s with hif := { s.hif with acc := KList.put s.hif.acc 0 { e with valid := e.valid && !bitAt v 35, ovf := e.ovf && !bitAt v 34 } } }
  | .qcfg => if (s.qcfg i).valid then (if bitAt v 63 then s else s.disableQueue i) else if bitAt v 63 then store.endCut i else store
  | .shpCfg => store.setTenTok i 0
  | .clsCfg => store.setClsTok i 0
  | .isoCfg => s.writeIso rw
  | .cliId => if (s.cliId i).valid && !bitAt v 63 then (if (s.client i).live then (s.lapse i).setReg n i rw else store) else store
  | .tq0 | .tq1 => store.demoteQuota i
  | .tbCfg => ((s.holdTiles v).setReg n i rw).demoteTiles
  | .cliBw => store.setClient i { s.client i with tokens := 0, filledAt := s.clk }
  | .qDb => s.doorbell i v
  | _ => store

/-! ## Accesses (00 R556, 17 R533-R537) -/

/-- 17 R535: a rejection is recorded for the PF or a VF. -/
def Node.recordAcc (s : Node) (src : Src) (code off : Nat) (wr : Bool) : Node :=
  let k := match src with
    | .pf => some 0
    | .vf t => some (t.val + 1)
    | _ => none
  match k with
  | none => s
  | some f =>
    let e := KList.getD s.hif.acc f noAccErr
    let e' := if e.valid then { e with ovf := true }
      else { e with code := code, func := f, wr := wr, valid := true, offset := off % 2 ^ 26 }
    { s with hif := { s.hif with acc := KList.put s.hif.acc f e' } }

/-- The code of the role check of a write (step 2), with the role used. -/
def Node.writeRole (s : Node) (src : Src) (holds : List Role → Option Role) (a : RegAt) (v : Nat) : Nat × Option Role :=
  match a.row.name, a.row.writer with
  | .qDb, _ =>
    if src matches .vf _ then (0, none)
    else if (s.qcfg a.idx).func == 0 then (0, none)
    else if bitAt v 31 then (match holds [.operator] with
      | some r => (0, some r)
      | none => (0x0201, some .operator))
    else (0x0201, none)
  | _, .any => (0, none)
  | _, .roles l => match holds l with
    | some r => (0, some r)
    | none => (0x0201, l.head?)

/-- One register of BAR0 written: R556's steps 2 to 4, the audit record, the effect. -/
def Node.writeOne (s : Node) (src : Src) (holds : List Role → Option Role) (a : RegAt) (v : Nat) (sigOk : Bool) : Nat × Node :=
  let role := s.writeRole src holds a v
  let ro := a.row.mask (fun x => x != .ro) == 0
  let code := if role.1 ≠ 0 then role.1
    else if a.row.reserved v ≠ 0 then 0x0101
    else s.regCheck a.row.name a.idx (v &&& a.row.mask fun x => x != .ro)
  if ro && code = 0 then (0, s)
  else if a.row.name == .mboxCtl then (if code = 0 then s.mailbox src v sigOk else (code, s))
  else
    match role.2 with
    | some r => s.privileged (s.regAct src (some r) a.off v) code (fun s => s.regEffect src a (v &&& a.row.mask fun x => x != .ro))
    | none => (code, if code = 0 then s.regEffect src a (v &&& a.row.mask fun x => x != .ro) else s)

/-- One register of VF t's window written. -/
def Node.vfWriteOne (s : Node) (t : Nat) (a : RegAt) (v : Nat) : Nat × Node :=
  match a.row.name, s.vfQueue t a.idx with
  | .qDb, none => (0, s)
  | .qDbStat, none => (0, s)
  | n, q =>
    if a.row.reserved v ≠ 0 then (0x0101, s)
    else if a.row.mask (fun x => x != .ro) == 0 then (0, s)
    else
        match n, q with
        | .qDb, some q => (0, s.doorbell q v)
        | .tspAccErr, _ =>
          let e := KList.getD s.hif.acc (t + 1) noAccErr
          let e' := { e with valid := e.valid && !bitAt v 35, ovf := e.ovf && !bitAt v 34 }
          (0, { s with hif := { s.hif with acc := KList.put s.hif.acc (t + 1) e' } })
        | _, _ => (0, { s with regs := KList.put s.regs (vfKey t a.off) v })

/-- The whole registers that a stretch is made of. -/
def tileRegs (rows : List RegRow) : Nat → Nat → Nat → Option (List RegAt)
  | _, _, 0 => some []
  | 0, _, _ => none
  | fuel + 1, off, w =>
    match findReg rows off with
    | some a => if a.off == off && decide (a.row.width ≤ w) then (tileRegs rows fuel (off + a.row.width) (w - a.row.width)).map (a :: ·) else none
    | none => none

/-- 17 R534: whether no byte of a stretch is in a register. -/
def noReg (rows : List RegRow) (off w : Nat) : Bool := (List.range (ceilDiv w 4)).all fun i => (findReg rows (off + 4 * i)).isNone

/-- What an access covers: registers in rising offset, or a code; half of a 64-bit register only for a read. -/
inductive Cover where
  | regs (l : List RegAt)
  | half (a : RegAt) (high : Bool)
  | hole
  | bad
  deriving DecidableEq, Repr

def cover (rows : List RegRow) (wr : Bool) (off w : Nat) : Cover :=
  if w = 0 || 64 < w || off % 4 != 0 then .bad
  else if noReg rows off w then .hole
  else
    match tileRegs rows 16 off w, findReg rows off with
    | some l, _ => .regs l
    | none, some a => if !wr && w == 4 && a.row.width == 8 && (off == a.off || off == a.off + 4) then .half a (off != a.off) else .bad
    | none, none => .bad

/-- 15 R499: the blocks that Pewter mode keeps. -/
def pewterKeeps (off : Nat) : Bool := decide (off < 0x20000) || decide (0x30000 ≤ off ∧ off < 0x40000)

/-- The registers of a TLP written in ascending offset; each rejection is recorded. The code of the first. -/
def Node.writeRegs (s : Node) (src : Src) (wr : Node → RegAt → Nat → Nat × Node) : List RegAt → Nat → Nat × Node
  | [], _ => (0, s)
  | a :: t, v =>
    let r := wr s a (v % 2 ^ (8 * a.row.width))
    let s := if r.1 = 0 then r.2 else r.2.recordAcc src r.1 a.off true
    let r' := s.writeRegs src wr t (v / 2 ^ (8 * a.row.width))
    (if r.1 = 0 then r'.1 else r.1, r'.2)

/-- Whether a source can send: an MCTP access needs its session. -/
def Node.srcOk (s : Node) : Src → Bool
  | .mctp n => match KList.find? s.sec.sessions n with
    | some x => x.established && x.chan == .mctp && x.role.isSome
    | none => false
  | _ => true

/-- A register write as it reaches HIF: its status code and the node. -/
def Node.access (s : Node) (src : Src) (off w v : Nat) (sigOk : Bool) : Nat × Node :=
  if !s.srcOk src then (0, s)
  else
    match src with
    | .vf t =>
      if 65536 < off + w then (0, s.emit (.aer (t.val + 1) 3))
      else if s.dev.pewter then (0, s)
      else
        let use := s.tenantUse t.val
        match cover vfRows true off w with
        | .regs l => if use ≠ 0 then (use, s.recordAcc src use off true) else s.writeRegs src (fun s a v => s.vfWriteOne t.val a v) l v
        | .hole => if use ≠ 0 then (use, s.recordAcc src use off true) else (0x0101, s.recordAcc src 0x0101 off true)
        | _ => (0x0162, s.recordAcc src 0x0162 off true)
    | _ =>
      if 0x4000000 < off + w then (0, s.emit (.aer 0 3))
      else if s.dev.pewter && !pewterKeeps off then (0, s)
      else
        match cover bar0Rows true off w with
        | .regs l => s.writeRegs src (fun s a v => s.writeOne src (s.roleOf src) a v sigOk) l v
        | .hole => (0x0101, s.recordAcc src 0x0101 off true)
        | _ => (0x0162, s.recordAcc src 0x0162 off true)

/-- A register write with its answer: an MCTP write returns its status. -/
def Node.writeReg (s : Node) (src : Src) (off w v : Nat) (sigOk : Bool) : Node :=
  let r := s.access src off w v sigOk
  if src matches .mctp _ then r.2.emit (.writeStatus src r.1) else r.2

/-- A write of a register by name. -/
def Node.writeNamed (s : Node) (src : Src) (n : RegName) (i v : Nat) (sigOk : Bool := false) : Node :=
  match findReg bar0Rows (regOff n i) with
  | some a => s.writeReg src a.off a.row.width v sigOk
  | none => s

/-! ## Reads -/

/-- A read of the client's own status restarts its lease (08 R260). -/
def Node.readEffect (s : Node) (src : Src) (a : RegAt) : Node :=
  match a.row.name, src with
  | .cliStat, .pf => let x := s.cliId a.idx; if x.valid && !x.remote && x.func == 0 then s.touchStat a.idx else s
  | .tspCli, .vf t => ((s.localClients (some (t.val + 1))).head?).elim s s.touchStat
  | _, _ => s

def readerOk (holds : List Role → Option Role) (a : RegAt) : Bool :=
  match a.row.reader with
  | .any => true
  | .roles l => (holds l).isSome

/-- Whole registers read in ascending offset, with the code of the first rejection. A rejected one reads all ones. -/
def Node.readRegs (s : Node) (src : Src) (value : Node → RegAt → Nat × Nat) : List RegAt → Nat × Nat × Node
  | [] => (0, 0, s)
  | a :: t =>
    let r := value s a
    let v := if r.1 = 0 then r.2 else 2 ^ (8 * a.row.width) - 1
    let s := if r.1 = 0 then s.readEffect src a else s.recordAcc src r.1 a.off false
    let r' := s.readRegs src value t
    (if r.1 = 0 then r'.1 else r.1, v % 2 ^ (8 * a.row.width) + 2 ^ (8 * a.row.width) * r'.2.1, r'.2.2)

/-- A read as it reaches HIF: code, value, node. -/
def Node.readAccess (s : Node) (src : Src) (off w : Nat) : Nat × Nat × Node :=
  let ones := 2 ^ (8 * w) - 1
  let go := fun (rows : List RegRow) (value : Node → RegAt → Nat × Nat) =>
    match cover rows false off w with
    | .regs l => s.readRegs src value l
    | .half a high =>
      let r := value s a
      if r.1 = 0 then (0, fld r.2 (if high then 32 else 0) 32, s.readEffect src a) else (r.1, ones, s.recordAcc src r.1 a.off false)
    | .hole => (0, 0, s)
    | .bad => (0x0162, ones, s.recordAcc src 0x0162 off false)
  match src with
  | .vf t =>
    if 65536 < off + w then (0, ones, s.emit (.aer (t.val + 1) 3))
    else if s.dev.pewter then (0, 0, s)
    else go vfRows fun s a =>
      if a.row.name != .tspId && s.tenantUse t.val != 0 then (s.tenantUse t.val, 0) else (0, s.vfValue t.val a)
  | _ =>
    if 0x4000000 < off + w then (0, ones, s.emit (.aer 0 3))
    else if s.dev.pewter && !pewterKeeps off then (0, 0, s)
    else go bar0Rows fun s a => if readerOk (s.roleOf src) a then (0, s.regValueAt a) else (0x0201, 0)

/-- A read with its answer. -/
def Node.readReg (s : Node) (src : Src) (off w : Nat) : Node :=
  if !s.srcOk src then s
  else
    let r := s.readAccess src off w
    let s := r.2.2.emit (.readData src r.2.1)
    if src matches .mctp _ then s.emit (.writeStatus src r.1) else s

end Sys2Proof.Machine
end

