-- ==== Sys2Proof/Machine/Flash.lean ====
section
/-! DEFINITION. The media, the flash map and the Babbitt journal (10): the shared operations. -/

namespace Sys2Proof.Machine

/-! ## Pieces of byte maps -/

/-- The bytes of a stretch that are not 0, by offset. -/
def cellsIn (l : List Host.Cell) (k n : Nat) : List Host.Cell :=
  (l.filter fun c => decide (k ≤ c.1 ∧ c.1 < k + n)).map fun c => (c.1 - k, c.2)

/-- A stretch replaced. -/
def cellsSet (l : List Host.Cell) (k n : Nat) (new : List Host.Cell) : List Host.Cell :=
  new.foldl (fun l c => cellPut l (k + c.1) c.2) (l.filter fun c => !decide (k ≤ c.1 ∧ c.1 < k + n))

def unitSize : Nat := 16384

/-! ## Population and namespace (10 R298, R305) -/

/-- 10 R298: whether a population is acceptable. -/
def popOk (p : Population) : Bool :=
  let dies := 16 * p.cePerCh
  p.sameCount && p.sameModel && p.oneLun && p.slcMode && (p.planes == 2 || p.planes == 4)
  && decide (2 ≤ p.cePerCh ∧ p.cePerCh ≤ 16) && p.pageBytes == 16384 && decide (1872 ≤ p.spareBytes)
  && decide (p.pagesPerDie ≤ 16777215) && decide (ceilDiv (17 * 1024) dies ≤ p.slcBlockKiB)
  && decide (p.saveNs dies ≤ 2300000)

/-- 10 R305: NU. -/
def nuOf (p : Population) (opPct : Nat) : Nat :=
  let nn := 16 * p.cePerCh * (p.pagesPerDie - p.staticBlocks * p.pagesPerBlock)
  128 * (nn * 15 * (100 - opPct) / (16 * 100 * 128))

/-- The spare blocks of a namespace when it is formed (10 R320). -/
def spareOf (p : Population) (nu : Nat) : Nat :=
  16 * p.cePerCh * (p.blocksPerDie - p.staticBlocks) - ceilDiv (nu * 16) (15 * max 1 p.pagesPerBlock)

/-! ## Blocks -/

def blkKey (die blk : Nat) : Nat := die * 2 ^ 24 + blk

def freeBlk : FBlock := { pool := 0, erases := 0, reads := 0, next := 0, isOpen := false, units := [], filled := 0, refreshed := none }

def Node.blk (s : Node) (die blk : Nat) : FBlock := KList.getD s.flash.blocks (blkKey die blk) freeBlk

def Node.setBlk (s : Node) (die blk : Nat) (b : FBlock) : Node :=
  { s with flash := { s.flash with blocks := KList.put s.flash.blocks (blkKey die blk) b } }

/-- The blocks of a die that are listed: number and block. -/
def Node.dieBlocks (s : Node) (die : Nat) : List (Nat × FBlock) :=
  (s.flash.blocks.filter fun b => b.1 / 2 ^ 24 == die).map fun b => (b.1 % 2 ^ 24, b.2)

def noPop : Population :=
  { cePerCh := 0, sameCount := true, sameModel := true, oneLun := true, planes := 2, slcMode := true,
    pageBytes := 16384, spareBytes := 1872, pagesPerDie := 0, pagesPerBlock := 1, slcBlockKiB := 0, tProgUs := 0,
    rateMts := 1, qlc := false, peRated := 0 }

/-- The population; none before a start has read it. -/
def Node.pop (s : Node) : Population :=
  s.flash.pop.getD noPop

/-- FREE blocks of a die, beyond the static ones. -/
def Node.dieFree (s : Node) (die : Nat) : Nat :=
  s.pop.blocksPerDie - s.pop.staticBlocks - ((s.dieBlocks die).filter fun b => b.2.pool != 0).length

/-- FREE blocks of a die, in percent. -/
def Node.dieFreePct (s : Node) (die : Nat) : Nat := 100 * s.dieFree die / max 1 s.pop.blocksPerDie

/-- The lowest-numbered FREE block of a die (notes/assumptions/17.md). -/
def Node.freeBlkOf (s : Node) (die : Nat) : Option Nat :=
  ((List.range (s.pop.blocksPerDie - s.pop.staticBlocks)).map (s.pop.staticBlocks + ·)).find? fun b => (s.blk die b).pool == 0

/-- The next die for a unit: its channel follows the last unit's, so that the 16 units of a parity group lie on 16 dies of
distinct channels (10 R303). -/
def Node.nextDie (s : Node) : Option Nat :=
  let n := max 1 s.pop.cePerCh
  let k := s.flash.nextDie
  ((List.range 16).flatMap fun i => (List.range n).map fun j =>
      16 * (((k + i) / 16 + j) % n) + (k + i) % 16).find? fun d =>
    decide (d < s.flash.dies) && !bitAt s.flash.dieRet d && ((s.dieBlocks d).any (·.2.isOpen) || decide (0 < s.dieFree d))

/-- Pages that a block of a pool holds: SLC blocks hold one bit a cell. -/
def Node.pagesOf (s : Node) (pool : Nat) : Nat := if pool == 1 then s.pop.pagesPerBlock / s.pop.bits else s.pop.pagesPerBlock

/-- The open block of a die in a pool, or a FREE one that is opened. -/
def Node.openBlk (s : Node) (die pool : Nat) : Option (Nat × FBlock) :=
  match (s.dieBlocks die).find? fun b => b.2.isOpen && b.2.pool == pool with
  | some b => some b
  | none => (s.freeBlkOf die).map fun b =>
      (b, { s.blk die b with pool := pool, isOpen := true, units := [], filled := 0, reads := 0, next := s.flash.fillSeq })

/-- One page programmed in a block: its PUA. -/
def Node.programIn (s : Node) (die b : Nat) (blk : FBlock) (m : PageMeta) (data : List Host.Cell) : Nat × Node :=
  let pua := die * 2 ^ 24 + b * s.pop.pagesPerBlock + blk.filled
  let blk' := { blk with units := KList.put blk.units blk.filled { m with time := s.now }, filled := blk.filled + 1,
                         isOpen := decide (blk.filled + 1 < s.pagesOf blk.pool) }
  let s := s.setBlk die b blk'
  let h := s.flash.health
  (pua, { s with flash := { s.flash with
    media := cellsSet s.flash.media (pua * unitSize) unitSize data, fillSeq := s.flash.fillSeq + 1
    nextDie := die + 1, health := { h with unitsMedia := h.unitsMedia + 1 } } })

/-- A unit outside the namespace: the parity of a group. -/
def outside : PageMeta := { unit := 0xFFFFFFFF, counter := 0, epoch := 0, time := 0 }

/-- Bytes that are not 0, and the XOR of them with others. -/
def cellsXor (l new : List Host.Cell) : List Host.Cell :=
  new.foldl (fun l c => cellPut l c.1 ((((cellsIn l c.1 1).head?).map (·.2)).getD 0 ^^^ c.2)) l

/-- A page for a unit: the die that comes next, and the block that `place` gives of it. -/
def Node.programOn (s : Node) (place : Node → Nat → Option (Nat × FBlock)) (m : PageMeta) (data : List Host.Cell) : Option (Nat × Node) :=
  match s.nextDie with
  | none => none
  | some d => (place s d).map fun b => s.programIn d b.1 b.2 m data

/-- 10 R303: one unit programmed; after each fifteenth, the group's parity unit. None when no die has room. -/
def Node.programAt (s : Node) (place : Node → Nat → Option (Nat × FBlock)) (m : PageMeta) (data : List Host.Cell) : Option (Nat × Node) :=
  (s.programOn place m data).map fun r =>
    let x := cellsXor s.flash.groupXor data
    if s.flash.groupFill < 14 then (r.1, { r.2 with flash := { r.2.flash with groupFill := s.flash.groupFill + 1, groupXor := x } })
    else
      let s' := { r.2 with flash := { r.2.flash with groupFill := 0, groupXor := [] } }
      (r.1, ((s'.programOn place outside x).map (·.2)).getD s')

/-- One unit programmed in a pool. -/
def Node.program (s : Node) (pool : Nat) (m : PageMeta) (data : List Host.Cell) : Option (Nat × Node) :=
  s.programAt (fun s d => s.openBlk d pool) m data

/-! ## The journal (10 R323-R325) -/

/-- A record's place: 32 B of header and its payload padded. -/
def dataShare : Nat := 4 * 2 ^ 20
def mapShare : Nat := 12 * 2 ^ 20

/-- The owner of the data of a staged record: that of its shard, or of the region that the unit belongs to. -/
def Node.recOwner (s : Node) (r : JRec) : Nat :=
  let loc := fld r.key 0 32 / 128
  if r.jtype == 3 then fld r.key 28 10
  else match s.allRegions.find? fun (x : Nat × Nat × Region) => x.2.2.tier == 4 && x.2.2.loc == loc with
    | some x => x.1
    | none => ((List.find? (fun (m : Nat × Move) => m.2.tier == 4 && m.2.loc == loc) s.mem.moves).map fun m => m.2.owner).getD sysOwner

/-- Whether the data share takes `n` bytes more; in fixed-slot mode, whether the owner's part of it does (14 Table 14.10). -/
def Node.dataLeft (s : Node) (owner n : Nat) : Bool :=
  decide (s.dataBytes + n ≤ dataShare) && (!s.fixedSlot || decide (1024 ≤ owner)
    || decide (sumN ((s.flash.data.filter fun r => s.recOwner r == owner).map jrecSize) + n
        ≤ dataShare / max 1 (s.assigned.filter fun t => fld (s.reg .tq1 t) 0 25 != 0).length))

def Node.dataRoom (s : Node) (r : JRec) : Bool := s.dataLeft (s.recOwner r) (jrecSize r)

/-- A record staged in the data share. -/
def Node.stage (s : Node) (r : JRec) : Node :=
  { s with flash := { s.flash with jseq := s.flash.jseq + 1, data := s.flash.data ++ [{ r with seq := s.flash.jseq, since := s.clk }] } }

/-- 10 R323: a UNIT_LINE record. -/
def lineRec (unit line mask : Nat) (data : Bytes) : JRec :=
  { jtype := 2, seq := 0, key := unit + 2 ^ 32 * line, aux := 0, payload := natLe 8 mask ++ slice data 0 64, since := 0 }

/-- 10 R306, R308: a map delta staged, and the change made. `pua` none: unmapped. -/
def Node.mapDelta (s : Node) (unit : Nat) (pua : Option Nat) : Node :=
  let f := s.flash
  let rcd : JRec := { jtype := 1, seq := f.jseq, key := 1, aux := 0, payload := natLe 4 unit ++ natLe 4 (pua.getD 0xFFFFFFFF), since := s.clk }
  let pg := unit / 1024
  let d := KList.getD f.dirty pg (0, s.clk)
  let m := match pua with
    | some p => KList.put f.map unit p
    | none => KList.del f.map unit
  { s with flash := { f with jseq := f.jseq + 1, maps := f.maps ++ [rcd], map := m, dirty := KList.put f.dirty pg (d.1 + 1, d.2) } }

/-- Whether the map share takes another delta. -/
def Node.mapRoom (s : Node) : Bool := decide (s.mapBytes + 64 ≤ mapShare)

/-- 10 R308: a map page is written to flash: its staged deltas are released. -/
def Node.writeMapPage (s : Node) (pg : Nat) : Node :=
  let f := s.flash
  let inPage := fun (u : Nat) => u / 1024 == pg
  { s with flash := { f with
    mapDisk := (f.map.filter fun p => inPage p.1).foldl (fun m p => KList.put m p.1 p.2) (f.mapDisk.filter fun p => !inPage p.1)
    maps := f.maps.filter fun r => !inPage (getLe r.payload 0 4), dirty := KList.del f.dirty pg } }

/-! ## Nonce streams (14 R443-R445) -/

def Node.nonce (s : Node) (owner : Nat) : Nonce := KList.getD s.sec.nonces owner { epoch := 0, counter := 0, reserved := 0 }

/-- 14 R444: a stream that has no counter left. -/
def Node.exhausted (s : Node) (owner : Nat) : Bool := decide (2 ^ 24 ≤ (s.nonce owner).epoch)

/-- The stream's next counter is used; a reservation of 2^20 is persisted first. -/
def Node.useNonce (s : Node) (owner : Nat) : Node :=
  let x := s.nonce owner
  let c := x.counter + 1
  let x' := if 2 ^ 32 ≤ c then { epoch := x.epoch + 1, counter := 0, reserved := 2 ^ 20 }
    else { x with counter := c, reserved := if x.reserved ≤ x.counter then x.counter + 2 ^ 20 else x.reserved }
  { s with sec := { s.sec with nonces := KList.put s.sec.nonces owner x' } }

/-! ## Units -/

/-- The metadata of a new program of a unit: its owner's stream has just given the nonce (10 R302, 14 R443). -/
def Node.pageMeta (s : Node) (owner unit : Nat) : PageMeta :=
  { unit := unit, counter := (s.nonce owner).counter, epoch := (s.nonce owner).epoch, time := 0 }

/-- The owner and the region of a namespace unit: a FLASH region's extent, or a shadow extent. -/
def Node.unitHome (s : Node) (unit : Nat) : Option (Nat × Nat) :=
  let x := unit / 128
  match s.allRegions.find? fun r => r.2.2.tier == 4 && r.2.2.loc == x with
  | some r => some (r.1, r.2.1)
  | none => (List.find? (fun (p : Nat × Nat) => p.2 == x) s.flash.shadow).map fun p => (p.1 / 2 ^ 27, p.1 % 2 ^ 27)

/-- The memory key of a unit of a region. -/
def unitKey (owner region unit : Nat) : Nat := memKey owner (region * 2097152 + (unit % 128) * unitSize)

/-- 10 R313: where a write-back or demotion goes. -/
def Node.writePool (s : Node) : Nat :=
  if (s.flash.blocks.filter fun b => b.2.pool == 1).length < s.bufLimit then 1 else 2

/-- A unit's current bytes programmed to a new page, and the map delta staged; a nonce of its owner is used. -/
def Node.programUnit (s : Node) (owner region unit : Nat) : Option Node :=
  let s := s.useNonce owner
  match s.program s.writePool (s.pageMeta owner unit) (cellsIn s.mem.bytes (unitKey owner region unit) unitSize) with
  | none => none
  | some (pua, s) =>
    let s := s.mapDelta unit (some pua)
    let h := s.flash.health
    some { s with flash := { s.flash with health := { h with unitsIn := h.unitsIn + 1 } } }

/-- The units that have a staged line, oldest line first. -/
def Node.lineUnits (s : Node) : List Nat := ((s.flash.data.filter fun r => r.jtype == 2).map fun r => r.key % 2 ^ 32).dedup

/-- 10 R309: the staged lines of a unit are merged and the unit is written back. A unit outside every region drops them. -/
def Node.writeBackUnit (s : Node) (unit : Nat) : Node :=
  let drop := fun (s : Node) => { s with flash := { s.flash with
    data := s.flash.data.filter fun r => !(r.jtype == 2 && r.key % 2 ^ 32 == unit) } }
  match s.unitHome unit with
  | none => drop s
  | some (o, r) => if s.mapRoom then (s.programUnit o r unit).elim s drop else s

/-- 10 R307: a discard: units unmapped, their staged lines dropped. -/
def Node.discardUnit (s : Node) (unit : Nat) : Node :=
  let s := { s with flash := { s.flash with data := s.flash.data.filter fun r => !(r.jtype == 2 && r.key % 2 ^ 32 == unit) } }
  match KList.find? s.flash.map unit with
  | some _ => s.mapDelta unit none
  | none => s

def Node.discardExtent (s : Node) (x : Nat) : Node :=
  ((s.flash.map.filter fun p => p.1 / 128 == x).map (·.1)).foldl Node.discardUnit s

/-- The code that a write to a FLASH region ends with, 0 when it may be staged (10 R298, R322; 14 R444). -/
def Node.flashWriteCode (s : Node) (owner : Nat) : Nat :=
  if !s.flash.popOk then 0x0703 else if s.flash.readOnly then 0x0701 else if s.exhausted owner then 0x0902 else 0

/-- The UNIT_LINE records of a store: one for each 64 B line that it touches. -/
def linesOf (loc addr : Nat) (data : Bytes) : List JRec :=
  let off := addr % 2097152
  let first := off / 64
  let last := (off + max 1 data.length - 1) / 64
  (List.range (last - first + 1)).map fun i =>
    let line := first + i
    let inLine := fun (b : Nat) => decide (off ≤ line * 64 + b ∧ line * 64 + b < off + data.length)
    let mask := sumN ((List.range 64).map fun b => if inLine b then 2 ^ b else 0)
    let bytes := (List.range 64).map fun b => if inLine b then data.getD (line * 64 + b - off) 0 else 0
    lineRec (loc * 128 + line / 256) (line % 256) mask bytes

/-! ## Health, wear, retirement (10 R319-R322) -/

/-- 10 R322: the namespace becomes read-only; every tenant is told (14 R465). -/
def Node.checkReadOnly (s : Node) : Node :=
  if s.flash.readOnly || !s.flash.popOk || s.flash.nu == 0 then s
  else if s.sparePct ≤ 2 || s.liveDies < 32 then
    let s := { s with flash := { s.flash with readOnly := true, state := if s.flash.state == 1 then 2 else s.flash.state } }
    ((s.logUnit 0x0701 (unitOf 6 0)).stateEvent 129 (getLe s.healthPage 7 1)).service
  else s

/-- 10 R321: wear used first reaches 80, or 100: a health bit and a log record, whose code the spec does not give. -/
def Node.checkWear (s : Node) : Node :=
  let w := s.wearPct
  let bits := (if 80 ≤ w then 1 else 0) + (if 100 ≤ w then 2 else 0)
  let h := s.flash.health
  if bits &&& h.warn == bits then s
  else
    let s := { s with flash := { s.flash with health := { h with warn := h.warn ||| bits } } }
    let f := s.free
    (f.2.logUnit (freeCode f.1) (unitOf 6 0)).stateEvent 129 (getLe f.2.healthPage 7 1)

/-- The units of a block that are valid: page and unit (10 R318). -/
def Node.validUnits (s : Node) (die b : Nat) : List (Nat × PageMeta) :=
  (s.blk die b).units.filter fun p =>
    KList.find? s.flash.map p.2.unit == some (die * 2 ^ 24 + b * s.pop.pagesPerBlock + p.1)

/-- A unit copied as stored ciphertext, with its nonce, to an open NATIVE block; its delta staged. -/
def Node.copyUnit (s : Node) (die b : Nat) (p : Nat × PageMeta) : Node :=
  let pua := die * 2 ^ 24 + b * s.pop.pagesPerBlock + p.1
  match s.program 2 p.2 (cellsIn s.flash.media (pua * unitSize) unitSize) with
  | none => s
  | some (q, s) => s.mapDelta p.2.unit (some q)

def Node.copyValid (s : Node) (die b : Nat) : Node :=
  (s.validUnits die b).foldl (fun s p => s.copyUnit die b p) (s.setBlk die b { s.blk die b with isOpen := false })

/-- A block erased and FREE. -/
def Node.eraseBlk (s : Node) (die b : Nat) : Node :=
  let x := s.blk die b
  let base := (die * 2 ^ 24 + b * s.pop.pagesPerBlock) * unitSize
  let s := s.setBlk die b { x with pool := 0, erases := x.erases + 1, reads := 0, isOpen := false, units := [], filled := 0 }
  let n := s.pop.pagesPerBlock * unitSize
  ({ s with flash := { s.flash with media := s.flash.media.filter fun c => !decide (base ≤ c.1 ∧ c.1 < base + n) } }).checkWear

/-- Valid units copied and the block erased; unchanged where a unit finds no place. -/
def Node.recycle (s : Node) (die b : Nat) : Node :=
  if mapShare < s.mapBytes + 64 * (s.validUnits die b).length then s
  else
    let t := s.copyValid die b
    if (t.validUnits die b).isEmpty then t.eraseBlk die b else s

/-- 10 R319: a block retires; what it still holds has been copied. -/
def Node.retireBlk (s : Node) (die b : Nat) : Node :=
  let s := s.copyValid die b
  let s := s.setBlk die b { s.blk die b with pool := 4, isOpen := false, units := [] }
  s.checkReadOnly

/-- 10 R319: whether 2 % of a die's blocks have retired. -/
def Node.dieWorn (s : Node) (die : Nat) : Bool :=
  decide (s.pop.blocksPerDie * 2 ≤ 100 * ((s.dieBlocks die).filter fun b => b.2.pool == 4).length) && s.pop.blocksPerDie != 0

/-- 10 R319: a die retires: every unit of it is rebuilt onto other dies first. -/
def Node.retireDie (s : Node) (die : Nat) : Node :=
  if bitAt s.flash.dieRet die || decide (s.flash.dies ≤ die) then s
  else
    let s := { s with flash := { s.flash with dieRet := s.flash.dieRet ||| 2 ^ die } }
    let n := sumN ((s.dieBlocks die).map fun b => (s.validUnits die b.1).length)
    let s := ((s.dieBlocks die).map (·.1)).foldl (fun s b => s.copyValid die b) s
    let h := s.flash.health
    let s := { s with flash := { s.flash with
      blocks := s.flash.blocks.filter fun b => b.1 / 2 ^ 24 != die, gcOn := s.flash.gcOn.filter (· != die)
      health := { h with rebuilds := h.rebuilds + n } } }
    ((s.stateEvent 129 (getLe s.healthPage 7 1)).service).checkReadOnly

/-! ## Saves and replay (10 R326-R331) -/

/-- The staged records in staging order. -/
def Node.staged (s : Node) : List JRec := sortBy (fun a b => decide (a.seq ≤ b.seq)) (s.flash.data ++ s.flash.maps)

/-- 10 Table 10.4: a record's header with a CRC, its payload, and the padding. -/
def JRec.bytes (r : JRec) (crc : Nat) : Bytes :=
  natLe 1 r.jtype ++ natLe 3 0 ++ natLe 4 r.payload.length ++ natLe 8 r.seq ++ natLe 8 r.key ++ natLe 4 r.aux ++ natLe 4 crc ++ r.payload

/-- A record as staging and the media hold it. -/
def JRec.image (r : JRec) : Bytes :=
  let b := r.bytes (crc32c (r.bytes 0))
  b ++ List.replicate (jrecSize r - b.length) 0

/-- The record of an image; none where `JCRC` fails (10 R329). -/
def readJrec (b : Bytes) (clk : Nat) : Option JRec :=
  let r : JRec := { jtype := getLe b 0 1, seq := getLe b 8 8, key := getLe b 16 8, aux := getLe b 24 4, payload := slice b 32 (getLe b 4 4), since := clk }
  if getLe b 28 4 == crc32c (r.bytes 0) then some r else none

/-- 10 Table 10.5: a journal header. `kind` 1 start, 2 end. -/
def saveHead (kind dies seq time : Nat) (recs : List JRec) : Bytes :=
  let b := natLe 4 0x4A424142 ++ natLe 2 kind ++ natLe 2 dies ++ natLe 8 seq ++ natLe 8 time
    ++ natLe 4 (ceilDiv (sumN (recs.map jrecSize)) unitSize) ++ natLe 4 recs.length ++ natLe 8 ((recs.head?).elim 0 (·.seq))
    ++ natLe 8 ((recs.getLast?).elim 0 (·.seq)) ++ natLe 12 0
  b ++ natLe 4 (crc32c b)

/-- Whether a journal header checks. -/
def saveHeadOk (b : Bytes) (kind : Nat) : Bool :=
  getLe b 0 4 == 0x4A424142 && getLe b 4 2 == kind && getLe b 60 4 == crc32c (slice b 0 60)

/-- `SAVE_SEQ` of a save. -/
def JSave.seq (v : JSave) : Nat := getLe v.start 8 8

/-- 10 R329: whether an end header of a save checks. -/
def JSave.complete (v : JSave) : Bool :=
  match v.stop with
  | some b => saveHeadOk b 2 && getLe b 8 8 == v.seq
  | none => false

/-- 10 R326: the area that a save writes: an erased one, else the older one. -/
def Node.saveArea (s : Node) : Bool :=
  match s.flash.areaA, s.flash.areaB with
  | none, _ => true
  | _, none => false
  | some a, some b => decide (a.seq < b.seq)

/-- A save of what is staged; `complete`: its end header is on the media. -/
def Node.newSave (s : Node) (complete : Bool) : JSave :=
  let seq := max ((s.flash.areaA.map (·.seq)).getD 0) ((s.flash.areaB.map (·.seq)).getD 0) + 1
  let h := fun (kind : Nat) => saveHead kind s.liveDies seq s.now s.staged
  { start := h 1, recs := s.staged.map JRec.image, stop := if complete then some (h 2) else none }

/-- A save is written. -/
def Node.writeSave (s : Node) (complete : Bool) : Node :=
  if s.flash.popOk then
    (if s.saveArea then { s with flash := { s.flash with areaA := some (s.newSave complete) } }
    else { s with flash := { s.flash with areaB := some (s.newSave complete) } })
  else s

/-- 10 Table 10.8: the counts of a save that has ended. -/
def Node.countSave (s : Node) (us : Nat) (complete : Bool) : Node :=
  let h := s.flash.health
  let warn := if complete then h.warn - (h.warn &&& 16) else h.warn ||| 16
  { s with flash := { s.flash with health := { h with
    saves := h.saves + 1, saveTime := s.now, saveUs := us % 65536, saveStatus := if complete then 0 else 0x0704, warn := warn } } }

/-- 10 R329: of the areas whose start header checks, the save with the highest sequence. -/
def Node.lastSave (s : Node) : Option JSave :=
  match s.flash.areaA.filter fun v => saveHeadOk v.start 1, s.flash.areaB.filter fun v => saveHeadOk v.start 1 with
  | some a, some b => some (if a.seq < b.seq then b else a)
  | some a, none => some a
  | none, b => b

/-- A UNIT_LINE record applied to the bytes of memory that its unit backs. -/
def Node.applyLine (s : Node) (r : JRec) : Node :=
  let unit := r.key % 2 ^ 32
  match s.unitHome unit with
  | none => s
  | some (o, rg) =>
    let k := unitKey o rg unit + 64 * (r.key / 2 ^ 32)
    let mask := getLe r.payload 0 8
    (setBits 64 mask).foldl (fun s b => { s with mem := { s.mem with bytes := cellPut s.mem.bytes (k + b) (r.payload.getD (8 + b) 0) } }) s

/-- A MAP_DELTA record applied to the map (10 R329). -/
def Node.applyDelta (s : Node) (r : JRec) : Node :=
  let u := getLe r.payload 0 4
  let p := getLe r.payload 4 4
  { s with flash := { s.flash with map := if p = 0xFFFFFFFF then KList.del s.flash.map u else KList.put s.flash.map u p } }

end Sys2Proof.Machine
end

