-- ==== Sys2Proof/Machine/Packets.lean ====
section
/-! DEFINITION. Flits that leave (11 R339-R346, R355), packets and routes (12 R365-R369), the remote-fault ledger (12 R377),
and the posted writes of the node engines (12 R366, Table 12.3). -/

namespace Sys2Proof.Machine

def Node.setPort (s : Node) (p : Nat) (x : Port) : Node := { s with links := { s.links with ports := KList.put s.links.ports p x } }

/-- A link counter (11 `FAB_CNT`). -/
def Port.count (x : Port) (c : Nat) (n : Nat := 1) : Port := { x with cnt := KList.put x.cnt c (KList.getD x.cnt c 0 + n) }

/-! ## Flits (11 Table 11.2, R355; notes/assumptions/100.md) -/

/-- Bytes 0-31 of a flit that forms now: every flit acknowledges (11 R346), and returns the credits owed (11 R341). -/
def Node.flitHead (s : Node) (p kind seq : Nat) (req : Bool) : Bytes :=
  let x := s.port p
  natLe 1 kind ++ natLe 1 (b2n x.keyPhase + 2 * b2n req + 4) ++ natLe 2 seq ++ natLe 2 ((x.e + 4095) % 4096) ++ natLe 2 x.owed
  ++ natLe 4 s.now ++ natLe 2 s.dev.node ++ natLe 1 p ++ natLe 1 0 ++ natLe 8 (x.fctr % 2 ^ 40) ++ natLe 8 0

/-- 11 R355: the IV of a flit. -/
def flitIv (src sport fctr : Nat) : Bytes := natLe 12 (put src 81 15 + put sport 77 4 + put fctr 0 40)

/-- The IV that a header names. -/
def headIv (head : Bytes) : Bytes := flitIv (getLe head 12 2) (getLe head 14 1) (getLe head 16 5)

/-- A flit of 640 bytes: the header in clear, the payload enciphered, the tag, and the CRC over both. -/
def flitImage (key head payload : Bytes) : Bytes :=
  let r := gcmSeal key (headIv head) head (slice payload 0 576)
  let b := head ++ r.1 ++ r.2 ++ natLe 12 0
  b ++ natLe 4 (crc32c b)

/-- A new flit formed. -/
def Node.formFlit (s : Node) (p : Nat) (f : OutFlit) (req : Bool) : OutFlit :=
  { f with fctr := (s.port p).fctr, sent := s.clk, image := flitImage (s.port p).txKey (s.flitHead p f.kind f.seq req) f.payload }

/-- A new flit leaves. `FCTR` counts flits of every type (11 R355). -/
def Node.putFlit (s : Node) (p : Nat) (f : OutFlit) : Node :=
  let x := (s.port p).count 0
  (s.setPort p { x with fctr := x.fctr + 1, accepted := 0, ackDue := none, ackNow := false, lastAck := some s.clk, owed := 0 }).emit (.flit p f)

/-- A flit of a kind with a payload, not formed yet. -/
def flitOf (kind : Nat) (payload : Bytes) (pkt : Option Packet := none) : OutFlit :=
  { seq := 0, kind := kind, fctr := 0, pkt := pkt, payload := payload, image := [], sent := 0 }

/-- A flit that is not sequenced: TIME or ACK (11 R341). -/
def Node.sendLoose (s : Node) (p kind : Nat) (payload : Bytes) (req : Bool) : Node := s.putFlit p (s.formFlit p (flitOf kind payload) req)

/-! ## Sequenced flits -/

/-- 11 R343, R356: whether a new flit of a kind may be numbered: buffer space, a credit for DATA, and, from the SEQ that a
REKEY names, the new key. -/
def Port.mayNumber (x : Port) (kind : Nat) : Bool :=
  decide (x.buffer.length < 1024) && (kind == 2 || decide (0 < x.credits)) && x.rekey != some x.txSeq

/-- A flit that is numbered. -/
def Port.number (x : Port) (f : OutFlit) (clk : Nat) : Port :=
  { x with
    buffer := x.buffer ++ [f], txSeq := (x.txSeq + 1) % 4096, credits := if f.kind == 1 then x.credits - 1 else x.credits
    timer := if x.timer.isSome then x.timer else some clk }

/-- 11 R343: a sequenced flit is numbered, kept, and sent. -/
def Node.sendFlit (s : Node) (p : Nat) (f : OutFlit) : Node :=
  let f := s.formFlit p { f with seq := (s.port p).txSeq } false
  (s.setPort p ((s.port p).number f s.clk)).putFlit p f

/-- PEL packets go before every other packet that waits (12 R365), then by egress class (13 R429): 1 job-0 node ports, 2
transactions. -/
def egressClass (f : OutFlit) : Nat :=
  match f.pkt with
  | none => 0
  | some k => if k.ptype == 10 then 0 else if k.job == 0 && decide (0xF00000000000 ≤ k.addr) then (if 0xF30000000000 ≤ k.addr then 3 else 1)
    else 2

/-- Flits that wait are sent as far as the link takes them. -/
def Node.drainPort (s : Node) (p : Nat) : Nat → Node
  | 0 => s
  | fuel + 1 =>
    let x := s.port p
    match x.waiting with
    | [] => s
    | f :: t => if x.mayNumber f.kind then ((s.setPort p { x with waiting := t }).sendFlit p f).drainPort p fuel else s

/-- A sequenced flit for a port: sent, or waiting behind its like. -/
def Node.pushFlit (s : Node) (p : Nat) (f : OutFlit) : Node :=
  let x := s.port p
  let w := (x.waiting.filter fun g => decide (egressClass g ≤ egressClass f)) ++ [f]
    ++ x.waiting.filter fun g => decide (egressClass f < egressClass g)
  (s.setPort p { x with waiting := w }).drainPort p (w.length + 1)

/-- A MGMT flit: the first bytes of its payload (11 Table 11.3). -/
def Node.sendMgmt (s : Node) (p : Nat) (payload : Bytes) : Node := s.pushFlit p (flitOf 2 payload)

/-- 12 Table 12.1: a packet's 32 bytes of header, and its data padded to a multiple of 32. -/
def packetBytes (k : Packet) : Bytes :=
  natLe 1 k.ptype ++ natLe 1 (b2n k.poison) ++ natLe 2 k.len ++ natLe 2 k.job ++ natLe 2 k.dst ++ natLe 2 k.src
  ++ natLe 2 (put k.tag 0 14 + put k.cls 14 2) ++ natLe 2 k.status ++ natLe 1 k.load ++ natLe 1 k.hops ++ natLe 8 k.addr
  ++ natLe 2 k.sinc ++ natLe 6 0 ++ slice k.data 0 (32 * ceilDiv k.data.length 32)

def Node.sendOn (s : Node) (p : Nat) (k : Packet) : Node := s.pushFlit p (flitOf 1 (packetBytes k) (some k))

/-! ## Routes (12 R367) -/

/-- The hash of a destination and a page. -/
def routeHash (dst addr : Nat) : Nat := crc32c (natLe 8 dst ++ natLe 8 (fld addr 12 36))

/-- Packets to a node that are outstanding since before a time: the port that took each, and its offset. -/
def Node.outstanding (s : Node) (dst t : Nat) : List (Nat × Nat) :=
  (s.fabric.reqs.filterMap fun (r : Nat × Request) => if r.2.dst == dst && decide (r.2.issued < t) then r.2.via.map fun p => (p, r.2.addr) else none)
  ++ s.links.ports.flatMap fun (p : Nat × Port) => (p.2.buffer ++ p.2.waiting).filterMap fun f => match f.pkt with
    | some k => if k.dst == dst && decide (f.sent < t) then some (p.1, k.addr) else none
    | none => none

/-- The port for a packet. One that has returned to UP takes a bucket only once no packet of it is outstanding elsewhere: until
then a packet goes as one of its page did, or as it would without that port (notes/assumptions/100.md). -/
def Node.route (s : Node) (dst addr : Nat) : Option Nat :=
  let e := KList.getD s.fabric.routes dst 0
  let ps := sortBy (fun a b => decide (a ≤ b)) (((List.range 4).filter fun i => bitAt e (16 + i)).map fun i => fld e (4 * i) 4)
  let ps := ps.filter fun p => (s.port p).state == 5
  let h := routeHash dst addr
  match ps[h % ps.length]? with
  | none => none
  | some p =>
    let old := (s.outstanding dst (s.port p).since).filter fun o =>
      o.1 != p && ps.contains o.1 && routeHash dst o.2 % ps.length == h % ps.length
    match old.find? fun o => fld o.2 12 36 == fld addr 12 36 with
    | some o => some o.1
    | none => if old.isEmpty then some p else (ps.filter (· != p))[h % (ps.length - 1)]?

/-- A packet sent toward its destination; none where no port is UP. -/
def Node.sendPacket (s : Node) (k : Packet) : Option Node := (s.route k.dst k.addr).map fun p => s.sendOn p k

/-- A packet of this node. -/
def Node.packet (s : Node) (ptype dst job tag cls addr : Nat) (data : Bytes) (status : Nat := 0) (len : Nat := 0) : Packet :=
  { ptype := ptype, poison := false, len := if len = 0 then data.length else len, job := job, dst := dst, src := s.dev.node, tag := tag,
    cls := cls, status := status, load := 0, hops := 0, addr := addr, sinc := s.peloton.incarn, data := data, port := 0 }

/-! ## The remote-fault ledger (12 R377, Table 12.4) -/

/-- The THREAD and TID fields. -/
def issuerFields (r : Request) : Bytes :=
  natLe 2 (if r.acc.isSome && r.thr < 8192 then r.thr else 0) ++ natLe 2 (if r.owner == sysOwner then 1024 else r.owner % 1024)

/-- A record: the target's bytes 0-7, 12-31 come from `base`. -/
def ledgerRecord (base : Bytes) (lidx cause : Nat) (r : Request) : Bytes :=
  let b := slice base 0 8 ++ natLe 4 lidx ++ slice base 12 10 ++ natLe 1 cause ++ natLe 1 0 ++ slice base 24 8 ++ natLe 8 r.issued
    ++ issuerFields r ++ List.replicate 16 0
  b ++ natLe 4 (crc32c b)

/-- The target's part of a record, as the issuer fills it under R379 and R381. -/
def Node.ledgerBase (s : Node) (status tag : Nat) (r : Request) : Bytes :=
  natLe 8 s.now ++ natLe 4 0 ++ natLe 2 status ++ natLe 2 r.job ++ natLe 2 r.dst ++ natLe 2 tag ++ natLe 2 r.len ++ natLe 2 0
  ++ natLe 8 (2 ^ 63 + r.dst * 2 ^ 48 + r.addr)

/-- 12 R377: a posted write's failure is recorded and counted. -/
def Node.ledger (s : Node) (base : Bytes) (cause : Nat) (r : Request) : Node :=
  let f := s.fabric
  let i := f.ledgerNext
  let slot := i % 4096
  let ovf := if f.ledgerFresh.contains slot then 1 else 0
  let s := { s with fabric := { f with
    ledger := KList.put f.ledger slot (ledgerRecord base i cause r), ledgerNext := (i + 1) % 2 ^ 32
    ledgerFresh := slot :: f.ledgerFresh.filter (· != slot), ledgerOvf := f.ledgerOvf + ovf } }
  match s.job r.job with
  | some j => s.setJob r.job { j with posted := j.posted + 1, unreported := j.unreported ++ [i] }
  | none => s

/-! ## Requests -/

/-- The key of a request: its class and its tag. -/
def reqKey (cls tag : Nat) : Nat := cls * 16384 + tag % 16384

def Node.dropReq (s : Node) (key : Nat) : Node := { s with fabric := { s.fabric with reqs := KList.del s.fabric.reqs key } }

/-- Whether a node has been decided FAILED. -/
def Node.isFailed (s : Node) (n : Nat) : Bool := (s.member n).state == 7

/-! ## Posted writes of the node engines -/

/-- Bytes in pieces of at most 512, with their offsets (12 Table 12.1). -/
def writePieces : Nat → Nat → Bytes → List (Nat × Bytes)
  | 0, _, _ => []
  | _, _, [] => []
  | fuel + 1, a, b => (a, b.take 512) :: writePieces fuel (a + 512) (b.drop 512)

/-- 12 R377-R379: a posted write of the node engines fails at this node. -/
def Node.failPost (s : Node) (key : Nat) (r : Request) (code cause : Nat) : Node :=
  (s.dropReq key).ledger (s.ledgerBase code (key % 16384 + 16384 * (key / 16384)) r) cause r

/-- A free tag of an issuer class, as the key of a request (12 R366). -/
def Node.freeTag (s : Node) (cls : Nat) : Option Nat :=
  KList.firstFree (s.fabric.reqs.filter fun r => decide (cls * 16384 ≤ r.1 ∧ r.1 < (cls + 1) * 16384)) 16384 (cls * 16384)

/-- 12 R366, R376, R378: a posted write of the node engines is sent, by a given port or as the route table says, or fails at
once; none where no tag of their class is free. -/
def Node.postWrite (s : Node) (by' : Option Nat) (dst addr : Nat) (b : Bytes) : Option Node :=
  (s.freeTag 2).map fun key =>
    let via := match by' with
      | some p => some p
      | none => s.route dst addr
    let r : Request := { ptype := 5, dst := dst, job := 0, addr := addr, len := b.length, issued := s.clk, acc := none, thr := 0, owner := sysOwner,
                         via := via }
    let s := { s with fabric := { s.fabric with reqs := KList.put s.fabric.reqs key r } }
    let k := s.packet 5 dst 0 (key % 16384) 2 addr b
    if s.isFailed dst then s.failPost key r 0x0603 1
    else match via with
      | some p => s.sendOn p k
      | none => s.failPost key r 0x0606 2

/-- Posted writes leave in order, as far as there are tags. -/
def Node.postAll (s : Node) : List (Nat × Nat × Bytes) → Node
  | [] => s
  | w :: t => match s.postWrite none w.1 w.2.1 w.2.2 with
    | some s => s.postAll t
    | none => { s with fabric := { s.fabric with outbox := w :: t } }

/-- The same by given ports, to their neighbours. -/
def Node.postPorts (s : Node) : List (Nat × Nat × Bytes) → Node
  | [] => s
  | w :: t => match s.postWrite (some w.1) (s.port w.1).nbr w.2.1 w.2.2 with
    | some s => s.postPorts t
    | none => { s with fabric := { s.fabric with portOut := w :: t } }

/-- What the node engines have for the node ports of other nodes leaves. -/
def Node.sendOutbox (s : Node) : Node :=
  let l := s.fabric.outbox.flatMap fun w => (writePieces (w.2.2.length + 1) w.2.1 w.2.2).map fun p => (w.1, p.1, p.2)
  let s := ({ s with fabric := { s.fabric with outbox := [] } }).postAll l
  ({ s with fabric := { s.fabric with portOut := [] } }).postPorts s.fabric.portOut

end Sys2Proof.Machine
end

