-- ==== Sys2Proof/Machine/Finish.lean ====
section
/-! DEFINITION. How a command ends: the queue is as it was, the waits that its effect serves are over, and the node engines'
writes leave. -/

namespace Sys2Proof.Machine

/-- The outcome of a command: the node changed, the queue as it was. -/
def State.next (s : State) (n : Node) : Result := .next { s with node := n.tidy }

/-- Local memory of a thread (06 R176). -/
def Thread.localRead (t : Thread) (a n : Nat) : Bytes := cellRead t.sram a n
/-- 07 R206: the size of the filter state at a local offset. -/
def Thread.filterSize (t : Thread) (off : Nat) : Nat :=
  let np := leNat (t.localRead (off + 544) 1)
  let sets := (List.range (min 16 np)).filterMap fun i =>
    if leNat (t.localRead (off + 32 * i) 1) == 4 then some (leNat (t.localRead (off + 32 * i + 4) 1) + 1) else none
  576 + 1024 * maxN sets

/-- Bytes written to local memory; a write into the filter state makes it no longer valid (07 R206). -/
def Thread.localWrite (t : Thread) (a : Nat) (b : Bytes) : Thread :=
  let hit := match t.filterAt with
    | some o => decide (a < o + t.filterSize o ∧ o < a + b.length)
    | none => false
  { t with sram := cellWrite t.sram a b, filterAt := if hit then none else t.filterAt }

/-- The threads that wait in `Q.POP` (07 R230), in the order in which they began to wait (07 R233). -/
def Node.poppers (s : Node) : List Nat :=
  let l := s.spokes.threads.filterMap fun (p : Nat × Thread) => match p.2.wait with
    | some (.pop _ _ since _) => some (since, p.1)
    | _ => none
  (sortBy (fun (a b : Nat × Nat) => decide (a.1 ≤ b.1)) l).map (·.2)

/-- 07 R230: the slots of the oldest item of a ring that threads read; 0 when there is none. -/
def Node.popSlots (s : Node) (q : Nat) : Nat :=
  let x := s.queue q
  if x.used = 0 then 0 else KList.getD x.pushed x.head 1 % 65536

/-- 07 R230: a thread takes the oldest item of a queue. -/
def Node.popInto (s : Node) (n : Nat) (t : Thread) (q dst rd : Nat) : Node :=
  let c := s.qcfg q
  let x := s.queue q
  let k := s.popSlots q
  let b := (List.range k).flatMap fun i => s.read c.owner (s.reg .qbase q + 128 * (((x.head + i) % 65536) % c.n)) 128
  let s := s.setQueue q { x with head := (x.head + k) % 65536, pushed := KList.del x.pushed x.head }
  s.setThread n ((t.localWrite dst b).retire rd (BitVec.ofNat 64 (k * 2 ^ 16)) 0)

/-- One waiting pop served where its queue holds an item. -/
def Node.servePop (s : Node) (n : Nat) : Node :=
  match s.thread n with
  | some t => match t.wait with
    | some (.pop q dst _ _) =>
      if s.popSlots q = 0 then s
      else if 4096 * t.lsize < dst + 128 * s.popSlots q then s.threadFault n t.pc 0x0164 (s.instrAt t.pc) dst
      else s.popInto n t q dst t.waitRd
    | _ => s
  | none => s

/-- 07 R234: a semaphore or counter serves its waiters, where one of them has gone. -/
def Node.serveSync (s : Node) (i : Nat) (x : Sync) : Node := if x.type == 0 || x.type == 3 then s.settleSem i x x.value else s

/-- Every semaphore and counter that threads wait on. -/
def Node.serveSyncs (s : Node) : Node := (s.qsy.syncs.filter fun p => !p.2.waiters.isEmpty).foldl (fun s p => s.serveSync p.1 p.2) s

/-- The waits that can end are over, and what the node engines have for other nodes leaves. -/
def Node.settle (s : Node) : Node := ((s.poppers.foldl Node.servePop s).serveSyncs).sendOutbox

/-- The outcome of a command whose effect may serve threads that wait, or send to other nodes. -/
def State.settled (s : State) (n : Node) : Result := s.next n.settle

end Sys2Proof.Machine
end

