-- ==== Sys2Proof/Machine/Items.lean ====
section
/-! DEFINITION. Items that run on the management cores (13 R428): the head of a queue's line, and its completion. -/

namespace Sys2Proof.Machine

/-- An item of queue q that has begun waits for its end: a seal, an unmap, a load or an unload. -/
def Node.itemRuns (s : Node) (q : Nat) : Bool :=
  (s.index.seals.any fun r => r.waiters.any fun w => match w with
    | .item a => a.item.q == q
    | .thread _ => false)
  || (s.mem.unmaps.any fun u => (u.item.map (·.item.q)) == some q) || s.cas.slots.any fun p => (p.2.item.map (·.item.q)) == some q

/-- 13 R428: the item that queue q runs next, where it has the OP named: items of a queue run one at a time. -/
def Node.mHead (s : Node) (q op : Nat) : Option Admitted :=
  match (s.queue q).mItems with
  | a :: _ => if a.item.op == op && s.dataUp && !s.itemRuns q then some a else none
  | [] => none

/-- The item of queue q is no more at the head of its line. -/
def Node.popM (s : Node) (q : Nat) : Node :=
  let x := s.queue q
  s.setQueue q { x with mItems := x.mItems.drop 1 }

/-- The item of queue q completes. -/
def Node.doneM (s : Node) (q : Nat) (a : Admitted) (d : Done) : Node := (s.popM q).finish a d

/-- The item of queue q that a command runs: its effect, or no effect where the item is another one. -/
def State.runM (s : State) (q op : Nat) (f : Admitted → Node) : Result :=
  match s.node.mHead q op with
  | some a => s.settled (f a)
  | none => s.next s.node

/-- The role of the queue that an item came by: 0 tenant, 1 operator, 2 installer. -/
def Node.roleOfItem (s : Node) (a : Admitted) : Nat := (s.qcfg a.item.q).role

/-- The owner that an item names: a tenant's own, or what the operator writes. -/
def Node.itemOwner (s : Node) (i : Item) (tid : Nat) (sys : Bool) : Nat :=
  if (s.qcfg i.q).role == 0 then (s.qcfg i.q).owner else if sys then sysOwner else tid % 1024

end Sys2Proof.Machine
end

