-- ==== Sys2Proof/Machine/Tiers.lean ====
section
/-! DEFINITION. Regions, the derailleur and replicas (09). -/

namespace Sys2Proof.Machine

/-! ## Where a byte is -/

/-- The move of a region, in progress or ended on a failed lender. -/
def Node.moveOf (s : Node) (owner region : Nat) : Option (Nat × Move) :=
  List.find? (fun (p : Nat × Move) => p.2.owner == owner && p.2.region == region) s.mem.moves

/-- The chunk of an address in its region. -/
def chunkOf (addr : Nat) : Nat := addr % 2097152 / 65536

/-- 09 R287: whether a byte's chunk is at its move's destination. -/
def Node.atDst (s : Node) (owner addr : Nat) : Option Move :=
  match s.moveOf owner (regionOf addr) with
  | some (_, m) => if bitAt m.atDst (chunkOf addr) then some m else none
  | none => none

/-- 09 R287: the tier that serves a byte: 0 where its region is UNMAPPED. -/
def Node.tierAt (s : Node) (owner addr : Nat) : Nat :=
  match s.region owner (regionOf addr) with
  | none => 0
  | some r => match s.atDst owner addr with
    | some m => m.tier
    | none => r.tier

/-- `LOC` of the region that serves a byte, or of its move's destination (09 R287). -/
def Node.locAt (s : Node) (owner addr : Nat) : Nat :=
  match s.atDst owner addr, s.region owner (regionOf addr) with
  | some m, _ => m.loc
  | none, some r => r.loc
  | none, none => 0

/-- 09 R290: whether a byte is lost with its lender. -/
def Node.lostAt (s : Node) (owner addr : Nat) : Bool :=
  match s.region owner (regionOf addr) with
  | none => false
  | some r => bitAt r.rfl 5 && (s.atDst owner addr).isNone

/-! ## Region items (09 R271-R273) -/

/-- The regions of a region item. -/
def itemRegions (i : Item) : List Nat := regionRange (i.arg 0 % 2 ^ 27) i.count

/-- The owner of a region item. -/
def Node.regionItemOwner (s : Node) (i : Item) : Nat := s.itemOwner i (fld (i.arg 1) 0 10) (bitAt (i.arg 1) 10)

/-- 09 R272: one region mapped: HBM, POOL, FLASH, in this order; none when no tier takes it. -/
def Node.mapRegion (s : Node) (owner r rfl : Nat) : Option Node :=
  ([2, 3, 4].find? fun t => s.hasRoom owner t 0).map fun t =>
    (s.zeroRegion owner r t (s.freeLoc t 0)).setRegion owner r
      { tier := t, rfl := rfl, heat := 0, home := 0, move := 0, epoch := 0, loc := s.freeLoc t 0, count := 0 }

def Node.mapRegions (s : Node) (owner rfl : Nat) : List Nat → Option Node
  | [] => some s
  | r :: t => (s.mapRegion owner r rfl).bind fun s => s.mapRegions owner rfl t

/-- 09 R274: leaves that mapping regions takes. -/
def Node.newLeaves (s : Node) (owner : Nat) (rs : List Nat) : Nat :=
  ((rs.map (· / 8192)).dedup.filter fun l => !(s.leavesOf owner).contains l).length

/-- 09 R272: a REGION_MAP: its code, and the state it leaves. -/
def Node.regionMap (s : Node) (owner rfl : Nat) (rs : List Nat) : Nat × Node :=
  if rs.any fun r => (s.region owner r).isSome || s.index.objs.any fun o => o.owner == owner && overlaps (r * 2097152) 2097152 o.addr o.size then (0x0190, s)
  else if 4096 < s.leaves + s.newLeaves owner rs || s.fsFull owner 26 12 ((s.leavesOf owner).length + s.newLeaves owner rs - 1) then (0x0351, s)
  else match s.mapRegions owner rfl rs with
    | some s => (0, s)
    | none => (0x0350, s)

/-- REGION_MAP (09 R272). -/
def execRegionMap (q : Fin 8192) (s : State) : Result :=
  s.runM q 0x28 fun a =>
    let rs := itemRegions a.item
    let r := s.node.regionMap (s.node.regionItemOwner a.item) (fld (a.item.arg 2) 0 3) rs
    r.2.doneM q a (done r.1 (if r.1 = 0 then rs.length else 0))

/-- Whether every region of a range is mapped, and none is the node's own for stored objects (notes/assumptions/24.md). -/
def Node.allOf (s : Node) (owner : Nat) (rs : List Nat) : Bool := rs.all fun r => (s.region owner r).isSome && !s.nodeRegion owner r

/-- REGION_UNMAP (09 R273): checked, and the unmap begins. -/
def execRegionUnmap (q : Fin 8192) (s : State) : Result :=
  s.runM q 0x29 fun a =>
    let n := s.node
    let rs := itemRegions a.item
    let o := n.regionItemOwner a.item
    if !n.allOf o rs then n.doneM q a (done 0x0190)
    else if rs.isEmpty then n.doneM q a (done 0)
    else
      let n := n.popM q
      { n with mem := { n.mem with unmaps := n.mem.unmaps ++ [{ owner := o, regions := rs, item := some a }] } }

/-- 09 R273: a region's storage is discarded or zeroed, and the region is UNMAPPED. -/
def Node.unmapRegion (s : Node) (owner r : Nat) : Node :=
  let x := s.region owner r
  let ext := (match x with
    | some d => if d.tier == 4 then [d.loc] else []
    | none => []) ++ (match KList.find? s.flash.shadow (owner * 2 ^ 27 + r) with
    | some e => [e]
    | none => [])
  let s := if s.flash.readOnly then s else ext.foldl Node.discardExtent s
  let s := { s with mem := { s.mem with moves := s.mem.moves.filter fun m => !(m.2.owner == owner && m.2.region == r) } }
  s.freeRegion owner r

/-- The bytes that a table operation writes at its destination. -/
def TabOp.outSize (o : TabOp) : Nat :=
  if o.kind = 0 then (o.count - 1) * o.desc.outStride o.fmt + (gatherRow o.desc o.fmt []).length else 4 * o.desc.elems

/-- The stretches that a table operation in flight has still to read or write: its rows, and its destination. -/
def TabOp.touches (o : TabOp) : List (Nat × Nat) :=
  (((List.range o.count).filter fun i => (KList.find? o.rows i).isNone).map fun i =>
    (o.desc.base + o.indices.getD i 0 * o.desc.rstride, o.desc.rstride))
  ++ (if o.kind < 2 && !o.dstLocal then [(o.dst, o.outSize)] else [])

/-- The stretch of this node's memory that an access reaches: by its owner's address, or through this node's windows. -/
def Node.accessPlace (s : Node) (a : Access) : Nat × Nat :=
  if !bitAt a.addr 63 then (a.owner, a.addr)
  else
    let off := a.addr % 2 ^ 48
    match List.find? (fun (w : Nat × Window) => fld a.addr 48 15 == s.dev.node && w.2.job == a.job.getD 0
        && decide (w.2.gbase ≤ off ∧ off < w.2.gbase + w.2.len * 2097152)) s.fabric.windows with
    | some w => (if w.2.sys then sysOwner else w.2.tid, w.2.lbase + (off - w.2.gbase))
    | none => (noTid, 0)

/-- 09 R273: no access to a region is in flight (of a thread, a row engine or a CXL.mem host), and no move of it is in
progress. -/
def Node.quiet (s : Node) (owner r : Nat) : Bool :=
  !(s.spokes.accesses.any fun a => let p := s.accessPlace a.2; p.1 == owner && regionOf p.2 == r)
  && !(s.store.ops.any fun o => o.2.owner == owner && o.2.touches.any fun p => overlaps (r * 2097152) 2097152 p.1 p.2)
  && !(s.store.cxlWaits.any fun w => w.2.owner == owner && overlaps (r * 2097152) 2097152 w.2.addr w.2.len)
  && !(s.mem.moves.any fun m => decide (m.1 < 64) && m.2.owner == owner && m.2.region == r)

/-- A waiting unmap has one region less; the last ends its item with the records done. -/
def Node.unmapStep (s : Node) (u : Unmap) (r : Nat) : Node :=
  let rest := u.regions.filter (· != r)
  let us := s.mem.unmaps.filter (· != u)
  if rest.isEmpty then
    let s := { s with mem := { s.mem with unmaps := us } }
    match u.item with
    | some a => s.finish a (done 0 a.item.count)
    | none => s
  else { s with mem := { s.mem with unmaps := us ++ [{ u with regions := rest }] } }

/-- 10 R325: the map share has room for the deltas of a region's discards. -/
def Node.discardRoom (s : Node) (owner r : Nat) : Bool :=
  let ext := (match s.region owner r with
    | some d => if d.tier == 4 then [d.loc] else []
    | none => []) ++ (KList.find? s.flash.shadow (owner * 2 ^ 27 + r)).toList
  decide (s.mapBytes + 64 * (s.flash.map.filter fun p => ext.contains (p.1 / 128)).length ≤ mapShare)

/-- 09 R273: the end of the unmap of one region. -/
def execRegionUnmapComplete (owner region : Nat) (s : State) : Result :=
  let n := s.node
  match n.mem.unmaps.find? fun u => u.owner == owner && u.regions.contains region with
  | some u => if n.quiet owner region && n.dataUp && n.discardRoom owner region then s.settled ((n.unmapRegion owner region).unmapStep u region) else s.next n
  | none => s.next n

/-- 09 R271: bits set and cleared over a range. -/
def Node.flagRegions (s : Node) (owner set clear : Nat) (rs : List Nat) : Node :=
  rs.foldl (fun s r => match s.region owner r with
    | some x => s.setRegion owner r { x with rfl := (x.rfl ||| set) - ((x.rfl ||| set) &&& clear) }
    | none => s) s

/-- 09 R277: whether every tile still fits its limit, where its use has grown. -/
def Node.tilesFit (old new : Node) : Bool :=
  (List.range 8).all fun t => decide (new.tileUse t ≤ old.tileUse t) || decide (new.tileUse t ≤ old.tileLimit t)

/-- REGION_FLAG (09 R271, R273). A `REPL` for whose copies the tiles have no room is `TIER_QUOTA` (09 R277). -/
def execRegionFlag (q : Fin 8192) (s : State) : Result :=
  s.runM q 0x2A fun a =>
    let n := s.node
    let rs := itemRegions a.item
    let o := n.regionItemOwner a.item
    let m := n.flagRegions o (fld (a.item.arg 2) 0 3) (fld (a.item.arg 3) 0 3) rs
    if !n.allOf o rs then n.doneM q a (done 0x0190)
    else if !n.tilesFit m then n.doneM q a (done 0x0350)
    else m.doneM q a (done 0 rs.length)

/-! ## The derailleur (09 R281-R287) -/

/-- 09 R281: every access adds 1 to a region's count; when it wraps, HEAT rises and HOME[5:3] names the tile. `k` accesses. -/
def Node.touchRegion (s : Node) (owner addr tile : Nat) (k : Nat := 1) : Node :=
  match s.region owner (regionOf addr) with
  | none => s
  | some r =>
    let c := r.count + k
    s.setRegion owner (regionOf addr)
      (if 4096 ≤ c then { r with count := c % 4096, heat := min 255 (r.heat + c / 4096), home := r.home % 8 + 8 * (tile % 8) }
      else { r with count := c })

/-- Hottest first, then by TID and region. -/
def hotter (a b : Nat × Nat × Region) : Bool :=
  decide (b.2.2.heat < a.2.2.heat)
  || (a.2.2.heat == b.2.2.heat && (decide (a.1 < b.1) || (a.1 == b.1 && decide (a.2.1 ≤ b.2.1))))

/-- 09 R283: the tier that a candidate is promoted to. -/
def Node.promoteTo (s : Node) (owner : Nat) (r : Region) : Option Nat :=
  match s.tierAbove owner r.tier with
  | some 1 => if r.tier == 2 then some 1 else none
  | t => t

/-- 09 R283: one candidate. -/
def Node.promote (s : Node) (owner region : Nat) (r : Region) : Node :=
  match s.promoteTo owner r with
  | none => s
  | some t =>
    let tile := fld r.home 3 3
    if s.hasRoom owner t tile (bitAt r.rfl 1) then s.startMove owner region t tile
    else match s.coldest fun o _ x => o == owner && x.tier == t with
      | c :: _ => if c.2.2.heat < r.heat then s.demote owner c.2.1 else s
      | [] => s

/-- 09 R281: every HEAT halved. -/
def Node.halveHeat (s : Node) : Node :=
  let f : Nat → Region → Region := fun _ r => { r with heat := r.heat / 2 }
  { s with mem := { s.mem with regions := KList.mapVals (fun _ l => KList.mapVals f l) s.mem.regions } }

/-- 09 R283: the candidates of an epoch end. -/
def Node.candidates (s : Node) : List (Nat × Nat × Region) :=
  let promo := fld (s.reg .drlCfg) 16 8
  (sortBy hotter (s.allRegions.filter fun r => decide (promo ≤ r.2.2.heat) && r.2.2.movable && r.2.2.tier != 1)).take 64

/-- 09 R290: stopped moves are tried again. -/
def Node.retryMoves (s : Node) : Node :=
  { s with mem := { s.mem with moves := KList.mapVals (fun k (m : Move) => if k < 64 then { m with stopped := none } else m) s.mem.moves } }

/-- What an epoch end does. -/
def Node.epochEnd (s : Node) : Node :=
  let s := s.halveHeat.retryMoves.evacuate
  let s := s.tenants.foldl Node.demoteQuota s
  let s := s.candidates.foldl (fun s c => s.promote c.1 c.2.1 c.2.2) s
  { s with mem := { s.mem with lastEpoch := s.clk } }

/-- 09 R281, R283: the end of an epoch of `EPOCH_MS`. -/
def execDerailleurEpoch (s : State) : Result :=
  let n := s.node
  s.next (if n.passed n.mem.lastEpoch (1000 * fld (n.reg .drlCfg) 24 8) && n.dataUp then n.epochEnd else n)

/-- Moves that will leave a tier. -/
def Node.leavingAll (s : Node) (tier : Nat) : Nat :=
  (s.allRegions.filter fun r => r.2.2.tier == tier && bitAt r.2.2.rfl 3).length

/-- 09 R284: a tier whose free capacity is below 1/8: its cold regions go one step down. -/
def execCapacityDemotion (tier : Fin 5) (s : State) : Result :=
  let n := s.node
  let cap := n.tierCap tier
  let want := ceilDiv cap 8
  let free := n.tierFree tier
  let demo := fld (n.reg .drlCfg) 8 8
  s.next (if n.fixedSlot || !n.dataUp || decide (cap ≤ 8 * free) then n
    else n.demoteUpTo (want - free - n.leavingAll tier) (n.coldest fun _ _ r => r.tier == tier.val && decide (r.heat ≤ demo)))

/-- 09 R287: a chunk copied to a tier. A chunk that goes to FLASH is programmed unit by unit; none where a unit cannot be. -/
def Node.copyChunk (s : Node) (m : Move) (c : Nat) : Option Node :=
  if m.tier == 4 then
    if s.flashWriteCode m.owner != 0 then none
    else (List.range 4).foldl (fun (o : Option Node) i => o.bind fun s =>
      if s.mapRoom then s.programUnit m.owner m.region (m.loc * 128 + 4 * c + i) else none) (some s)
  else if m.tier == 3 then
    let addr := m.region * 2097152 + c * 65536
    if s.linesSpent m.loc addr 65536 then none else some (s.sealLines m.owner m.loc addr 65536)
  else some s

/-- 09 R287: the descriptor switch of a move whose 32 chunks are at destination. -/
def Node.switchMove (s : Node) (k : Nat) (m : Move) : Node :=
  let s' := { s with mem := { s.mem with moves := KList.del s.mem.moves k, moveCnt := s.mem.moveCnt + 1 } }
  let s' := if m.rehash then s'.loseLines m.owner m.region m.loc else s'
  match s.region m.owner m.region with
  | none => s'
  | some r =>
    let home := if m.tier == 1 then r.home / 8 * 8 + m.loc / 2 ^ 32 % 8 else r.home
    let r' := { r with tier := m.tier, loc := m.loc, home := home,
                       epoch := (r.epoch + 1) % 65536, rfl := r.rfl - (r.rfl &&& 8), move := 0 }
    let s' := s'.setRegion m.owner m.region r'
    if r.tier == 4 && m.tier != 4 then s'.discardExtent r.loc else s'

/-- 09 R287: the next chunk of a move is committed. -/
def execChunkCommit (move : Nat) (s : State) : Result :=
  let n := s.node
  match KList.find? n.mem.moves move with
  | none => s.next n
  | some m =>
    if 64 ≤ move || m.stopped.isSome || !n.dataUp then s.next n
    else match (List.range 32).find? fun c => !bitAt m.atDst c with
      | none => s.next n
      | some c =>
        match n.copyChunk m c with
        | none => s.next n
        | some n =>
          let m' := { m with atDst := m.atDst ||| 2 ^ c }
          let n := { n with mem := { n.mem with moves := KList.put n.mem.moves move m' } }
          s.next (if m'.atDst = 2 ^ 32 - 1 then n.switchMove move m' else n)

/-- 09 R290: a region whose lender has failed: LOST, and its move has ended; what is at the destination stays there. -/
def Node.loseRegion (s : Node) (owner region : Nat) : Node :=
  match s.region owner region with
  | none => s
  | some r =>
    let s := s.setRegion owner region { r with rfl := (r.rfl ||| 32) - (r.rfl &&& 8), move := 0 }
    match s.moveOf owner region with
    | some (k, m) => { s with
        mem := { s.mem with moves := KList.put (KList.del s.mem.moves k) (64 + s.nextId) { m with stopped := some 0x0B02 } },
        nextId := s.nextId + 1 }
    | none => s

/-- 09 R290: a move whose source cannot be read: it stops until the next epoch, or, when its lender has failed, for good. -/
def execMoveStop (move code : Nat) (s : State) : Result :=
  let n := s.node
  match KList.find? n.mem.moves move with
  | none => s.next n
  | some m =>
    let pool := ((n.region m.owner m.region).map (·.tier)) == some 3
    s.next (if 64 ≤ move || !n.dataUp then n
      else if code == 0x0B02 && pool then n.loseRegion m.owner m.region
      else { n with mem := { n.mem with moves := KList.put n.mem.moves move { m with stopped := some code } } })

/-! ## Replicas (09 R294, R295) -/

/-- The replicated range that holds a region. -/
def Node.replOf (s : Node) (owner region : Nat) : Option Repl :=
  s.peloton.repls.find? fun r => r.owner == owner && decide (r.first ≤ region ∧ region < r.first + r.count)

/-- This node is a replica of a region. -/
def Node.isReplica (s : Node) (owner region : Nat) : Bool :=
  match s.replOf owner region with
  | some r => r.primary != s.dev.node && r.replicas.contains s.dev.node
  | none => false

def Node.replica (s : Node) (owner first : Nat) : Replica :=
  (s.mem.replicas.find? fun r => r.owner == owner && r.region == first).getD { owner := owner, region := first, applied := 0, served := 0, rows := [] }

def Node.setReplica (s : Node) (x : Replica) : Node :=
  { s with mem := { s.mem with replicas := x :: s.mem.replicas.filter fun r => !(r.owner == x.owner && r.region == x.region) } }

/-- `STALE` of a region. -/
def Node.setStale (s : Node) (owner region : Nat) (b : Bool) : Node :=
  match s.region owner region with
  | some r => s.setRegion owner region { r with rfl := r.rfl - (r.rfl &&& 16) + (if b then 16 else 0) }
  | none => s

/-- 09 R294, R295: the primary's next write applied, or passed over where `skip` says so; `STALE` clears once everything
served has been applied. -/
def Node.replicaApply (s : Node) (owner addr seq : Nat) (data : Bytes) (skip : Bool) : Node :=
  match s.replOf owner (regionOf addr) with
  | none => s
  | some r =>
    let x := s.replica owner r.first
    if s.isReplica owner (regionOf addr) && seq == x.applied + 1 && s.dataUp then
      let s := (if skip then s else s.write owner addr data).setReplica { x with applied := seq }
      if x.served ≤ seq then (regionRange r.first r.count).foldl (fun s g => s.setStale owner g false) s else s
    else s

/-- REPLICA_WRITE_APPLY (09 R294, R295). -/
def execReplicaWriteApply (owner addr seq : Nat) (data : Bytes) (s : State) : Result :=
  s.next (s.node.replicaApply owner addr seq data false)

/-- 09 R295: a replica that is more than `LAG_US` behind. -/
def execReplicaLagExceeded (owner region : Nat) (s : State) : Result :=
  s.next (if s.node.isReplica owner region then s.node.setStale owner region true else s.node)

end Sys2Proof.Machine
end

