-- ==== Sys2Proof/Machine/Access.lean ====
section
/-! DEFINITION. Unified accesses (06 R177-R185, R190, R191; 09 R274, R289-R295): what a load, a store and an atomic do
where they are served, and how an outstanding access ends. -/

namespace Sys2Proof.Machine

/-! ## Access at its place -/

/-- 09 R274, R290, R294; 10 R322; 14 R444; 16 R506: the code of an access to tenant-local bytes that are served on this node, 0 for
none. -/
def Node.memCode (s : Node) (owner addr n : Nat) (wr : Bool) : Nat :=
  match s.region owner (regionOf addr) with
  | none => 0x0190
  | some r =>
    if wr && (bitAt r.rfl 0 || s.isReplica owner (regionOf addr)) then 0x0191
    else if s.lostAt owner addr then 0x0B02
    else if wr then
      (if s.tierAt owner addr == 4 then s.flashWriteCode owner
       else if s.tierAt owner addr == 3 && s.linesSpent (s.locAt owner addr) addr n then 0x0902 else 0)
    else (s.poisonAt owner addr n).getD 0

/-- The code of an atomic, which reads what it changes (06 R191, R194). -/
def Node.amoCode (s : Node) (owner addr n : Nat) : Nat :=
  match s.memCode owner addr n true with
  | 0 => (s.poisonAt owner addr n).getD 0
  | c => c

/-- The parts of a stretch by region. -/
def regionParts (addr n : Nat) : List (Nat × Nat) :=
  let first := addr / 2097152
  (List.range ((addr + max 1 n - 1) / 2097152 - first + 1)).map fun i =>
    let lo := max addr ((first + i) * 2097152)
    (lo, min (addr + n) ((first + i + 1) * 2097152) - lo)

/-- The code of a read of a stretch that may span regions: that of its first region that fails. -/
def Node.rangeCode (s : Node) (owner addr n : Nat) : Nat :=
  (((regionParts addr n).map fun p => s.memCode owner p.1 p.2 false).find? (· != 0)).getD 0

/-- 09 R293: the journal lines that a store takes; none for a store that FLASH does not serve. -/
def Node.storeLines (s : Node) (owner addr : Nat) (data : Bytes) (mask : Nat) : List JRec :=
  if s.tierAt owner addr == 4 then
    match s.region owner (regionOf addr) with
    | some r =>
      let loc := match s.atDst owner addr with
        | some m => m.loc
        | none => r.loc
      (linesOf loc addr data).map fun (l : JRec) => { l with
        payload := natLe 8 (if data.length = 64 then getLe l.payload 0 8 &&& mask else getLe l.payload 0 8) ++ l.payload.drop 8 }
    | none => []
  else []

/-- 09 R293: the journal has room for a store. -/
def Node.storeRoom (s : Node) (owner addr n : Nat) : Bool :=
  s.tierAt owner addr != 4 || s.dataLeft owner (128 * (ceilDiv n 64 + 1))

/-- 12 R398: a completed write of the primary goes to the replicas. -/
def Node.replicate (s : Node) (owner addr : Nat) (data : Bytes) : Node :=
  match s.replOf owner (regionOf addr) with
  | none => s
  | some r =>
    if r.primary != s.dev.node then s
    else
      let r' := { r with seq := r.seq + 1 }
      let s := { s with peloton := { s.peloton with repls := s.peloton.repls.map fun x => if x == r then r' else x } }
      r.replicas.foldl (fun s n => s.emit (.replica n owner addr r'.seq data)) s

/-- Lines that a write covers whole hold no poison any more (notes/assumptions/17.md). -/
def Node.cleanLines (s : Node) (owner addr n : Nat) : Node :=
  let k := memKey owner addr
  { s with mem := { s.mem with poison := s.mem.poison.filter fun c => !decide (k ≤ 64 * c.1 ∧ 64 * c.1 + 64 ≤ k + n) } }

/-- What a store leaves at its place: the bytes whose mask bit is 1 are its own. -/
def Node.storeBytes (s : Node) (owner addr : Nat) (data : Bytes) (mask : Nat) : Bytes :=
  let old := s.read owner addr data.length
  (List.range data.length).map fun i => if bitAt mask i then data.getD i 0 else old.getD i 0

/-- A store takes effect on this node's own copy. -/
def Node.storeHere (s : Node) (owner addr : Nat) (data : Bytes) (mask : Nat) : Node :=
  let lines := s.storeLines owner addr data mask
  let s := lines.foldl Node.stage (s.write owner addr (s.storeBytes owner addr data mask))
  let s := if s.tierAt owner addr == 3 then s.sealLines owner (s.locAt owner addr) addr data.length else s
  if mask % 2 ^ data.length == 2 ^ data.length - 1 then s.cleanLines owner addr data.length else s

/-- A store takes effect: on this node, and, where this node holds the primary copy, on the replicas. -/
def Node.storeAt (s : Node) (owner addr : Nat) (data : Bytes) (mask : Nat) : Node :=
  (s.storeHere owner addr data mask).replicate owner addr (s.storeBytes owner addr data mask)

/-- All bytes of a store. -/
def allBytes (n : Nat) : Nat := 2 ^ n - 1

/-! ## Atomics (06 R191, Table 6.10) -/

def amoWidth (fn : Nat) : Nat := if fn / 16 % 2 = 1 then 8 else 4

/-- The new value; `b` is the operand, `c` what CAS compares. -/
def amoNew (fn old b c : Nat) : Nat :=
  let w := 8 * amoWidth fn
  let b := b % 2 ^ w
  let sg := fun (x : Nat) => toSigned w x
  match fn % 16 with
  | 0 => (old + b) % 2 ^ w
  | 1 => old &&& b
  | 2 => old ||| b
  | 3 => old ^^^ b
  | 4 => b
  | 5 => if sg b < sg old then b else old
  | 6 => if sg old < sg b then b else old
  | 7 => min old b
  | 8 => max old b
  | 9 => if old = c % 2 ^ w then b else old
  | _ => fAdd .f32 old b

/-- Whether Table 6.10 has a function. -/
def amoOk (fn : Nat) : Bool := decide (fn < 32) && (decide (fn % 16 ≤ 9) || fn == 10)

/-- The atomic runs at its place: the old value, and the state after. -/
def Node.amoAt (s : Node) (owner addr fn b c : Nat) : Nat × Node :=
  let n := amoWidth fn
  let old := s.readLe owner addr n
  (old, s.storeAt owner addr (natLe n (amoNew fn old b c)) (allBytes n))

/-! ## Results -/

/-- A vector register written with its poison bit. -/
def Thread.setV (t : Thread) (n : Nat) (v : V512) (poison : Bool := false) : Thread :=
  { t with v := KList.put t.v n v, vPoison := if poison then n :: t.vPoison.filter (· != n) else t.vPoison.filter (· != n) }

/-- 06 Table 6.10: what a scalar load of `FN` writes. -/
def loadBits (fn : Nat) (b : Bytes) : W64 :=
  match fn with
  | 0 => BitVec.ofInt 64 (toSigned 8 (getLe b 0 1))
  | 1 => BitVec.ofNat 64 (getLe b 0 1)
  | 2 => BitVec.ofInt 64 (toSigned 16 (getLe b 0 2))
  | 3 => BitVec.ofNat 64 (getLe b 0 2)
  | 4 => BitVec.ofInt 64 (toSigned 32 (getLe b 0 4))
  | 5 => BitVec.ofNat 64 (getLe b 0 4)
  | _ => BitVec.ofNat 64 (getLe b 0 8)

/-- 06 R190: the bytes whose mask bit is 0 are 0. -/
def maskBytes (mask : Nat) (b : Bytes) : V512 :=
  BitVec.ofNat 512 (leNat ((List.range 64).map fun i => if bitAt mask i then b.getD i 0 else 0))

/-- 06 R191: the old value of an atomic, sign-extended. -/
def amoResult (fn old : Nat) : W64 := BitVec.ofInt 64 (toSigned (8 * amoWidth fn) old)

/-- The result of a load or an atomic in its register. -/
def Thread.setDst (t : Thread) (d : Dst) (fn mask : Nat) (amo : Bool) (b : Bytes) : Thread :=
  match d with
  | .none => t
  | .s n => t.setS n (if amo then amoResult fn (leNat b) else loadBits fn b)
  | .v n => t.setV n (maskBytes mask b)

/-! ## The end of an outstanding access -/

def Node.acc (s : Node) (id : Nat) : Option Access := KList.find? s.spokes.accesses id

/-- An access is no more outstanding. -/
def Node.endAccess (s : Node) (id : Nat) : Node := { s with spokes := { s.spokes with accesses := KList.del s.spokes.accesses id } }

/-- A load or an atomic ends with its bytes. -/
def Node.giveAccess (s : Node) (id : Nat) (a : Access) (b : Bytes) : Node :=
  let s := s.endAccess id
  match s.thread a.thr with
  | some t => s.setThread a.thr (t.setDst a.dst a.fn a.mask (a.kind == 2) b)
  | none => s

/-- 06 R185: a failure that `X` keeps from faulting: 0, the poison bit, `SR_LSTAT`. -/
def Thread.poisonDst (t : Thread) (d : Dst) (code : Nat) : Thread :=
  { (match d with
    | .none => t
    | .s n => t.setS n 0 true
    | .v n => t.setV n 0 true) with lstat := code }

/-- An access ends with a failure: poison under R185, a code returned where an instruction of 07 made the store (07 R200), else
a fault of its instruction (06 R184). A posted store's failure goes to the ledger only. -/
def Node.failAccess (s : Node) (id : Nat) (a : Access) (code : Nat) : Node :=
  let s := s.endAccess id
  let s := if code == 0x0B01 then s.tmo a.owner else s
  match s.thread a.thr with
  | none => s
  | some t =>
    if a.kind == 1 && a.x then s
    else if a.hold && decide (0x500 ≤ code ∧ code < 0xC00) then s.setThread a.thr { t with lstat := code }
    else if a.kind != 1 && a.x && decide (0x500 ≤ code ∧ code < 0xC00) then s.setThread a.thr (t.poisonDst a.dst code)
    else s.threadFault a.thr a.pc code a.word a.addr

/-- 09 R291: a stalled access counts under its cause. -/
def Node.stallCause (s : Node) (owner addr : Nat) : Node :=
  match s.region owner (regionOf addr) with
  | none => s
  | some r =>
    if bitAt r.rfl 3 then s.stall owner 0
    else if bitAt r.rfl 4 && s.isReplica owner (regionOf addr) then s.stall owner 3
    else match r.tier with
      | 2 => s.stall owner 1
      | 3 => s.stall owner 3
      | 4 => s.stall owner 2
      | _ => s

/-- 09 R291: an access that was served late is counted. -/
def Node.countStall (s : Node) (owner addr issued : Nat) : Node :=
  if s.passed issued (fld (s.reg .stallCfg) 0 16) && s.clk != issued + 1000 * fld (s.reg .stallCfg) 0 16 then s.stallCause owner addr else s

/-- The tile that a thread is on. -/
def tileOfThr (n : Nat) : Nat := thrHub n / 4

/-- 09 R281, R291: an access that was served counts. -/
def Node.served (s : Node) (owner addr issued tile : Nat) : Node := (s.countStall owner addr issued).touchRegion owner addr tile

/-- The bytes of a read. A STALE replica serves it from the primary (09 R295): what the primary holds is not known here, nor
how many writes it had served, so both are free. -/
def Node.readServed (s : Node) (owner addr n : Nat) : Bytes × Node :=
  match s.region owner (regionOf addr), s.replOf owner (regionOf addr) with
  | some r, some x =>
    if bitAt r.rfl 4 && s.isReplica owner (regionOf addr) then
      let f := s.free
      let g := f.2.free
      let rep := g.2.replica owner x.first
      (natLe n g.1, g.2.setReplica { rep with served := max rep.served (rep.applied + f.1) })
    else (s.read owner addr n, s)
  | _, _ => (s.read owner addr n, s)

/-! ## Reads of instructions, items and engines (07 R202, 08 R247) -/

/-- 09 R289-R291: whether the tiers serve bytes late: from POOL or FLASH, while their region moves, through a STALE replica. -/
def Node.lateAt (s : Node) (owner addr : Nat) : Bool :=
  decide (3 ≤ s.tierAt owner addr) || match s.region owner (regionOf addr) with
    | some r => bitAt r.rfl 3 || (bitAt r.rfl 4 && s.isReplica owner (regionOf addr))
    | none => false

/-- Who reads: whose memory, from which tile, and whether its context has a deadline (09 R292). -/
structure Reader where
  owner : Nat
  tile : Nat
  due : Bool

def Ctx.reader (x : Ctx) : Reader := { owner := x.owner, tile := x.hub / 4, due := x.deadline.isSome }

/-- 07 R202, 09 R290-R292: how a late read ends: 0, or a code of classes 0x05 to 0x0B. That, and whether it was stalled, is
free (notes/assumptions/45.md); a context with no deadline never times out. -/
def Node.lateEnd (s : Node) (r : Reader) (addr : Nat) : Nat × Node :=
  let f := s.free
  let s := if f.1 % 2 = 1 then f.2.stallCause r.owner addr else f.2
  let c := if f.1 / 2 % 2 = 0 then 0 else 0x500 + f.1 / 4 % 0x700
  if c != 0x0B01 then (c, s) else if r.due then (c, s.tmo r.owner) else (0, s)

/-- A stretch of one region read: its bytes, or the code of the read. It counts by 64 B lines (09 R281). -/
def Node.readPart (s : Node) (r : Reader) (p : Nat × Nat) : Except Nat Bytes × Node :=
  match s.memCode r.owner p.1 p.2 false with
  | 0 =>
    let l := if s.lateAt r.owner p.1 then s.lateEnd r p.1 else (0, s)
    if l.1 = 0 then
      let b := (l.2.touchRegion r.owner p.1 r.tile (ceilDiv p.2 64)).readServed r.owner p.1 p.2
      (.ok b.1, b.2)
    else (.error l.1, l.2)
  | c => (.error c, s)

/-- A stretch read part by part; the first part that fails ends it. -/
def Node.tierRead (s : Node) (r : Reader) (addr n : Nat) : Except Nat Bytes × Node :=
  if n = 0 then (.ok [], s)
  else (regionParts addr n).foldl (fun (a : Except Nat Bytes × Node) p => match a.1 with
    | .error _ => a
    | .ok b => match a.2.readPart r p with
      | (.ok c, m) => (.ok (b ++ c), m)
      | e => e) (.ok [], s)

/-- Stretches of an owner's memory, one after another, or the code of the first that cannot be read. -/
def Node.readParts (s : Node) (r : Reader) : List (Nat × Nat) → Except Nat (List Bytes) × Node
  | [] => (.ok [], s)
  | p :: l => match s.tierRead r p.1 p.2 with
    | (.error c, s) => (.error c, s)
    | (.ok b, s) => match s.readParts r l with
      | (.ok bs, s) => (.ok (b :: bs), s)
      | e => e

/-! ## Where an access goes -/

/-- 06 R178, 09 R270: the node, offset, job and issuer class of an access that another node serves. A region in POOL is
reached in job 0 as the tier system. -/
def Node.remoteOf (s : Node) (a : Access) : Option (Nat × Nat × Nat × Nat) :=
  if bitAt a.addr 63 then
    (if fld a.addr 48 15 == s.dev.node then none else some (fld a.addr 48 15, a.addr % 2 ^ 48, a.job.getD 0, 0))
  else if s.tierAt a.owner a.addr == 3 then
    let g := s.locAt a.owner a.addr + a.addr % 2097152
    some (fld g 48 15, g % 2 ^ 48, 0, 1)
  else none

/-- 12 R372: the window that admits a request: the lowest-numbered that matches; its code where none does. -/
def Node.windowFor (s : Node) (job src addr len bit : Nat) : Except Nat Window :=
  match List.find? (fun (w : Nat × Window) => bitAt w.2.flags 0 && w.2.job == job && decide (w.2.gbase ≤ addr)
      && decide (addr + len ≤ w.2.gbase + w.2.len * 2097152)) s.fabric.windows with
  | none => .error 0x0601
  | some w =>
    if bitAt w.2.flags 5 && w.2.peer != src then .error 0x0601
    else if bitAt w.2.flags bit then .ok w.2 else .error 0x0602

def Window.owner (w : Window) : Nat := if w.sys then sysOwner else w.tid

/-- 06 R178: where an access that this node serves lies: owner and tenant-local address; a global address of this node is
checked by its own window table. `bit` is 1 R, 2 W, 3 A, 4 P. -/
def Node.localOf (s : Node) (a : Access) : Except Nat (Nat × Nat) :=
  if bitAt a.addr 63 then
    let bit := if a.kind == 0 then 1 else if a.kind == 2 then 3 else if a.x then 4 else 2
    match s.windowFor (a.job.getD 0) s.dev.node (a.addr % 2 ^ 48) a.size bit with
    | .ok w => .ok (w.owner, w.lbase + (a.addr % 2 ^ 48 - w.gbase))
    | .error c => .error c
  else .ok (a.owner, a.addr)

/-- An access may take effect: what it follows has (06 R182). -/
def Node.accReady (s : Node) (a : Access) : Bool := a.after.all fun i => (s.acc i).isNone

end Sys2Proof.Machine
end

