-- ==== Sys2Proof/Machine/Net.lean ====
section
/-! DEFINITION. Requests and their failures (12 R366-R381, 14 R446), responses that this node gives, and a port that goes down
(11 R353, 12 R381). -/

namespace Sys2Proof.Machine

/-! ## Requests -/

/-- 12 R369, R377-R381: a request fails; a posted write's failure is recorded under a cause. -/
def Node.failReq (s : Node) (key code cause : Nat) : Node :=
  match KList.find? s.fabric.reqs key with
  | none => s
  | some r =>
    let s := s.dropReq key
    let s := if r.ptype == 5 then s.ledger (s.ledgerBase code (key % 16384 + 16384 * (key / 16384)) r) cause r else s
    match r.acc with
    | some id => match s.acc id with
      | some a => s.failAccess id a code
      | none => s
    | none => s

/-- A packet has no byte mask: of a masked store, the first run of bytes that its mask lets it write, as offset and length
(06 R190; notes/assumptions/96.md). -/
def Access.run (a : Access) : Nat × Nat :=
  match (List.range a.size).find? fun i => bitAt a.mask i with
  | none => (0, 0)
  | some lo => (lo, ((List.range (a.size - lo)).takeWhile fun i => bitAt a.mask (lo + i)).length)

/-- The mask without that run. -/
def Access.restMask (a : Access) : Nat := a.mask / 2 ^ (a.run.1 + a.run.2) * 2 ^ (a.run.1 + a.run.2)

/-- A request for an access. -/
structure Ask where
  cls : Nat
  ptype : Nat
  dst : Nat
  job : Nat
  off : Nat
  len : Nat
  data : Bytes
  status : Nat

/-- 12 R366, R367, R378: a request is sent, or fails at once. One that finds no tag waits. -/
def Node.sendAsk (s : Node) (id : Nat) (a : Access) (q : Ask) : Node :=
  match s.freeTag q.cls with
  | none => { s with fabric := { s.fabric with tagWait := s.fabric.tagWait ++ [id] } }
  | some key =>
    let via := s.route q.dst q.off
    let r : Request := { ptype := q.ptype, dst := q.dst, job := q.job, addr := q.off, len := q.len, issued := s.clk, acc := some id,
                         thr := a.thr % orphan, owner := a.owner, via := via }
    let s := { s with
      fabric := { s.fabric with reqs := KList.put s.fabric.reqs key r }
      spokes := { s.spokes with accesses := KList.put s.spokes.accesses id { a with tag := some key } } }
    if s.isFailed q.dst then s.failReq key 0x0603 1
    else match via with
      | some p => s.sendOn p (s.packet q.ptype q.dst q.job (key % 16384) q.cls q.off q.data q.status q.len)
      | none => s.failReq key 0x0606 2

/-- A thread's access to another node (12 R365). -/
def Node.sendFar (s : Node) (id : Nat) (a : Access) (dst off job : Nat) : Node :=
  if a.kind == 1 && a.run.2 == 0 then s.endAccess id
  else
    let ptype := if a.kind == 0 then 1 else if a.kind == 2 then 7 else if a.x then 5 else 3
    let lo := if a.kind == 1 then a.run.1 else 0
    let len := if a.kind == 1 then a.run.2 else a.size
    let data := if a.kind == 0 then [] else if a.kind == 1 then slice a.data lo len
      else a.data ++ (if a.kind == 2 && a.fn % 16 == 9 then natLe 8 a.cmp else [])
    s.sendAsk id a { cls := 0, ptype := ptype, dst := dst, job := job, off := off + lo, len := if data.isEmpty then len else data.length, data := data,
                     status := if a.kind == 2 then a.fn else 0 }

/-- 09 R270, 14 R442, R446: the next packet of an access to POOL, in job 0 as the tier system: the line is read; a store takes
its effect and its line is written; then the line's metadata. -/
def Node.sendPool (s : Node) (id : Nat) (a : Access) : Node :=
  let g := s.locAt a.owner a.addr + a.addr % 2097152
  match s.grantOf g with
  | none => s.failAccess id a 0x0B02
  | some x =>
    let ask := fun (s : Node) (a : Access) (ptype at' len : Nat) (data : Bytes) =>
      s.sendAsk id a { cls := 1, ptype := ptype, dst := x.node, job := 0, off := at' % 2 ^ 48, len := len, data := data, status := 0 }
    let writeLine := fun (s : Node) (a : Access) =>
      let m := s.lineMeta g
      ask s a 3 (lineBase g) 256 (s.lineSealed a.owner g m.epoch m.counter (s.read a.owner (a.addr - a.addr % 256) 256)).1
    if a.step == 2 then ask s a 3 (x.metaAddr g) 32 (s.lineMeta g).bytes
    else if a.step == 1 then writeLine s a
    else if a.kind == 1 then writeLine (s.storeAt a.owner a.addr a.data a.mask) { a with step := 1 }
    else ask s { a with old := (s.lineMeta g).bytes } 1 (lineBase g) 256 []

/-- An access of a thread or of the tier system goes to another node; one to POOL passes the region table first (09 R274). -/
def Node.sendAccess (s : Node) (id : Nat) : Node :=
  match s.acc id with
  | none => s
  | some a => match s.remoteOf a with
    | none => s
    | some (dst, off, job, cls) =>
      let c := if bitAt a.addr 63 || a.step != 0 then 0
        else if a.kind == 2 then s.amoCode a.owner a.addr a.size else s.memCode a.owner a.addr a.size (a.kind != 0)
      if c != 0 then s.failAccess id a c
      else if cls == 0 then s.sendFar id a dst off job else s.sendPool id a

/-- A store's packet has taken effect: the store ends, or its next run of bytes is sent. -/
def Node.storeDone (s : Node) (id : Nat) (a : Access) : Node :=
  if a.restMask % 2 ^ a.size == 0 then s.endAccess id
  else ({ s with spokes := { s.spokes with
    accesses := KList.put s.spokes.accesses id { a with mask := a.restMask % 2 ^ a.size, tag := none } } }).sendAccess id

/-- A tag is free again: the first access that waits for one is sent. -/
def Node.tagFreed (s : Node) : Node :=
  match s.fabric.tagWait with
  | [] => s
  | id :: t => ({ s with fabric := { s.fabric with tagWait := t } }).sendAccess id

/-! ## Responses of this node -/

/-- A response, or another packet that answers `p`; dropped, and logged, where no port is UP. -/
def Node.answer (s : Node) (p : Packet) (ptype status : Nat) (data : Bytes) (poison : Bool) : Node :=
  let l := s.respLoad none
  let s := l.2
  let k := { s.packet ptype p.src p.job p.tag p.cls p.addr data status with poison := poison, load := l.1 }
  match s.sendPacket k with
  | some s => s
  | none => s.logUnit 0x0606

/-- 12 R376, Table 12.4: the target's part of a ledger record, sent in a FAULT_NOTE. -/
def Node.faultNote (s : Node) (p : Packet) (code : Nat) : Node :=
  s.answer p 9 code (natLe 8 s.now ++ natLe 4 0 ++ natLe 2 code ++ natLe 2 p.job ++ natLe 2 p.dst
    ++ natLe 2 (p.tag % 16384 + 16384 * p.cls) ++ natLe 2 p.len ++ natLe 2 0
    ++ natLe 8 (2 ^ 63 + p.dst * 2 ^ 48 + p.addr) ++ List.replicate 32 0) false

/-- A request that fails at this node (12 R367, R369, R372, R376). -/
def Node.refuse (s : Node) (p : Packet) (code : Nat) : Node :=
  match p.ptype with
  | 1 => s.answer p 2 code (List.replicate p.len 0) true
  | 3 => s.answer p 4 code [] false
  | 5 => s.faultNote p code
  | 7 => s.answer p 8 code (natLe 8 0) true
  | _ => s

/-! ## A port goes down -/

/-- 12 R381: what is done with a packet that a failed link hands back. A write or an atomic of another node is answered as one
that cannot be sent on (notes/assumptions/100.md). -/
def Node.handBack (s : Node) (k : Packet) : Node :=
  let key := reqKey k.cls k.tag
  let mine := k.src == s.dev.node
  let lost := if mine then s.failReq key 0x0607 2 else s.refuse k 0x0607
  match k.ptype with
  | 3 => lost
  | 5 => lost
  | 7 => lost
  | 10 => s
  | 1 =>
    let via := s.route k.dst k.addr
    match via with
    | some p =>
      let s := if mine then
        (match KList.find? s.fabric.reqs key with
        | some r => { s with fabric := { s.fabric with reqs := KList.put s.fabric.reqs key { r with via := via } } }
        | none => s) else s
      s.sendOn p k
    | none => if mine then s.failReq key 0x0606 2 else (s.logUnit 0x0606).refuse k 0x0606
  | _ => (s.sendPacket k).getD s

/-- 11 R358: when a primary port goes down, an alternate to the same neighbour becomes primary. -/
def Node.promoteAlt (s : Node) (p : Nat) : Node :=
  let x := s.port p
  if x.nv && !x.alt then
    match List.find? (fun (q : Nat × Port) => q.1 != p && q.2.nv && q.2.nbr == x.nbr && q.2.alt && q.2.state == 5) s.links.ports with
    | some (i, q) => (s.setPort i { q with alt := false }).setPort p { x with alt := true }
    | none => s
  else s

/-- 11 R353: a port leaves its state for DOWN; one that left UP is logged and told to every tenant (14 R465). A bring-up
that failed waits 100 ms. -/
def Node.dropPort (s : Node) (p : Nat) : Node :=
  let x := s.port p
  if x.state == 0 then s
  else
    let s := s.setPort p { x with
      state := 0, since := s.clk, retryAt := if x.state == 5 then none else some (s.clk + 100000000), buffer := [], waiting := [],
      timer := none, owed := 0, rx := 0, tx := 0, rekey := none, rxRekey := none, rxSwitch := [], txSwitch := [] }
    if x.state != 5 then s
    else
      let s := (((s.logUnit 0x0610 (unitOf 7 p)).stateEvent (130 + p) 0).service).promoteAlt p
      (x.buffer ++ x.waiting).foldl (fun s f => match f.pkt with
        | some k => s.handBack k
        | none => s) s

/-- 11 R353: a port whose `EN` is 0 stays DOWN. -/
def Node.dropDisabled (s : Node) : Node :=
  (s.links.ports.filter fun p => !bitAt (s.reg .portCfg p.1) 0).foldl (fun s p => s.dropPort p.1) s

end Sys2Proof.Machine
end

