-- ==== Sys2Proof/Machine/Log.lean ====
section
/-! DEFINITION. Detection of failures, suspect reports and counter snapshots (16). -/

namespace Sys2Proof.Machine

/-- The contexts with a thread that passes a test. -/
def Node.ctxsOn (s : Node) (p : Nat → Bool) : List Nat := s.ctxsWhere fun _ c => c.threads.any p

/-- 16 R509, R512: a spoke's known-answer test fails. -/
def Node.spokeFailed (s : Node) (h sp : Nat) : Node :=
  let start := KList.getD s.spokes.katAt (64 * h + sp) 0
  let s := s.retireSpoke h sp
  let s := s.endCtxs (s.ctxsOn fun n => thrHub n == h && thrSpoke n == sp) 0x0503
  let w := s.ringWrap h start
  s.suspect (unitOf 1 (64 * h + sp)) start (s.gangsIn h start fun e => bitAt e.spokes sp) w.1 w.2

/-- 16 R507, R508: a test of 20,000 or of 2,000 cycles that ends now began that long ago, in ns at 1.1 GHz. -/
def Node.testBegan (s : Node) (cycles : Nat) : Nat := s.now - ceilDiv (10 * cycles) 11

/-- 16 R507, R509: a spoke runs its known-answer test. -/
def execSpokeKat (hub : Fin 32) (spoke : Fin 64) (sigOk : Bool) (s : State) : Result :=
  let n := s.node
  if bitAt (n.spokeRet hub) spoke then s.next n
  else if sigOk then
    s.next { n with spokes := { n.spokes with katAt := KList.put n.spokes.katAt (64 * hub.val + spoke.val) (n.testBegan 20000) } }
  else s.settled (n.spokeFailed hub spoke)

/-- 16 R509, R512: a cassette's known-answer test fails. -/
def Node.cassetteFailed (s : Node) (t : Nat) : Node :=
  let start := (s.tile t).katAt
  let ends := (((s.tile t).rest ++ (s.tile t).queue).map fun r => r.2.ctx).dedup
  let s := (s.retireTile t).endCtxs ends 0x0503
  let hubs := (List.range 4).map (4 * t + ·)
  let ws := hubs.map fun h => s.ringWrap h start
  s.suspect (unitOf 4 t) start (hubs.flatMap fun h => s.gangsIn h start fun _ => true) (ws.any (·.1))
    ((ws.filter (·.1)).foldl (fun m w => max m w.2) 0)

/-- 16 R508, R509: a cassette runs its known-answer test, between batches. -/
def execCassetteKat (tile : Fin 8) (sigOk : Bool) (s : State) : Result :=
  let n := s.node
  let c := n.tile tile
  if bitAt n.power.tileRet tile || c.batch.isSome then s.next n
  else if sigOk then s.next { n with cas := { n.cas with tiles := KList.put n.cas.tiles tile { c with katAt := n.testBegan 2000 } } }
  else s.settled (n.cassetteFailed tile)

/-- The HBM channel that holds a byte, where its region is in HBM. -/
def Node.hbmOf (s : Node) (owner addr : Nat) : Option Nat :=
  match s.region owner (addr % 2 ^ 48 / 2097152) with
  | some r => if r.tier == 2 then some (s.channelOf r.loc (addr % 2097152)) else none
  | none => none

/-- 16 R506: an uncorrectable error in data: the line is poisoned, and the error is logged. -/
def Node.dataError (s : Node) (owner addr : Nat) : Node :=
  let s := { s with mem := { s.mem with poison := KList.put s.mem.poison (memKey owner addr / 64) 0x0501 } }
  match s.hbmOf owner addr with
  | some c => (s.logFor 0x0501 owner (unitOf 5 c)).channelError c
  | none => s.logFor 0x0501 owner

/-- 16 R506, Table 16.4: an ECC event. -/
def execEccError (e : EccErr) (s : State) : Result :=
  let n := s.node
  match e with
  | .corrected => s.next { n with log := { n.log with ecc := n.log.ecc + 1 } }
  | .memory owner addr => s.settled (n.dataError owner addr)
  | .spokeSram hub spoke =>
    let n := (n.logUnit 0x0501 (unitOf 1 (64 * hub.val + spoke.val))).retireSpoke hub spoke
    s.settled ((n.endCtxs (n.ctxsOn fun t => thrHub t == hub.val && thrSpoke t == spoke.val) 0x0503).service)
  | .hubStore hub => s.settled (((n.logUnit 0x0501 (unitOf 2 hub)).retireHub hub).service)
  | .tileControl tile =>
    let again := match KList.find? n.power.src13At tile with
      | some t => decide (n.clk < t + 1000000000)
      | none => false
    let n := { n with power := { n.power with src13At := KList.put n.power.src13At tile n.clk } }
    let n := if again then (n.retireTile tile).service else n
    s.settled (n.requestReset 13 (some tile.val))
  | .hbmChannel ch => s.settled ((n.logUnit 0x0501 (unitOf 5 ch)).channelError ch)

/-- 15 R497: a watchdog or lockstep reset before READY is a start that failed. -/
def Node.startBroken (s : Node) : Node := if s.dev.starting.isSome then s.logUnit 0x0804 (unitOf 11 0) else s

/-- 16 R510: the lockstepped cores differ. -/
def execLockstepMismatch (s : State) : Result :=
  let n := (s.node.logUnit 0x0504 (unitOf 11 0)).startBroken
  s.next (n.requestReset 8 none)

/-! ## Snapshots (16 R522-R525) -/

/-- 16 R525: a domain arm that arrives at the snapshot port. -/
def execSnapshotPortArm (t issuer seq : Nat) (port : Fin 16) (s : State) : Result :=
  let n := s.node
  if issuer == n.dev.node || n.snap.seen.contains (issuer, seq) || (n.port port).state != 5 then s.next n
  else
    let n := { n with snap := { n.snap with seen := (issuer, seq) :: n.snap.seen } }
    let n := if t ≤ n.now then { n with snap := { n.snap with late := min 255 (n.snap.late + 1) } }
      else if n.snap.armed.length < 4 then n.armSnap t else n
    s.settled (n.floodArm t issuer seq (some port.val))

/-- The offsets of the latched registers (16 R523). -/
def latchOffsets : List (Nat × RegName × Nat) :=
  bar0Rows.flatMap fun r => if r.name.latched then (List.range r.count).map fun i => (r.base + i * r.stride, r.name, i) else []

/-- 16 R523: the latched values, by BAR0 offset. One that is 0 is not listed. -/
def Node.latch (s : Node) : KList Nat :=
  latchOffsets.foldr (fun p (m : KList Nat) =>
    let v := match p.2.1 with
      | .portCnt => KList.getD (s.port ((p.1 - 0x700100) / 0x10000)).cnt ((p.1 - 0x700100) % 0x10000 / 8) 0
      | n => s.regValue n p.2.2
    if v = 0 then m else KList.put m p.1 v) []

/-- 16 R523: the first armed snapshot whose T has come is latched into the bank of its sequence. -/
def execSnapshotLatch (s : State) : Result :=
  let n := s.node
  match n.snap.armed.find? fun a => decide (a.t ≤ n.now) with
  | none => s.next n
  | some a =>
    let v := n.latch
    let n := { n with snap := { n.snap with
      armed := n.snap.armed.filter (· != a), latching := n.snap.latching ++ [a] } }
    s.next (if a.seq % 2 == 0 then { n with snap := { n.snap with bank0 := v } } else { n with snap := { n.snap with bank1 := v } })

/-- 16 R524: every unit has latched, and the bank's `SEQ` is set. -/
def execSnapshotComplete (bank : Fin 2) (s : State) : Result :=
  let n := s.node
  match n.snap.latching.find? fun a => a.seq % 2 == bank.val with
  | none => s.next n
  | some a =>
    let n := { n with snap := { n.snap with latching := n.snap.latching.filter (· != a) } }
    s.next (if bank.val == 0 then { n with snap := { n.snap with seq0 := a.seq } } else { n with snap := { n.snap with seq1 := a.seq } })

end Sys2Proof.Machine
end

