-- ==== Sys2Proof/Machine/Hif.lean ====
section
/-! DEFINITION. Register accesses and the host and board interfaces (00 R556, 17). -/

namespace Sys2Proof.Machine

/-! ## Register accesses -/

/-- A register written; ports that the write disables go down (11 R353). -/
def Node.regWrite (s : Node) (src : Src) (off width value : Nat) (sigOk : Bool) : Node := (s.writeReg src off width value sigOk).dropDisabled

/-- 00 R556: a register write. The verdict on a signature that a mailbox COMMIT needs is not in the write: a free value
(notes/assumptions/10.md). -/
def execRegisterWrite (src : Src) (off width value : Nat) (s : State) : Result :=
  let f := s.node.free
  s.settled (f.2.regWrite src off width value (f.1 % 2 == 1))

/-- 00 R556: a register read. -/
def execRegisterRead (src : Src) (off width : Nat) (s : State) : Result := s.next (s.node.readReg src off width)

/-- 17 R533: a write of a doorbell page, of the PF or of a VF's window. -/
def Node.writeDb (s : Node) (src : Src) (page value : Nat) : Node :=
  match src with
  | .vf _ => s.writeReg src (4096 * page) 4 value false
  | _ => s.writeReg src (0x2000000 + 4096 * page) 4 value false

/-- 13 R415: a doorbell: `FLUSH` is 0. -/
def execDoorbell (src : Src) (page value : Nat) (s : State) : Result :=
  s.settled (if bitAt value 31 then s.node else s.node.writeDb src page value)

/-- 13 R417: a flush: `FLUSH` is 1. -/
def execQueueFlush (src : Src) (page value : Nat) (s : State) : Result :=
  s.settled (if bitAt value 31 then s.node.writeDb src page value else s.node)

/-- 13 R406, R407. -/
def execQsyQcfgWrite (src : Src) (q : Fin 8192) (value : Nat) (s : State) : Result :=
  s.settled (s.node.writeNamed src .qcfg q value)

/-- 13 R425. -/
def execAdmShpCfgWrite (src : Src) (tid : Fin 1024) (value : Nat) (s : State) : Result :=
  s.next (s.node.writeNamed src .shpCfg tid value)

/-- 13 R425. -/
def execAdmClsCfgWrite (src : Src) (cls : Fin 8) (value : Nat) (s : State) : Result :=
  s.next (s.node.writeNamed src .clsCfg cls value)

/-- 13 R430: a write of `ADM_ISO_CFG` with `MODE` 1. -/
def execFixedSlotEntry (src : Src) (value : Nat) (s : State) : Result :=
  s.next (if bitAt value 0 then s.node.writeNamed src .isoCfg 0 value else s.node)

/-- 13 R430: a write of `ADM_ISO_CFG` with `MODE` 0. -/
def execFixedSlotExit (src : Src) (value : Nat) (s : State) : Result :=
  s.next (if bitAt value 0 then s.node else s.node.writeNamed src .isoCfg 0 value)

/-- 14 R435: a write of `SEC_TEN_CFG` with `VALID` 1. -/
def execTenantCreate (src : Src) (tid : Fin 1024) (value : Nat) (s : State) : Result :=
  s.next (if bitAt value 63 then s.node.writeNamed src .tenCfg tid value else s.node)

/-- 14 R435: a write of `SEC_TEN_CFG` with `VALID` 0. -/
def execTenantDestroy (src : Src) (tid : Fin 1024) (value : Nat) (s : State) : Result :=
  s.settled (if bitAt value 63 then s.node else s.node.writeNamed src .tenCfg tid value)

/-- 08 R260: a client reads its own status: the PF in BAR0, a VF in its tenant status page. -/
def execClientStatRead (src : Src) (client : Fin 1024) (s : State) : Result :=
  s.next (match src with
    | .vf _ => s.node.readReg src 0xF050 8
    | _ => s.node.readReg src (regOff .cliStat client) 8)

/-- 08 R259, R260. -/
def execStoCliIdWrite (src : Src) (client : Fin 1024) (value : Nat) (s : State) : Result :=
  s.settled (s.node.writeNamed src .cliId client value)

/-- 08 R263. -/
def execStoCliBwWrite (src : Src) (client : Fin 1024) (value : Nat) (s : State) : Result :=
  s.next (s.node.writeNamed src .cliBw client value)

/-- 09 R285, R296. -/
def execQuotaWrite (src : Src) (tid : Fin 1024) (second : Bool) (value : Nat) (s : State) : Result :=
  s.next (s.node.writeNamed src (if second then .tq1 else .tq0) tid value)

/-- 09 R276. -/
def execTbCfgWrite (src : Src) (value : Nat) (s : State) : Result := s.next (s.node.writeNamed src .tbCfg 0 value)

/-- 15 R484. -/
def execResetRequest (src : Src) (value : Nat) (s : State) : Result := s.next (s.node.writeNamed src .rstReq 0 value)

/-- 15 R485. -/
def execResetFuseProgram (src : Src) (value : Nat) (s : State) : Result := s.next (s.node.writeNamed src .rstProg 0 value)

/-- 15 R492. -/
def execStrapOverrideWrite (src : Src) (value : Nat) (s : State) : Result := s.next (s.node.writeNamed src .strapOvr 0 value)

/-- 15 R502. -/
def execMgtTimeSet (src : Src) (value : Nat) (s : State) : Result := s.next (s.node.writeNamed src .timeSet 0 value)

/-- 16 R516. -/
def execLogTailWrite (src : Src) (value : Nat) (s : State) : Result := s.next (s.node.writeNamed src .logRing 0 value)

/-- 16 R520. -/
def execFirstFaultClear (src : Src) (value : Nat) (s : State) : Result := s.next (s.node.writeNamed src .ffCtl 0 value)

/-- 16 R513. -/
def execSuspectReportRelease (src : Src) (value : Nat) (s : State) : Result := s.next (s.node.writeNamed src .logStat 0 value)

/-- 16 R522. -/
def execSnapshotArm (src : Src) (value : Nat) (s : State) : Result := s.settled (s.node.writeNamed src .snapArm 0 value)

/-! ## The mailbox (15 R500, 17 R547) -/

/-- The 4 KiB data window filled. -/
def Node.fillWindow (s : Node) (data : Bytes) : Node :=
  (List.range 512).foldl (fun s i => s.setReg .mboxWin i (getLe data (8 * i) 8)) s

/-- WRITE: the chunk that was placed in the data window is staged. -/
def execMboxWrite (src : Src) (value : Nat) (data : Bytes) (s : State) : Result :=
  s.next (if fld value 0 3 == 1 then (s.node.fillWindow data).writeNamed src .mboxCtl 0 value else s.node)

/-- COMMIT; `sigOk`: the staged image's Morhal signature verifies. -/
def execMboxCommit (src : Src) (value : Nat) (sigOk : Bool) (s : State) : Result :=
  s.next (if fld value 0 3 == 2 then s.node.writeNamed src .mboxCtl 0 value sigOk else s.node)

/-- CLEAR. -/
def execMboxClear (src : Src) (value : Nat) (s : State) : Result :=
  s.next (if fld value 0 3 == 3 then s.node.writeNamed src .mboxCtl 0 value else s.node)

/-- RESET. -/
def execMboxReset (src : Src) (value : Nat) (s : State) : Result :=
  s.next (if fld value 0 3 == 4 then s.node.writeNamed src .mboxCtl 0 value else s.node)

/-! ## Configuration space (17 R529) -/

/-- The configuration space of a function: 0 the PF, n VF n − 1. -/
def Node.cfgSpace (s : Node) (f : Nat) : CfgSpace := if f = 0 then s.hif.cfgPf else s.hif.cfgVf

/-- A dword of its header, by byte offset: the IDs at 0, the class code and the revision at 8; what R529 does not give is not
held. -/
def CfgSpace.dword (c : CfgSpace) (off : Nat) : Option Nat :=
  if off = 0 then some (put c.vendor 0 16 + put c.device 16 16)
  else if off = 8 then some (put c.revision 0 8 + put c.classCode 8 24)
  else none

/-! ## Function resets (17 R540) -/

/-- What a reset of the functions that pass a test does. -/
def Node.functionReset (s : Node) (p : Nat → Bool) : Node :=
  let qs := s.validQueues.filter fun q => p (s.qcfg q).func
  let s := qs.foldl Node.flushQueue s
  let s := s.lapseAll ((s.localClients none).filter fun c => p (s.cliId c).func)
  let s := s.endSessions fun x => match x.chan with
    | .pfDoe => p 0
    | .vfDoe t => p (t.val + 1)
    | .mctp => p 0 && x.role.isSome
  let fs := ((s.validQueues.filter fun q => (s.qcfg q).host).map fun q => (s.qcfg q).func).dedup.filter p
  { s with
    hif := { s.hif with
      msixMasked := (fs ++ s.hif.msixMasked).dedup
      dmaDiscard := fs.foldl (fun m f => KList.put m f s.nextId) s.hif.dmaDiscard
      acc := s.hif.acc.filter fun a => !p a.1 }
    regs := s.regs.filter fun r => !(decide (2 ^ 31 ≤ r.1) && p ((r.1 - 2 ^ 31) / 65536 + 1)) }

/-- 17 R540: a function-level reset: 0 the PF, n VF n − 1. It always resets the PCIe controller's function. -/
def execFunctionLevelReset (func : Fin 1025) (s : State) : Result :=
  s.settled (s.node.functionReset fun f => f == func.val)

/-- 17 R540: VF Enable is cleared. -/
def execVfEnableClear (s : State) : Result :=
  let n := s.node.functionReset fun f => decide (1 ≤ f)
  s.settled { n with hif := { n.hif with vfEnable := false } }

/-! ## AER (17 R527, R541) -/

/-- 17 Table 17.7: a poisoned TLP is dropped, logged and reported; the spec names no code for the record: a free value
(notes/assumptions/18.md). -/
def execPoisonedTlp (func : Fin 1025) (s : State) : Result :=
  let f := s.node.free
  let tid := if func.val = 0 then noTid else func.val - 1
  s.next ((f.2.logEvent (logEv (freeCode f.1) 0 tid)).emit (.aer func 2))

/-- 17 R527, R541: a request to no BAR, or to an unsupported feature. -/
def execUnsupportedRequest (posted : Bool) (s : State) : Result :=
  let n := s.node.emit (.aer 0 3)
  s.next (if posted then n else n.emit (.cpl 1 []))

/-- 17 R548: the link comes up. The host's functions start with clear MSI-X masks. -/
def execPcieLinkUp (width speed : Nat) (flit cxl : Bool) (s : State) : Result :=
  let n := s.node
  if n.dev.pewter || !([1, 2, 4, 8, 16].contains width) || speed < 1 || 6 < speed then s.next n
  else s.next { n with hif := { n.hif with
    linkUp := true, linkWidth := width, linkSpeed := speed, linkFlit := flit, linkCxl := cxl, msixMasked := [] } }

/-! ## The CXL device mailbox (17 R528) -/

/-- `n` free bytes. -/
def Node.freeBytes : Nat → Node → Bytes × Node
  | 0, s => ([], s)
  | k + 1, s =>
    let f := s.free
    let r := Node.freeBytes k f.2
    (BitVec.ofNat 8 f.1 :: r.1, r.2)

/-- Identify Memory Device: the capacity advertised. -/
def execIdentifyMemoryDevice (s : State) : Result :=
  let n := s.node
  s.next (n.emit (.mbox (natLe 8 (n.hif.capGb * 2 ^ 30))))

/-- Get Supported Logs: one log, the Command Effects Log. Its identifier and size are the standard's: free bytes. -/
def execGetSupportedLogs (s : State) : Result :=
  let b := Node.freeBytes 20 s.node
  s.next (b.2.emit (.mbox (natLe 8 1 ++ b.1)))

/-- Get Log: `len` bytes of the Command Effects Log, which the standard fills: free bytes. -/
def execGetLog (off len : Nat) (s : State) : Result :=
  let b := Node.freeBytes (min len 4096) s.node
  s.next (b.2.emit (.mbox (natLe 4 off ++ b.1)))

/-- Get Event Records: the handles that wait in one of the four event logs. -/
def execGetEventRecords (log : Fin 4) (s : State) : Result :=
  let n := s.node
  s.next (n.emit (.mbox ((KList.getD n.hif.cxlEvents log.val []).flatMap (natLe 2))))

/-- Clear Event Records. -/
def execClearEventRecords (log : Fin 4) (handles : List Nat) (s : State) : Result :=
  let n := s.node
  let l := (KList.getD n.hif.cxlEvents log.val []).filter fun h => !handles.contains h
  s.next ({ n with hif := { n.hif with cxlEvents := KList.put n.hif.cxlEvents log.val l } }.emit (.mbox []))

/-- Get Health Info: the life-used indication (`WARN` bit 3), and the health page as the device-specific area. -/
def execGetHealthInfo (s : State) : Result :=
  let n := s.node
  let page := n.healthPage
  s.next (n.emit (.mbox (natLe 1 (b2n (bitAt (getLe page 7 1) 3)) ++ page)))

/-! ## MCTP, PLDM and GPIO (17 R545, R546) -/

def execSetEndpointId (eid : Nat) (s : State) : Result :=
  let n := s.node
  s.next ({ n with hif := { n.hif with eid := eid % 256 } }.emit (.mctp (natLe 1 eid)))

/-- 17 Table 17.10: the sensors offered. -/
def isSensor (i : Nat) : Bool :=
  decide (1 ≤ i ∧ i ≤ 19) || decide (32 ≤ i ∧ i ≤ 48) || decide (64 ≤ i ∧ i ≤ 80) || i == 96 || i == 128 || i == 129
  || decide (130 ≤ i ∧ i ≤ 145)

/-- GetPDR: the record of a sensor; the thresholds in it are free (notes/assumptions/30.md). -/
def sensorLimit (sensor : Nat) : Nat := Config.free (2 ^ 40 + sensor)

def execGetPdr (record : Nat) (s : State) : Result :=
  s.next (s.node.emit (.mctp (if isSensor record then natLe 2 record ++ natLe 8 (sensorLimit record) else [])))

/-- What a numeric sensor reads; none: unavailable. -/
def Node.sensorValue (s : Node) (i : Nat) : Option Nat :=
  if i == 96 then some s.power.nodeW
  else if decide (12 ≤ i ∧ i ≤ 19) && !s.populated (16 * (i - 12)) then none
  else some (KList.getD s.hif.sensors i 0)

/-- GetSensorReading. -/
def execGetSensorReading (sensor : Nat) (s : State) : Result :=
  let n := s.node
  s.next (n.emit (.mctp (if isSensor sensor && decide (sensor < 128) then
    (match n.sensorValue sensor with
      | some v => natLe 2 sensor ++ natLe 1 1 ++ natLe 4 v
      | none => natLe 2 sensor ++ natLe 1 0) else [])))

/-- What a state sensor reads. -/
def Node.stateValue (s : Node) (i : Nat) : Nat :=
  if i == 129 then getLe s.healthPage 7 1
  else if decide (130 ≤ i) then (s.port (i - 130)).state
  else KList.getD s.seeNode.hif.stateSensors 128 0

/-- GetStateSensorReadings. -/
def execGetStateSensorReadings (sensor : Nat) (s : State) : Result :=
  let n := s.node
  s.next (n.emit (.mctp (if isSensor sensor && decide (128 ≤ sensor) then natLe 2 sensor ++ natLe 1 (n.stateValue sensor) else [])))

/-- PollForPlatformEventMessage: the oldest event; SMB_ALERT_N is released when none remains. -/
def execPollForPlatformEventMessage (s : State) : Result :=
  let n := s.node
  match n.hif.pldmEvents with
  | [] => s.next (n.emit (.mctp []))
  | e :: t =>
    let n := { n with hif := { n.hif with pldmEvents := t }, mgt := { n.mgt with smbAlertN := t.isEmpty } }
    s.next (n.emit (.pldmEvent e.1 e.2))

/-- 17 `HIF_GPIO_CFG`: a falling edge at a pin; in mode 3 it is logged. The spec names no code for the record: a free
value (notes/assumptions/18.md). -/
def execGpioFallingEdge (pin : Fin 8) (s : State) : Result :=
  let n := s.node
  let n := { n with hif := { n.hif with gpioIn := n.hif.gpioIn - (n.hif.gpioIn &&& 2 ^ pin.val) } }
  if fld (n.reg .gpioCfg) (2 * pin.val) 2 == 3 then
    let f := n.free
    s.next (f.2.logUnit (freeCode f.1) (unitOf 11 0))
  else s.next n

end Sys2Proof.Machine
end

