-- ==== Sys2Proof/Machine/Links.lean ====
section
/-! DEFINITION. Roscel links and optics (11), link keys (14 R448, R449) and the time exchange (11 R359-R361, 15 R502). -/

namespace Sys2Proof.Machine

/-! ## Lanes -/

/-- 11 R336, R351: the lanes in use of those that are good: λ0-λ7, and λ8 where one of them is not good. -/
def lanesOf (bad : Nat) : Nat :=
  let good := (List.range 8).filter fun i => !bitAt bad i
  sumN (good.map fun i => 2 ^ i) + (if good.length < 8 && !bitAt bad 8 then 256 else 0)

def goodLanes (bad : Nat) : Nat := 9 - popcount 9 bad

/-- The lanes that a direction carries once every switch that is under way has taken place. -/
def switched (lanes : Nat) (w : LaneSwitch) : Nat :=
  (lanes - (lanes &&& 2 ^ w.lane)) ||| (if w.width then 0 else 256)

/-- 11 R351, R352: a switch asked for: a SPARE or a WIDTH message names the lane and C (11 Table 11.3). -/
def Node.askSwitch (s : Node) (p lane : Nat) (width : Bool) : Node :=
  let x := s.port p
  let c := (x.rxCount + 2048) % 4096
  (s.setPort p { x with rxSwitch := x.rxSwitch ++ [⟨lane, c, width⟩] }).sendMgmt p (natLe 1 (if width then 2 else 1) ++ natLe 1 lane ++ natLe 2 c)

/-- 11 R350-R352: a receive lane that is degraded or failed: sparing, then 7-lane width, then DOWN. -/
def Node.rxLaneBad (s : Node) (p lane : Nat) : Node :=
  let x := s.port p
  if bitAt x.rxBad lane || x.state != 5 then s
  else
    let s := s.setPort p { x with rxBad := x.rxBad + 2 ^ lane }
    let bad := x.rxBad + 2 ^ lane
    let lanes := x.rxSwitch.foldl switched x.rx
    if goodLanes bad < 7 then s.dropPort p
    else if !bitAt lanes lane then s
    else if bitAt lanes 8 || bitAt bad 8 then s.askSwitch p lane true
    else if bitAt (s.reg .portCfg p) 1 then s.askSwitch p lane false else s

/-- 11 R350: the corrected symbols of each lane over 1 ms. A new `SPARE_THR` applies from the next window (R363). -/
def execLaneErrorWindow (port : Fin 16) (counts : List Nat) (s : State) : Result :=
  let n := s.node
  let thr := (n.port port).spareThr * 1024
  let n := n.setPort port { n.port port with spareThr := fld (n.reg .portCfg port) 8 8 }
  s.settled (((List.range 9).filter fun i => decide (thr < counts.getD i 0)).foldl (fun n i => n.rxLaneBad port i) n)

/-- 11 R350: a lane loses lock or signal. -/
def execLaneSignalLoss (port : Fin 16) (lane : Fin 9) (s : State) : Result := s.settled (s.node.rxLaneBad port lane)

/-- 11 R338: the transmit lane of a tone has failed: the receiving end spares it; fewer than 7 good lanes end the port. -/
def Node.txLaneBad (s : Node) (p lane : Nat) : Node :=
  let x := s.port p
  if bitAt x.txBad lane then s
  else
    let x := { x with txBad := x.txBad + 2 ^ lane }
    let s := s.setPort p x
    if goodLanes x.txBad < 7 then s.dropPort p else s

/-- 11 R338: one tone of a sample, in quarter dB from 0 dBm. -/
def Node.tone (s : Node) (p i pw : Nat) : Node :=
  let x := s.port p
  let s := if pw < 52 then
      (if bitAt x.laserLow i then s
       else (s.setPort p { (x.count 15) with laserLow := x.laserLow + 2 ^ i }).logUnit 0x0615 (unitOf 7 p))
    else s.setPort p { x with laserLow := x.laserLow - (x.laserLow &&& 2 ^ i) }
  if pw < 44 then s.txLaneBad p i else s

/-- 11 R338: the power of every tone, each 10 µs. -/
def execLaserPowerSample (port : Fin 16) (powers : List Nat) (s : State) : Result :=
  let n := s.node
  let pw := (List.range 9).map fun i => min 127 (powers.getD i 0)
  let n := n.setPort port { n.port port with laser := pw }
  let n := (pw.zip (List.range 9)).foldl (fun n t => n.tone port t.2 t.1) n
  s.settled (if pw.all fun v => decide (v < 44) then n.dropPort port else n)

/-- 11 R351: the message reaches the transmitting end. -/
def execSpare (port : Fin 16) (m : SwitchMsg) (s : State) : Result :=
  let n := s.node
  let x := n.port port
  s.next (if x.state == 5 && decide (m.lane < 8) then
    n.setPort port { x with txSwitch := x.txSwitch ++ [⟨m.lane, m.count % 4096, false⟩] } else n)

/-- 11 R352. -/
def execWidth (port : Fin 16) (m : SwitchMsg) (s : State) : Result :=
  let n := s.node
  let x := n.port port
  s.next (if x.state == 5 && decide (m.lane < 9) then
    n.setPort port { x with txSwitch := x.txSwitch ++ [⟨m.lane, m.count % 4096, true⟩] } else n)

/-- A switch that has taken place at the receiving end: counted, and logged. -/
def Node.noteSwitch (s : Node) (p : Nat) (w : LaneSwitch) : Node :=
  (s.setPort p ((s.port p).count (if w.width then 11 else 10))).logUnit (if w.width then 0x0612 else 0x0611) (unitOf 7 p)

/-- 11 R351, R352: the codeword numbered C: what was to change there changes. The swap is counted and logged where it was asked
for. -/
def execLaneSwitch (port : Fin 16) (tx : Bool) (count : Nat) (s : State) : Result :=
  let n := s.node
  let x := n.port port
  let here := fun (w : LaneSwitch) => w.count == count % 4096
  if tx then
    let l := x.txSwitch.filter here
    s.next (n.setPort port { x with tx := l.foldl switched x.tx, txSwitch := x.txSwitch.filter fun w => !here w
                                    txSpared := x.txSpared || l.any fun w => !w.width })
  else
    let l := x.rxSwitch.filter here
    let n := n.setPort port { x with rx := l.foldl switched x.rx, rxSwitch := x.rxSwitch.filter fun w => !here w
                                     rxSpared := x.rxSpared || l.any fun w => !w.width }
    s.next (l.foldl (fun n w => n.noteSwitch port w) n)

/-! ## Acknowledgement and replay (11 R344-R349) -/

/-- 11 R344: d(a, b). -/
def seqD (a b : Nat) : Nat := (a + 4096 - b % 4096) % 4096

/-- 11 R347: an acknowledgement. -/
def Node.ackIn (s : Node) (p a : Nat) : Node :=
  let x := s.port p
  let n := x.buffer.length
  let o := (x.txSeq + 4096 - n % 4096) % 4096
  let d := seqD a ((o + 4095) % 4096)
  if 1 ≤ d ∧ d ≤ n then
    let rest := x.buffer.drop d
    s.setPort p { x with buffer := rest, timer := if rest.isEmpty then none else some s.clk, replays := 0 }
  else if 1 ≤ seqD a ((x.txSeq + 4095) % 4096) ∧ seqD a ((x.txSeq + 4095) % 4096) ≤ 2047 then s.setPort p (x.count 9)
  else s

/-- 11 R348, R349: every outstanding flit is sent again; the eighth replay with no flit freed takes the port DOWN. -/
def Node.replay (s : Node) (p : Nat) : Node :=
  let x := s.port p
  if x.buffer.isEmpty then s
  else
    let s := s.setPort p { (x.count 2) with replays := x.replays + 1, timer := some s.clk }
    if 8 ≤ x.replays + 1 then (s.logUnit 0x0617 (unitOf 7 p)).dropPort p
    else x.buffer.foldl (fun s f => s.emit (.flit p f)) s

/-- What every flit carries: an acknowledgement and credits (11 R341, R346). -/
def Node.flitIn (s : Node) (p : Nat) (f : FlitHdr) : Node :=
  let s := if f.ackV then s.ackIn p f.ack else s
  let x := s.port p
  let s := s.setPort p { x with credits := min 2048 (x.credits + f.cred) }
  s.drainPort p (x.waiting.length + 1)

/-- 11 R346: an ACK flit. -/
def Node.sendAck (s : Node) (p : Nat) (req : Bool) : Node := s.sendLoose p 4 [] req

/-- Whether 100 ns have passed since the last acknowledgement. -/
def Node.ackQuiet (s : Node) (x : Port) : Bool := match x.lastAck with
  | some t => decide (t + 100 ≤ s.clk)
  | none => true

/-- 11 R345: a sequenced flit. -/
def Node.sequenced (s : Node) (p : Nat) (f : FlitHdr) : Node :=
  let x := s.port p
  let d := seqD f.seq x.e
  if d = 0 then
    let e := (x.e + 1) % 4096
    let turn := x.rxRekey == some e
    s.setPort p { (x.count 1) with
      e := e, accepted := x.accepted + 1, ackDue := some (x.ackDue.getD (s.clk + 500)), replaySent := false
      owed := x.owed + (if f.mgmt then 0 else 1), rxPhase := if turn then !x.rxPhase else x.rxPhase
      rxRekey := if turn then none else x.rxRekey }
  else if 2048 ≤ d then s.setPort p { (x.count 7) with ackNow := x.ackNow || s.ackQuiet x }
  else
    let s := s.setPort p { (x.count 8) with ackNow := x.ackNow || s.ackQuiet x, replaySent := true }
    if x.replaySent then s else s.sendAck p true

/-- Whether a port takes flits: its link is encrypted, with the all-zero key in KEY (14 R448). -/
def Port.live (x : Port) : Bool := decide (3 ≤ x.state)

/-- 11 R345: a DATA or MGMT flit that passed its checks. -/
def execDataFlit (port : Fin 16) (f : FlitHdr) (s : State) : Result :=
  let n := s.node
  s.settled (if (n.port port).live then (n.flitIn port f).sequenced port f else n)

/-- 11 R347, R348: an ACK flit that passed its checks. -/
def execAckFlit (port : Fin 16) (f : FlitHdr) (s : State) : Result :=
  let n := s.node
  s.settled (if (n.port port).live then (if f.replayReq then (n.flitIn port f).replay port else n.flitIn port f) else n)

/-- 11 R341: an IDLE flit. -/
def execIdleFlit (port : Fin 16) (f : FlitHdr) (s : State) : Result :=
  let n := s.node
  s.settled (if (n.port port).live then n.flitIn port f else n)

/-- The header fields of a flit's first 32 bytes (11 Table 11.2). -/
def readHead (b : Bytes) : FlitHdr :=
  { keyPhase := bitAt (getLe b 1 1) 0, replayReq := bitAt (getLe b 1 1) 1, ackV := bitAt (getLe b 1 1) 2, seq := getLe b 2 2 % 4096
    ack := getLe b 4 2 % 4096, cred := getLe b 6 2, src := getLe b 12 2 % 32768, sport := getLe b 14 1 % 16, fctr := getLe b 16 5
    mgmt := getLe b 0 1 % 16 == 2 }

/-- 11 R342, R355: the checks of a flit in order: the counter of the first that fails. -/
def Port.flitCode (x : Port) (b : Bytes) : Option Nat :=
  if b.length != 640 || getLe b 636 4 != crc32c (slice b 0 636) then some 3
  else
    let key := KList.getD x.rxKeys (b2n (readHead b).keyPhase) []
    if (gcmOpen key (headIv b) (slice b 0 32) (slice b 32 576) (slice b 608 16)).isNone then some 4 else none

/-- What a flit that passed its checks does. A type that Table 11.2 does not name does nothing (notes/assumptions/100.md). -/
def Node.flitGood (s : Node) (p : Nat) (b : Bytes) : Node :=
  let f := readHead b
  match getLe b 0 1 % 16 with
  | 0 => s.flitIn p f
  | 1 => (s.flitIn p f).sequenced p f
  | 2 => (s.flitIn p f).sequenced p f
  | 3 => s.flitIn p f
  | 4 => if f.replayReq then (s.flitIn p f).replay p else s.flitIn p f
  | _ => s

/-- 11 R339, R342: a codeword: its checks in order, and then its flit. -/
def Node.codeword (s : Node) (p count : Nat) (corrected : List Nat) (fecOk : Bool) (b : Bytes) : Node :=
  let x := s.port p
  if !x.live then s
  else
    let x := { x with rxCount := count % 4096 }
    if !fecOk then s.setPort p (x.count 5)
    else
      let x := x.count 6 (sumN corrected)
      match x.flitCode b with
      | some c => s.setPort p (x.count c)
      | none => (s.setPort p x).flitGood p b

/-- 11 R342: `fecOk`: the codeword decodes, to the flit given by the parts of Table 11.2: bytes 0-31, `PAYLOAD`, `TAG`, bytes
624-639; `corrected`: the symbols corrected, by lane. -/
def execCodewordReceive (port : Fin 16) (count : Nat) (corrected : List Nat) (fecOk : Bool) (head payload tag tail : Bytes) (s : State) : Result :=
  s.settled (s.node.codeword port count corrected fecOk (head ++ payload ++ tag ++ tail))

/-- 11 R346: the moments for an ACK flit. -/
def Node.ackDueNow (s : Node) (x : Port) : Bool :=
  decide (32 ≤ x.accepted) || x.ackNow || (match x.ackDue with
    | some t => decide (t ≤ s.clk)
    | none => false)

/-- 11 R346. -/
def execAckTimer (port : Fin 16) (s : State) : Result :=
  let n := s.node
  let x := n.port port
  s.next (if x.live && n.ackDueNow x then n.sendAck port false else n)

/-- 11 R348: the replay timer reaches 4 µs. -/
def execReplayTimeout (port : Fin 16) (s : State) : Result :=
  let n := s.node
  match (n.port port).timer with
  | some t => s.settled (if n.passed t 4 then n.replay port else n)
  | none => s.next n

/-! ## Keys (11 R355, R356; 14 R448, R449) -/

/-- 14 R449: the 64 bytes that both ends compute from the ECDH secret: the first half keys the direction from the lower node. -/
def linkKeys (secret : Bytes) (node port peer pport phase : Nat) : Bytes :=
  let low := decide (node ≤ peer)
  let name := [0x52, 0x4F, 0x53, 0x43, 0x45, 0x4C]
  let info := name ++ natLe 2 (min node peer) ++ natLe 2 (max node peer) ++ natLe 2 (if low then port else pport)
    ++ natLe 2 (if low then pport else port) ++ natLe 2 phase
  let prk := Sha.hmac384 (List.replicate 48 0) secret
  let t := Sha.hmac384 prk (info ++ [1])
  (t ++ Sha.hmac384 prk (t ++ info ++ [2])).take 64

/-- The keys of a new exchange: transmit, receive. The secret of the exchange is a free value. -/
def Node.agree (s : Node) (p peer pport phase : Nat) : (Bytes × Bytes) × Node :=
  let f := s.free
  let k := linkKeys (natLe 48 f.1) s.dev.node p peer pport phase
  (if s.dev.node ≤ peer then (k.take 32, k.drop 32) else (k.drop 32, k.take 32), f.2)

/-- 14 R448, 11 Table 11.3: a REKEY: its point and its signature are free bytes. -/
def Node.sendRekey (s : Node) (p : Nat) (phase : Bool) (seq : Nat) : Node :=
  let f := s.free
  f.2.sendMgmt p (natLe 1 3 ++ natLe 1 (b2n phase) ++ natLe 6 0 ++ natLe 8 seq ++ natLe 16 0 ++ natLe 192 f.1)

/-- 14 R448: the link certificate, in fragments of 512 B (notes/assumptions/100.md). -/
def Node.sendCert (s : Node) (p : Nat) : Node :=
  let n := max 1 (ceilDiv s.sec.slot1.length 512)
  (List.range n).foldl (fun s i =>
    let part := (s.sec.slot1.drop (512 * i)).take 512
    s.sendMgmt p (natLe 1 5 ++ natLe 1 i ++ natLe 1 n ++ natLe 1 0 ++ natLe 2 part.length ++ natLe 26 0 ++ part)) s

/-- A sender asks for a new key: the REKEY names the flit after it (notes/assumptions/37.md). -/
def Node.startRekey (s : Node) (p : Nat) : Node :=
  let x := s.port p
  if x.rekey.isSome then s
  else
    let q := (x.txSeq + 1) % 4096
    let s := s.sendRekey p (!x.keyPhase) q
    s.setPort p { s.port p with rekey := some q }

/-- 11 R356: `FCTR` reaches 2^`REKEY_EXP`. -/
def execRekeyStart (port : Fin 16) (s : State) : Result :=
  let n := s.node
  let x := n.port port
  s.next (if x.state == 5 && decide (2 ^ x.rekeyExp ≤ x.fctr) then n.startRekey port else n)

/-- 11 R356: the new transmit key takes effect; `FCTR` restarts. -/
def Node.turnKey (s : Node) (p : Nat) (key : Bytes) : Node :=
  let x := s.port p
  let x := { (x.count 13) with keyPhase := !x.keyPhase, fctr := 0, rekey := none, txKey := key, rekeyExp := fld (s.reg .linkCfg) 0 8 }
  (s.setPort p x).drainPort p (x.waiting.length + 1)

/-- 11 R356, 14 R448: the peer's REKEY. In KEY it agrees the first keys; in UP both
directions take new ones. The receive key that it replaces is two phases old. -/
def execRekey (port : Fin 16) (phase : Bool) (seq : RekeyPoint) (sigOk : Bool) (s : State) : Result :=
  let n := s.node
  let x := n.port port
  if !sigOk then s.next n
  else if x.state == 3 then
    if phase then s.next n
    else
      let r := n.agree port seq.src seq.sport 0
      s.next (r.2.setPort port { x with keyOk := true, newKeys := some r.1 })
  else if x.state == 5 && phase != x.rxPhase then
    let n := n.startRekey port
    let r := n.agree port seq.src seq.sport (b2n phase)
    let y := r.2.port port
    let n := r.2.setPort port { y with rxRekey := some (seq.seq % 4096), rxKeys := KList.put y.rxKeys (b2n phase) r.1.2 }
    s.next (n.turnKey port r.1.1)
  else s.next n

/-- 11 R356: no new key by 2^40 − 1 flits. -/
def execRekeyFail (port : Fin 16) (s : State) : Result :=
  let n := s.node
  let x := n.port port
  s.settled (if x.state == 5 && decide (2 ^ 40 - 1 ≤ x.fctr) then (n.logUnit 0x0613 (unitOf 7 port)).dropPort port else n)

/-- 14 R448: a fragment of the peer's certificate. -/
def execLcert (port : Fin 16) (index count : Nat) (certOk : Bool) (s : State) : Result :=
  let n := s.node
  let x := n.port port
  s.next (if x.state != 3 then n
    else if index != x.certNext then n
    else n.setPort port { x with certNext := index + 1, certOk := certOk && index + 1 == count })

/-! ## Neighbours (11 R357, R358; 12 R401) -/

/-- 12 R401: a neighbour's digest. -/
def Node.seeDigest (s : Node) (p node digest : Nat) : Node :=
  let own := s.digest
  let m := s.member node
  let s := { s with peloton := { s.peloton with members := KList.put s.peloton.members node { m with diverged := own != digest } } }
  let key := own * 2 ^ 128 + digest
  let x := s.port p
  if own == digest || (s.links.ports.any fun q => q.2.digestSeen.contains key) then s
  else (s.setPort p { x with digestSeen := key :: x.digestSeen }).logUnit 0x0609 (unitOf 7 p)

/-- 11 R358: the port against which a neighbour's announcement is compared: the primary one to the same node. -/
def Node.rival (s : Node) (p node : Nat) : Option (Nat × Port) :=
  List.find? (fun (q : Nat × Port) => q.1 != p && q.2.nv && q.2.nbr == node && !q.2.alt && decide (4 ≤ q.2.state)) s.links.ports

/-- 11 R358. -/
def Node.conflict (s : Node) (p node time : Nat) : Node :=
  match s.rival p node with
  | none => s
  | some (i, q) =>
    let close := decide (time ≤ q.annTime + 10000 ∧ q.annTime ≤ time + 10000)
    let win := decide (time < q.annTime) || (time == q.annTime && decide (p < i))
    let loser := if win then i else p
    let x := s.port loser
    let s := s.setPort loser { x with alt := true }
    if close then (s.setPort loser ((s.port loser).count 14)).logUnit 0x0614 (unitOf 7 loser) else s

/-- 11 R357. -/
def execNeigh (port : Fin 16) (node nport : Nat) (time : Nat) (digest : Nat) (s : State) : Result :=
  let n := s.node
  let x := n.port port
  if x.state < 4 || 16 ≤ nport then s.next n
  else
    let n := n.setPort port { x with nv := true, nbr := node % 32768, annTime := time, alt := false, neighOk := true }
    s.next ((n.conflict port (node % 32768) time).seeDigest port (node % 32768) digest)

/-! ## Bring-up (11 R353) -/

/-- No reset that takes ports DOWN runs (11 R354). -/
def Node.linksUp (s : Node) : Bool := s.mgt.resets.all fun r => !r.begun || decide (2 ≤ r.level)

/-- The tones that are within Table 11.1. -/
def tonesOk (pw : List Nat) : Nat := sumN ((List.range 9).map fun i => if 52 ≤ pw.getD i 0 ∧ pw.getD i 0 ≤ 72 then 2 ^ i else 0)

/-- DOWN to LIGHT. -/
def execPortLight (port : Fin 16) (rxSignal : Nat) (s : State) : Result :=
  let n := s.node
  let x := n.port port
  let tones := tonesOk x.laser
  s.next (if x.state == 0 && x.retryAt.isNone && bitAt (n.reg .portCfg port) 0 && n.linksUp && n.dev.ready
      && decide (7 ≤ popcount 9 tones) && decide (7 ≤ popcount 9 rxSignal) then
    n.setPort port { x with state := 1, since := n.clk, rxBad := 511 - rxSignal % 512, txBad := 511 - tones }
    else n)

/-- LIGHT to TRAIN: the lanes that take part are settled; a lane or a tone taken out before returns here. -/
def execPortTrain (port : Fin 16) (elapsed : Nat) (s : State) : Result :=
  let n := s.node
  let x := n.port port
  s.next (if x.state == 1 && decide (elapsed ≤ 1000000) && !n.passed x.since 1000 then
    n.setPort port { x with state := 2, since := n.clk, rx := lanesOf x.rxBad, tx := lanesOf x.txBad,
                            rxSpared := bitAt (lanesOf x.rxBad) 8, txSpared := bitAt (lanesOf x.txBad) 8 }
    else n)

/-- 14 R448: the key of flits sent during KEY. -/
def zeroKey : Bytes := List.replicate 32 0

/-- TRAIN to KEY: the certificate and the key exchange are sent. -/
def execPortKey (port : Fin 16) (s : State) : Result :=
  let n := s.node
  let x := n.port port
  if x.state == 2 && !n.passed x.since 2000 then
    let n := n.setPort port { x with
      state := 3, since := n.clk, certNext := 0, certOk := false, keyOk := false, neighOk := false, keyPhase := false, rxPhase := false
      txSeq := 0, e := 0, buffer := [], waiting := [], timer := none, replays := 0, fctr := 0
      txKey := zeroKey, rxKeys := [(0, zeroKey)], newKeys := none }
    s.next ((n.sendCert port).sendRekey port false 0)
  else s.next n

/-- KEY to NEIGH: NEIGH is sent. -/
def execPortNeigh (port : Fin 16) (s : State) : Result :=
  let n := s.node
  let x := n.port port
  if x.state == 3 && x.certOk && x.keyOk && !n.passed x.since 20000 then
    let k := x.newKeys.getD (zeroKey, zeroKey)
    let n := n.setPort port { x with state := 4, since := n.clk, fctr := 0, txKey := k.1, rxKeys := [(0, k.2)], newKeys := none
                                     rekeyExp := fld (n.reg .linkCfg) 0 8 }
    s.next (n.sendMgmt port (natLe 1 4 ++ natLe 1 0 ++ natLe 2 n.dev.node ++ natLe 1 port.val ++ natLe 3 0 ++ natLe 8 n.now
      ++ natLe 16 n.digest))
  else s.next n

/-- NEIGH to UP: fresh credits, sequence numbers 0. -/
def execPortUp (port : Fin 16) (s : State) : Result :=
  let n := s.node
  let x := n.port port
  if x.state == 4 && x.neighOk && !n.passed x.since 1000 && bitAt (n.reg .portCfg port) 0 then
    let n := n.setPort port { x with
      state := 5, since := n.clk, credits := 2048, txSeq := 0, e := 0, buffer := [], waiting := [], timer := none, replays := 0
      accepted := 0, ackDue := none, lastAck := none, replaySent := false, owed := 0, ackNow := false, diverged := 0
      spareThr := fld (n.reg .portCfg port) 8 8 }
    s.next (n.stateEvent (130 + port) 1)
  else s.next n

/-- The limit of a bring-up state, in µs. -/
def stepLimit : Nat → Nat
  | 1 => 1000 | 2 => 2000 | 3 => 20000 | 4 => 1000 | _ => 0

/-- A step that does not complete within its limit. -/
def execPortStepTimeout (port : Fin 16) (s : State) : Result :=
  let n := s.node
  let x := n.port port
  s.next (if 1 ≤ x.state && x.state ≤ 4 && n.passed x.since (stepLimit x.state) then n.dropPort port else n)

/-- 100 ms after a failed step. -/
def execPortRetry (port : Fin 16) (s : State) : Result :=
  let n := s.node
  let x := n.port port
  match x.retryAt with
  | some t => s.next (if x.state == 0 && t ≤ n.clk then n.setPort port { (x.count 12) with retryAt := none } else n)
  | none => s.next n

/-! ## Time (11 R359-R361, 15 R502) -/

/-- A TIME flit (11 Table 11.4). -/
def Node.sendTime (s : Node) (p msg num t : Nat) : Node := s.sendLoose p 3 (natLe 8 msg ++ natLe 8 t ++ natLe 2 num) false

/-- 11 R359: an exchange starts: SYNC, and FOLLOW_UP with t1. -/
def execTimeExchange (port : Fin 16) (s : State) : Result :=
  let n := s.node
  let x := n.port port
  if x.state == 5 then
    let num := (x.exNum + 1) % 65536
    let n := n.setPort port { x with exNum := num }
    s.next ((n.sendTime port 1 num 0).sendTime port 2 num n.now)
  else s.next n

/-- SYNC arrives: t2. The exchange is judged by `XCHK_NS` as it is now (11 R363). -/
def execSync (port : Fin 16) (num t2 : Nat) (s : State) : Result :=
  let n := s.node
  let x := n.port port
  s.next (if x.state == 5 then n.setPort port { x with syncNum := num, t2 := t2, xchk := fld (n.reg .timeCfg) 16 16 } else n)

/-- FOLLOW_UP: t1; DELAY_REQ leaves at t3. -/
def execFollowUp (port : Fin 16) (num t1 t3 : Nat) (s : State) : Result :=
  let n := s.node
  let x := n.port port
  s.next (if x.state == 5 && x.syncNum == num then (n.setPort port { x with t1 := t1, t3 := t3 }).sendTime port 3 num 0 else n)

/-- DELAY_REQ, answered with t4. -/
def execDelayReq (port : Fin 16) (num t4 : Nat) (s : State) : Result :=
  let n := s.node
  s.next (if (n.port port).state == 5 then n.sendTime port 4 num t4 else n)

/-- 11 R360: the offset from the parent: within 1,000 ns the rate is slewed (notes/assumptions/14.md); beyond, the time
steps forward, or is held (15 R502). -/
def Node.correct (s : Node) (off : Int) : Node :=
  if -1000 ≤ off ∧ off ≤ 1000 then
    { s with links := { s.links with tstate := if -25 ≤ off ∧ off ≤ 25 then 2 else 1 } }
  else
    let s := { s with links := { s.links with tstate := 1 } }
    if off < 0 then { s with mgt := { s.mgt with timeNs := s.mgt.timeNs + off.natAbs, timeValid := true, timeHold := none } }
    else { s with mgt := { s.mgt with timeHold := some (s.mgt.timeNs - off.natAbs) } }

/-- 11 R361, 16 R511: a neighbour that is no parent. -/
def Node.crossCheck (s : Node) (p : Nat) (off : Int) : Node :=
  let x := s.port p
  if x.xchk < off.natAbs then
    let s := (s.setPort p { x with diverged := x.diverged + 1 })
    let s := { s with log := { s.log with tsusOk := 0 } }
    if x.diverged + 1 == 4 then
      let s := s.logUnit 0x0616 (unitOf 7 p)
      { s with log := { s.log with tsus := true } }
    else s
  else
    let s := s.setPort p { x with diverged := 0 }
    let ok := s.log.tsusOk + 1
    let others := (s.upPorts.filter fun i => !(bitAt (s.reg .timeCfg) 4 && fld (s.reg .timeCfg) 0 4 == i)).length
    { s with log := { s.log with tsusOk := ok, tsus := s.log.tsus && decide (ok < 4 * max 1 others) } }

/-- 11 R359: DELAY_RESP: offset and delay. -/
def execDelayResp (port : Fin 16) (num t4 : Nat) (s : State) : Result :=
  let n := s.node
  let x := n.port port
  if x.state != 5 || x.syncNum != num then s.next n
  else
    let a : Int := (x.t2 : Int) - x.t1
    let b : Int := (t4 : Int) - x.t3
    let off := (a - b) / 2
    let delay := (a + b) / 2
    let tc := n.reg .timeCfg
    if bitAt tc 4 && fld tc 0 4 == port.val then
      let n := { n with links := { n.links with offset := ofSigned 32 off, delay := ofSigned 16 delay } }
      s.next (n.correct off)
    else s.next (n.crossCheck port off)

/-- 15 R502: the parent's time has reached the count that is held. -/
def execTimeHoldEnd (parentTime : Nat) (s : State) : Result :=
  let n := s.node
  s.next (if n.mgt.timeHold.isSome && n.mgt.timeNs ≤ parentTime then { n with mgt := { n.mgt with timeHold := none, timeValid := true } } else n)

end Sys2Proof.Machine
end

