-- ==== Sys2Proof/Machine/Fab.lean ====
section
/-! DEFINITION. Fabric memory (12 R365-R381): transactions that arrive, responses, the window, job and route items. -/

namespace Sys2Proof.Machine

/-! ## Arriving requests -/

/-- 12 R367: a packet for another node is sent on, or turned back. -/
def Node.forward (s : Node) (p : Packet) : Node :=
  let fail := (s.logUnit 0x0606).refuse p 0x0606
  if 31 ≤ p.hops then fail else (s.sendPacket { p with hops := p.hops + 1 }).getD fail

/-- 12 R372: membership and incarnation of the source. -/
def Node.stale (s : Node) (p : Packet) : Bool := (s.member p.src).state == 7 || p.sinc != (s.member p.src).incarn

/-- A packet that arrives: at an UP port, for this node, while the node serves; `f` is what it does here. -/
def State.arrive (s : State) (p : Packet) (f : Node → Node) : Result :=
  let n := s.node
  if (n.port p.port).state != 5 then s.next n
  else if p.dst != n.dev.node then s.settled (n.forward p)
  else if !n.dataUp then s.next n
  else s.settled (f n)

/-- Arriving requests of R372: the stale ones are discarded. -/
def Node.checked (s : Node) (p : Packet) (f : Node → Node) : Node :=
  if s.stale p then { s with fabric := { s.fabric with stale := s.fabric.stale + 1 } } else f s

/-- 12 Table 12.3, 01 R33: node src writes to queue q's port: at most eight bytes are its doorbell; slots are written behind those that
doorbells have not made visible. Only a ring on this node takes them (notes/assumptions/38.md). -/
def Node.queuePort (s : Node) (src q : Nat) (data : Bytes) : Node :=
  let c := s.qcfg q
  let x := s.queue q
  if data.length ≤ 8 then s.doorbell q (leNat data)
  else if c.valid && !c.host then
    let n := slotsOf data.length
    let at' := x.resAt c.n
    let s := s.ringWrite q at' data n
    s.setQueue q { x with reserved := (at' + n) % 65536, pushed := KList.put x.pushed at' (n + 65536 * (1 + src)) }
  else s

/-- A write that is served at a node port (12 Table 12.3): a queue, a merge port, the release. Shard streams and replication
are messages of their own here (notes/assumptions/38.md). -/
def Node.nodePort (s : Node) (src addr : Nat) (data : Bytes) : Node :=
  let off := addr - portBase
  if off / 4096 < 8192 then s.queuePort src (off / 4096) data
  else if 0x10000000000 ≤ off ∧ off < 0x10010000000 then
    (if s.dataUp then s.portStream src ((off - 0x10000000000) / 65536) (off % 65536) data else s)
  else if off == 0x20000000000 then s.takeRelease (getLe data 0 4 % 2 ^ 30)
  else s

/-- Where an arriving request is served, or its code: owner and tenant-local address. Memory is lent through the windows of
12 R399, while the node's function lets it (08 R258). -/
def Node.admitReq (s : Node) (p : Packet) (bit : Nat) (wr : Bool) : Except Nat (Nat × Nat) :=
  match s.windowFor p.job p.src p.addr p.len bit with
  | .error c => .error c
  | .ok w =>
    let a := w.lbase + (p.addr - w.gbase)
    if w.sys && w.job == 0 && !s.acceptsStore then .error 0x0341
    else match s.memCode w.owner a p.len wr with
      | 0 => .ok (w.owner, a)
      | c => .error c

/-- The completed posted writes of a source (12 R376). -/
def Node.acksFor (s : Node) (src : Nat) : List Served := s.fabric.served.filter fun x => x.src == src

/-- 12 R376: a PWR_ACK for up to 16 completed posted writes of a source. -/
def Node.sendPwrAck (s : Node) (src : Nat) : Node :=
  let l := (s.acksFor src).take 16
  let s := { s with fabric := { s.fabric with served := s.fabric.served.filter fun x => !l.contains x } }
  let k := s.packet 6 src 0 0 0 0 (l.flatMap fun x => natLe 2 x.tag)
  (s.sendPacket k).getD (s.logUnit 0x0606)

/-- A posted write has completed. -/
def Node.postedDone (s : Node) (p : Packet) : Node :=
  let s := { s with fabric := { s.fabric with
    served := s.fabric.served ++ [{ src := p.src, tag := p.tag % 16384 + 16384 * p.cls, since := s.clk }] } }
  if 16 ≤ (s.acksFor p.src).length then s.sendPwrAck p.src else s

/-- RD (12 R372). -/
def execRd (p : Packet) (s : State) : Result :=
  s.arrive p fun n => n.checked p fun n =>
    if portBase ≤ p.addr then n.refuse p 0x0601
    else match n.admitReq p 1 false with
      | .error c => n.refuse p c
      | .ok (o, a) => match n.tierRead { owner := o, tile := 0, due := false } a p.len with
        | (.ok b, n) => n.answer p 2 0 b false
        | (.error c, n) => n.refuse p c

/-- WR and PWR: the write is served, or refused; where the journal has no room it waits (09 R293). -/
def Node.arrivingWrite (s : Node) (p : Packet) (bit : Nat) (ok : Node → Node) : Node :=
  if portBase ≤ p.addr then (if p.job == 0 then ok (s.nodePort p.src p.addr p.data) else s.refuse p 0x0601)
  else match s.admitReq p bit true with
    | .error c => s.refuse p c
    | .ok (o, a) =>
      if s.storeRoom o a p.len then ok ((s.storeAt o a p.data (allBytes p.data.length)).served o a s.clk 0)
      else { s with fabric := { s.fabric with held := s.fabric.held ++ [p] } }

/-- A write that was admitted is served, a posted one without a response. -/
def Node.serveWrite (s : Node) (p : Packet) : Node :=
  if p.ptype == 5 then s.arrivingWrite p 4 fun n => n.postedDone p else s.arrivingWrite p 2 fun n => n.answer p 4 0 [] false

/-- AMO (12 R368): `STATUS` holds f; the data are the operand and, for CAS, the compare value. -/
def Node.serveAmo (s : Node) (p : Packet) : Node :=
  if portBase ≤ p.addr then s.refuse p 0x0601
  else match s.admitReq { p with len := amoWidth p.status } 3 true with
    | .error c => s.refuse p c
    | .ok (o, a) =>
      if s.amoCode o a (amoWidth p.status) != 0 then s.refuse p (s.amoCode o a (amoWidth p.status))
      else if !s.storeRoom o a 8 then { s with fabric := { s.fabric with held := s.fabric.held ++ [p] } }
      else
        let r := s.amoAt o a p.status (getLe p.data 0 8) (getLe p.data 8 8)
        (r.2.answer p 8 0 (natLe 8 r.1) false).served o a s.clk 0

/-- Whether an earlier packet of the same source and page still waits (12 R368). -/
def Node.behind (s : Node) (p : Packet) : Bool := s.fabric.held.any fun k => k.src == p.src && fld k.addr 12 36 == fld p.addr 12 36

/-- Writes and atomics that waited for the journal are served, as far as it has room, those of one source and page in order. -/
def Node.serveHeld (s : Node) : Node :=
  s.fabric.held.foldl (fun (s : Node) p =>
    if s.behind p then { s with fabric := { s.fabric with held := s.fabric.held ++ [p] } }
    else if p.ptype == 7 then s.serveAmo p else s.serveWrite p) { s with fabric := { s.fabric with held := [] } }

/-- One that arrives while others wait waits behind them (12 R368). -/
def Node.serveNext (s : Node) (p : Packet) : Node := ({ s with fabric := { s.fabric with held := s.fabric.held ++ [p] } }).serveHeld

/-- WR (12 R372). -/
def execWr (p : Packet) (s : State) : Result := s.arrive p fun n => n.checked p fun n => n.serveNext { p with ptype := 3 }

/-- PWR (12 R376). -/
def execPwr (p : Packet) (s : State) : Result := s.arrive p fun n => n.checked p fun n => n.serveNext { p with ptype := 5 }

/-- 12 R376: 1 µs after the oldest completion that has not been acknowledged. -/
def execPwrAckTimer (src : Nat) (s : State) : Result :=
  let n := s.node
  match n.acksFor src with
  | x :: _ => s.settled (if n.passed x.since 1 then n.sendPwrAck src else n)
  | [] => s.next n

/-- AMO (12 R368). -/
def execAmoPacket (p : Packet) (s : State) : Result := s.arrive p fun n => n.checked p fun n => n.serveNext { p with ptype := 7 }

/-! ## Responses -/

/-- The request that a response answers: of the target, or of a node on the way that could not send it on (12 R367). -/
def Node.requestOf (s : Node) (p : Packet) (ptype : Nat) : Option Request :=
  match KList.find? s.fabric.reqs (reqKey p.cls p.tag) with
  | some r => if r.ptype == ptype && (r.dst == p.src || p.status == 0x0606 || p.status == 0x0607) then some r else none
  | none => none

/-- The code of a response: `POISON` without a STATUS is an uncorrectable error. -/
def failureOf (p : Packet) : Nat := if p.status != 0 then p.status else if p.poison then 0x0501 else 0

/-- 12 R369: a response ends its request; one whose request has ended is discarded (R378). `ok` ends the access. -/
def State.respond (s : State) (p : Packet) (ptype : Nat) (ok : Node → Nat → Access → Node) : Result :=
  s.arrive p fun n => match n.requestOf p ptype with
    | none => n
    | some r =>
      let key := reqKey p.cls p.tag
      if failureOf p != 0 then (n.failReq key (failureOf p) 0).tagFreed
      else
        let n := n.dropReq key
        (match r.acc with
        | some id => match n.acc id with
          | some a => (ok n id a).countStall a.owner a.addr a.issued
          | none => n
        | none => n).tagFreed

/-- A line of POOL has been read: it is opened, and gives a load its bytes; an atomic takes effect, and its line is written
(14 R442, R447). -/
def Node.poolRead (s : Node) (id : Nat) (a : Access) (c : Bytes) : Node :=
  match s.lineOpened a.owner (s.locAt a.owner a.addr + a.addr % 2097152) a.old c with
  | none => (s.logFor 0x0907 a.owner).failAccess id a 0x0907
  | some plain =>
    if a.kind == 0 then s.giveAccess id a (slice plain (a.addr % 256) a.size)
    else
      let r := s.amoAt a.owner a.addr a.fn (leNat a.data) a.cmp
      r.2.sendPool id { a with step := 1, old := natLe (amoWidth a.fn) r.1, tag := none }

/-- A line of POOL has been written: its metadata follow; then the access ends. -/
def Node.poolWritten (s : Node) (id : Nat) (a : Access) : Node :=
  if a.step == 1 then s.sendPool id { a with step := 2, tag := none }
  else if a.kind == 2 then s.giveAccess id a a.old else s.endAccess id

/-- RD_RSP (12 R369). -/
def execRdRsp (p : Packet) (s : State) : Result :=
  s.respond p 1 fun n id a => if bitAt a.addr 63 then n.giveAccess id a p.data else n.poolRead id a p.data

/-- WR_RSP (12 R369). -/
def execWrRsp (p : Packet) (s : State) : Result :=
  s.respond p 3 fun n id a => if bitAt a.addr 63 then n.storeDone id a else n.poolWritten id a

/-- AMO_RSP (12 R369). -/
def execAmoRsp (p : Packet) (s : State) : Result :=
  s.respond p 7 fun n id a => n.giveAccess id a (natLe (amoWidth a.fn) (getLe p.data 0 (amoWidth a.fn)))

/-- The tags of a PWR_ACK. -/
def ackTags : Nat → Bytes → List Nat
  | 0, _ => []
  | n + 1, b => if b.length < 2 then [] else getLe b 0 2 :: ackTags n (b.drop 2)

/-- One posted write is acknowledged. -/
def Node.postedAck (s : Node) (src tag : Nat) : Node :=
  let key := reqKey (tag / 16384) tag
  match KList.find? s.fabric.reqs key with
  | some r =>
    if r.ptype == 5 && r.dst == src then
      let s := s.dropReq key
      (match r.acc with
      | some id => match s.acc id with
        | some a => s.storeDone id a
        | none => s
      | none => s).tagFreed
    else s
  | none => s

/-- PWR_ACK (12 R376). -/
def execPwrAck (p : Packet) (s : State) : Result :=
  s.arrive p fun n => (ackTags 16 p.data).foldl (fun n t => n.postedAck p.src t) n

/-- FAULT_NOTE (12 R377). -/
def execFaultNote (p : Packet) (s : State) : Result :=
  s.arrive p fun n => match n.requestOf p 5 with
    | none => n
    | some r =>
      let n := (n.dropReq (reqKey p.cls p.tag)).ledger p.data 0 r
      (match r.acc with
      | some id => n.endAccess id
      | none => n).tagFreed

/-- `FAB_TMO_CFG.TGT_US`. -/
def Node.tgtUs (s : Node) : Nat := fld (s.reg .tmoCfg) 0 14

/-- A request that no answer has reached in time. -/
def State.reqTimeout (s : State) (key : Nat) (posted : Bool) : Result :=
  let n := s.node
  match KList.find? n.fabric.reqs key with
  | some r => s.settled (if (r.ptype == 5) == posted && n.passed r.issued n.tgtUs then (n.failReq key 0x0603 1).tagFreed else n)
  | none => s.next n

/-- 12 R378. -/
def execTargetTimeout (tag : Nat) (s : State) : Result := s.reqTimeout tag false

/-- 12 R379. -/
def execPostedWriteTimeout (tag : Nat) (s : State) : Result := s.reqTimeout tag true

/-! ## Items: windows, jobs, routes -/

def readWindow (b : Bytes) : Window :=
  { flags := getLe b 0 1, sys := bitAt (getLe b 1 1) 0, job := getLe b 2 2, tid := getLe b 4 2, peer := getLe b 6 2, gbase := getLe b 8 8,
    lbase := getLe b 16 8, len := getLe b 24 4 }

/-- 12 Table 12.2: a window record by itself. -/
def windowOk (b : Bytes) : Bool :=
  let w := readWindow b
  bitAt w.flags 0 && decide (w.flags < 64) && decide (getLe b 1 1 < 2) && decide (w.tid < 1024) && (!w.sys || w.tid == 0)
  && decide (w.peer < 32768) && decide (w.gbase % 2097152 = 0) && decide (w.gbase < portBase) && decide (w.lbase % 2097152 = 0)
  && decide (w.lbase < 2 ^ 48) && decide (1 ≤ w.len) && decide (w.gbase + w.len * 2097152 ≤ portBase) && zeros b 28 4

/-- 12 R371: a job of a window is ACTIVE here; job 0 always is. -/
def Node.jobActive (s : Node) (j : Nat) : Bool := j == 0 || (match s.job j with
  | some x => !x.faulted
  | none => false)

/-- Two windows of one job overlap in `GBASE` range. -/
def Window.overlaps (a b : Window) : Bool :=
  a.job == b.job && decide (a.gbase < b.gbase + b.len * 2097152) && decide (b.gbase < a.gbase + a.len * 2097152)

/-- 12 R399: a lend window that names this node as its peer. -/
def Node.lentHere (s : Node) (w : Window) : Bool := w.sys && w.job == 0 && bitAt w.flags 5 && w.peer == s.dev.node

/-- WINDOW_CREATE (12 R371). One that a lender sends here for a lend window of which this node is the peer is the grant
(12 R399; notes/assumptions/101.md). -/
def execWindowCreate (q : Fin 8192) (s : State) : Result :=
  s.runM q 0x38 fun a =>
    let n := s.node
    let b := slice a.item.bytes 72 32
    let w := readWindow b
    if a.item.fwd && windowOk b && n.lentHere w then (n.takeGrant a.item.src w.gbase w.len).doneM q a (done 0) else
    if !windowOk b || !n.jobActive w.job || n.fabric.windows.any fun x => x.2.overlaps w then n.doneM q a (done 0x01C0)
    else match KList.firstFree n.fabric.windows 4096 0 with
      | none => n.doneM q a (done 0x0360)
      | some i => ({ n with fabric := { n.fabric with windows := KList.put n.fabric.windows i w } }).doneM q a (done 0 i)

/-- WINDOW_REMOVE (12 R371, R373). -/
def execWindowRemove (q : Fin 8192) (s : State) : Result :=
  s.runM q 0x39 fun a =>
    let n := s.node
    let i := a.item.arg 0 % 4096
    match KList.find? n.fabric.windows i with
    | none => n.doneM q a (done 0x01C0)
    | some _ => ({ n with fabric := { n.fabric with windows := KList.del n.fabric.windows i } }).doneM q a (done 0)

/-- The member list of a JOB_START, from the operator's queue's owner. -/
def Node.memberList (s : Node) (owner addr n : Nat) : List Nat := (List.range n).map fun i => s.readLe owner (addr + 4 * i) 4 % 32768

/-- JOB_START (12 R374). -/
def execJobStart (q : Fin 8192) (s : State) : Result :=
  s.runM q 0x3A fun a =>
    let n := s.node
    let j := a.item.arg 0 % 65536
    let owner := if bitAt (a.item.arg 1) 10 then sysOwner else a.item.arg 1 % 1024
    if j == 0 || (n.job j).isSome then n.doneM q a (done 0x01C1)
    else if 1024 ≤ n.fabric.jobs.length then n.doneM q a (done 0x0361)
    else
      let ms := n.memberList (n.qcfg q).owner (a.item.arg 2) a.item.count
      (n.setJob j { owner := owner, members := ms, faulted := false, posted := 0, seen := 0, unreported := [] }).doneM q a (done 0)

/-- JOB_STOP (13 R411, 12 R375): an ACTIVE job faults first; its number is free. -/
def execJobStop (q : Fin 8192) (s : State) : Result :=
  s.runM q 0x3C fun a =>
    let n := s.node
    let j := a.item.arg 0 % 65536
    if (n.job j).isNone then n.doneM q a (done 0x01C1)
    else
      let n := n.faultJob j
      ({ n with fabric := { n.fabric with jobs := KList.del n.fabric.jobs j } }).doneM q a (done 0)

/-- ROUTE_SET (12 R367). -/
def execRouteSet (q : Fin 8192) (s : State) : Result :=
  s.runM q 0x40 fun a =>
    let n := s.node
    let d := a.item.arg 0 % 32768
    ({ n with fabric := { n.fabric with routes := KList.put n.fabric.routes d (a.item.arg 1) } }).doneM q a (done 0)

end Sys2Proof.Machine
end

