-- ==== Sys2Proof/Machine/Index.lean ====
section
/-! DEFINITION. Index shards, side lists, generations, seals and compaction (02; 04 R117; 07 R219, R223). -/

namespace Sys2Proof.Machine

/-! ## Side lists (02 R45-R47) -/

/-- Ordinals for which a side list's streams have space: twice the live ordinals that it may hold. -/
def sideCap : Nat := 2 ^ 17

/-- Whether an ID may be appended to a shard (02 R37). -/
def vectorIdOk (x : ShardId) (id : Nat) : Bool := id != padId && id / 2 ^ 48 == x.shard.val

/-- 02 R37, R46, R47, 07 R223: the append block's code, 0 for none. -/
def appendCode (x : Shard) (part : Nat) (b : Bytes) : Nat :=
  let ty := getLe b 0 1
  let fl := getLe b 1 1
  if x.params.p ≤ part then 0x0125
  else if ty != 1 && ty != 2 then 0x0101
  else if 4 ≤ fl || (bitAt fl 0 && (ty == 2 || !x.params.isPq)) || (bitAt fl 1 && ty == 1) || !zeros b 2 6 then 0x0101
  else if !vectorIdOk x.id (getLe b 8 8) then 0x0126
  else if ty == 2 && !bitAt fl 1 && !zeros b 24 8 then 0x0101
  else 0

/-- The entry of a partition in the newest sealed generation. -/
def Node.newestEntry (s : Node) (sh : ShardId) (part : Nat) : Option PartEntry := (s.newest sh).bind fun g => KList.find? g.map part

/-- 02 R45: the first live ordinal. -/
def Node.sideFirst (s : Node) (sh : ShardId) (part : Nat) : Nat := ((s.newestEntry sh part).map (·.sideFirst)).getD 0

/-- Space for the four streams of a side list whose first entry is `base`. -/
def Node.newStreams (s : Node) (x : Shard) (base : Nat) : Streams × Node :=
  let o := shOwner x.id
  let r := s.alloc o x.inst (32 * sideCap) true
  let v := r.2.alloc o x.inst (x.params.exact * sideCap) true
  let b := if x.params.ablk then v.2.alloc o x.inst (32 * sideCap) true else (0, v.2)
  let c := if x.params.isPq then b.2.alloc o x.inst (x.params.code * sideCap) true else (0, b.2)
  ({ recs := r.1, vec := v.1, blk := b.1, code := c.1, base := base }, c.2)

/-- The entries of a side list from `base` on are copied to new streams; generations that are sealed keep theirs. -/
def Node.moveSide (s : Node) (x : Shard) (l : SideList) (base : Nat) : SideList × Node :=
  let o := shOwner x.id
  let r := s.newStreams x base
  let s := ((l.st.ranges x.params base l.next).zip (r.1.ranges x.params base l.next)).foldl
    (fun s p => s.writeObj o p.2.1 (s.read o p.1.1 p.1.2)) r.2
  ({ l with st := r.1 }, s)

/-- The side list of a partition, with room in its streams for one more entry. -/
def Node.sideOf (s : Node) (x : Shard) (part : Nat) : SideList × Node :=
  match KList.find? x.sides part with
  | some l => if l.next < l.st.base + sideCap then (l, s) else s.moveSide x l (s.sideFirst x.id part)
  | none => let r := s.newStreams x 0; ({ st := r.1, next := 0 }, r.2)

/-- 10 Table 10.4: the key of a shard's SIDE_ENTRY records. -/
def sideKey (x : ShardId) : Nat := x.index.val + 4096 * x.shard.val + 2 ^ 28 * x.tid.val

/-- An append block as it is stored: `TIME` is the node's; the code stream holds the codes supplied, or zero, and zero
beyond them (02 R45, R47). -/
def storedBlock (p : ShardParams) (now : Nat) (b : Bytes) : Bytes :=
  let keep := 32 + p.exact + (if p.ablk then 32 else 0)
  let codes := if p.vfSeg == 7 then ceilDiv p.m 2 else p.m
  slice b 0 16 ++ natLe 8 now ++ slice b 24 (keep - 24)
  ++ (if bitAt (getLe b 1 1) 0 then slice (slice b keep codes) 0 p.code else List.replicate p.code 0)

/-- The SIDE_ENTRY record of an entry (10 R323). -/
def sideRec (x : ShardId) (part ordinal : Nat) (b : Bytes) : JRec :=
  { jtype := 3, seq := 0, key := sideKey x, aux := part, payload := natLe 4 ordinal ++ natLe 4 0 ++ b, since := 0 }

/-- An entry's bytes placed in the four streams; a DELETE has a record only (02 R47). -/
def Node.placeEntry (s : Node) (x : Shard) (l : SideList) (i : Nat) (b : Bytes) : Node :=
  let p := x.params
  let o := shOwner x.id
  let k := i - l.st.base
  let s := s.writeObj o (l.st.recs + 32 * k) (slice b 0 32)
  if getLe b 0 1 == 2 then s
  else
    let s := s.writeObj o (l.st.vec + p.exact * k) (slice b 32 p.exact)
    let s := if p.ablk then s.writeObj o (l.st.blk + 32 * k) (slice b (32 + p.exact) 32) else s
    if p.isPq then s.writeObj o (l.st.code + p.code * k) (slice b (32 + p.exact + (if p.ablk then 32 else 0)) p.code) else s

/-- The SHARD role's standby of a shard that this node leads, and the receivers of copies of it (12 R391, R392). -/
def Node.standbys (s : Node) (sh : ShardId) : List Nat :=
  ((s.peloton.shardMap.find? fun r => r.id == sh && r.primary == s.dev.node).bind (·.standby)).toList
  ++ (s.peloton.copies.filter fun c => c.id == sh && c.sending).map (·.peer)

/-- An entry, as it is stored, becomes the next of its side list: in HBM and in the journal (02 R48); a standby gets a copy
(12 R391). -/
def Node.pushEntry (s : Node) (x : Shard) (part : Nat) (b : Bytes) : Node :=
  let r := s.sideOf x part
  let l := r.1
  let s := (r.2.placeEntry x l l.next b).stage (sideRec x.id part l.next b)
  let s := s.setShard { x with sides := KList.put x.sides part { l with next := l.next + 1 } }
  (s.standbys x.id).foldl (fun s n => s.emit (.shard n (.append x.id part l.next b))) s

/-- The next ordinal of a side list. -/
def Shard.nextOrd (x : Shard) (part : Nat) : Nat := ((KList.find? x.sides part).map (·.next)).getD 0

/-- An append: its code and ordinal (02 R45; 10 R298, R322). The caller has checked the journal's room. -/
def Node.appendEntry (s : Node) (x : Shard) (part : Nat) (b : Bytes) : Nat × Nat × Node :=
  match appendCode x part b with
  | 0 =>
    let i := x.nextOrd part
    if !s.flash.popOk then (0x0703, 0, s)
    else if s.flash.readOnly then (0x0701, 0, s)
    else if 65536 ≤ i - s.sideFirst x.id part then (0x0320, 0, s)
    else (0, i, s.pushEntry x part (storedBlock x.params s.now b))
  | c => (c, 0, s)

/-- Whether the journal has room for an append of a shard. -/
def Node.appendRoom (s : Node) (x : Shard) : Bool := s.dataLeft x.id.tid.val (96 + x.params.blockBytes)

/-- The element of an APPEND item (13 Table 13.2): its partition and its block, or the code of its read. -/
def Node.appendElem (s : Node) (x : Shard) (it : Item) (i : Nat) : Except Nat (Nat × Bytes) :=
  if bitAt it.iflags 0 then .ok (it.arg 1 % 2 ^ 21, it.bytes.drop 128)
  else
    let a := it.arg 2 + it.arg 3 * i
    let o := (s.qcfg it.q).owner
    match s.rangeCode o a (64 + x.params.blockBytes) with
    | 0 => .ok (s.readLe o a 4, s.read o (a + 64) x.params.blockBytes)
    | c => .error c

/-- 13 R411: elements from `i` on: how many are done, and the code that ended the item. None: the journal is full, and the
item waits. -/
def Node.appendFrom (s : Node) (sh : ShardId) (it : Item) (n : Nat) : Nat → Nat → Option (Nat × Nat × Node)
  | _, 0 => some (n, 0, s)
  | i, fuel + 1 =>
    if n ≤ i then some (n, 0, s)
    else match s.shard sh with
      | none => some (i, 0x0120, s)
      | some x =>
        match s.appendElem x it i with
        | .error c => some (i, c, s)
        | .ok (part, b) =>
          if !s.appendRoom x then none
          else match s.appendEntry x part b with
            | (0, _, s) => s.appendFrom sh it n (i + 1) fuel
            | (c, _, _) => some (i, c, s)

/-! ## Appends that a standby has to hold too (12 R391) -/

/-- 12 R391: this node leads a paired shard: its acknowledgements and commits wait for the standby. -/
def Node.paired (s : Node) (sh : ShardId) : Bool :=
  s.peloton.shardMap.any fun r => r.id == sh && r.primary == s.dev.node && r.standby.isSome

/-- Whoever appended is told: an item completes, a thread has its ordinal. -/
def Node.tellAppend (s : Node) (u : Unheld) : Node :=
  match u.who with
  | .item a => s.finish a (done u.code u.count u.result)
  | .thread n => match s.thread n with
    | some t => if t.wait.isSome then s.setThread n (t.retire t.waitRd (BitVec.ofNat 64 u.result) u.code) else s
    | none => s

/-- 12 R391: an append of a paired shard waits for its standby. -/
def Node.holdAppend (s : Node) (u : Unheld) : Node := { s with index := { s.index with unheld := s.index.unheld ++ [u] } }

/-- Appends of a shard that need no more word of a standby are acknowledged. -/
def Node.tellHeld (s : Node) (sh : ShardId) (ready : Unheld → Bool) : Node :=
  let l := s.index.unheld.filter fun u => u.shard == sh && ready u
  l.foldl Node.tellAppend { s with index := { s.index with unheld := s.index.unheld.filter fun u => !l.contains u } }

/-- The standby holds a side list up to an ordinal. -/
def Node.standbyHolds (s : Node) (sh : ShardId) (part next : Nat) : Node :=
  let us := s.index.unheld.map fun (u : Unheld) => if u.shard == sh then
    { u with ords := u.ords.filter fun o => !(o.1 == part && decide (o.2 ≤ next)) } else u
  ({ s with index := { s.index with unheld := us } }).tellHeld sh fun u => u.ords.isEmpty

/-- The partitions of a shard that have grown, each with its next ordinal now. -/
def grown (old new : Option Shard) : List (Nat × Nat) :=
  match old, new with
  | some x, some y => (y.sides.filter fun l => l.2.next != x.nextOrd l.1).map fun l => (l.1, l.2.next)
  | _, _ => []

/-- APPEND: the item of a context is run (13 R411). It is acknowledged at once, or, on a paired shard, when the standby holds its
entries too (02 R48, 12 R391). -/
def execAppend (ctx : Nat) (s : State) : Result :=
  let n := s.node
  match n.ctx ctx with
  | some x => match x.adm with
    | some a =>
      if x.op != 0x11 || x.gangSize == 0 || !n.dataUp then s.next n
      else
        let cnt := if bitAt a.item.iflags 0 then 1 else a.item.count
        let sh := shardOfKey (n.qcfg a.item.q).tid (a.item.arg 0)
        match n.appendFrom sh a.item cnt 0 (cnt + 1) with
        | none => s.next n
        | some (k, c, m) =>
          let u : Unheld := { shard := sh, ords := grown (n.shard sh) (m.shard sh), who := .item a, code := c, count := k,
                              result := if c = 0 then 0 else k }
          s.settled (if n.paired sh && u.ords != [] then (m.dropCtx ctx).holdAppend u else (m.dropCtx ctx).tellAppend u)
    | none => s.next n
  | none => s.next n

/-! ## Segments (02 R39-R44) -/

structure SegHead where
  fmt : Nat
  dim : Nat
  pqM : Nat
  count : Nat
  serial : Nat
  birth : Nat
  offAttr : Nat
  offAblk : Nat
  offId : Nat
  offTomb : Nat
  bytes : Nat
  deriving DecidableEq, Repr

def readSeg (b : Bytes) : SegHead :=
  { fmt := getLe b 4 1, dim := getLe b 6 2, pqM := getLe b 8 2, count := getLe b 12 4, serial := getLe b 16 6, birth := getLe b 24 6, offAttr := getLe b 32 4,
    offAblk := getLe b 36 4, offId := getLe b 40 4, offTomb := getLe b 44 4, bytes := getLe b 48 4 }

/-- 02 R40. -/
def segOk (b : Bytes) : Bool := getLe b 0 4 == 0x31474553 && getLe b 60 4 == crc32c (slice b 0 60)

def Node.seg (s : Node) (owner addr : Nat) : Option SegHead :=
  let b := s.read owner addr 64
  if segOk b then some (readSeg b) else none

/-- Slots of a segment: its count rounded up. -/
def slotCount (n : Nat) : Nat := ceilDiv n 32 * 32

def Node.segId (s : Node) (owner addr : Nat) (h : SegHead) (slot : Nat) : Nat := s.readLe owner (addr + h.offId + 8 * slot) 8

/-- The slots of a segment that hold an ID and are not tombstoned. -/
def Node.liveSlots (s : Node) (owner : Nat) (g : SegRef) (id : Nat) : List Nat :=
  match s.seg owner g.addr with
  | none => []
  | some h => (List.range h.count).filter fun i => !bitAt g.tomb i && s.segId owner g.addr h i == id

/-- Bit `i` set. -/
def setBit (v i : Nat) : Nat := v ||| 2 ^ i

/-! ## Deletes (02 R55, R56) -/

/-- The bytes of a side list's entry in its record stream (02 R46). -/
def Node.sideRecord (s : Node) (owner : Nat) (t : Streams) (i : Nat) : Bytes := s.read owner (t.recs + 32 * (i - t.base)) 32

/-- One DELETE at ordinal i applied to a partition entry; the flag says that a live copy was found. -/
def Node.applyDelete (s : Node) (owner : Nat) (e : PartEntry) (i id : Nat) : PartEntry × Bool :=
  let hits := e.segs.map fun g => s.liveSlots owner g id
  let side := ((List.range (i - e.sideFirst)).map (e.sideFirst + ·)).filter fun j =>
    !bitAt e.sideBits j && getLe (s.sideRecord owner e.st j) 0 1 == 1 && getLe (s.sideRecord owner e.st j) 8 8 == id
  ({ e with
      segs := (e.segs.zip hits).map fun p => { p.1 with tomb := p.2.foldl setBit p.1.tomb }
      sideBits := side.foldl setBit (setBit e.sideBits i) },
   hits.any (· != []) || !side.isEmpty)

/-- The entries of ordinals `sideEnd` to `next` sealed into a partition entry: the entry, and the deletes that missed. -/
def Node.sealEntries (s : Node) (owner : Nat) (l : SideList) (e : PartEntry) : PartEntry × Nat :=
  let r := ((List.range (l.next - e.sideEnd)).map (e.sideEnd + ·)).foldl (fun (a : PartEntry × Nat) i =>
    let rcd := s.sideRecord owner l.st i
    if getLe rcd 0 1 == 2 then
      let d := s.applyDelete owner a.1 i (getLe rcd 8 8)
      (d.1, a.2 + (if d.2 then 0 else 1))
    else a) ({ e with st := l.st }, 0)
  ({ r.1 with sideEnd := l.next }, r.2)

def noStreams : Streams := { recs := 0, vec := 0, blk := 0, code := 0, base := 0 }

def emptyEntry : PartEntry :=
  { st := noStreams, segList := 0, segs := [], sideFirst := 0, sideEnd := 0, sideMap := 0, sideBits := 0 }

/-- The side entries of a partition entry that are visible (02 R62). -/
def Node.sideVisible (s : Node) (owner : Nat) (e : PartEntry) : List Nat :=
  ((List.range (e.sideEnd - e.sideFirst)).map (e.sideFirst + ·)).filter fun i =>
    !bitAt e.sideBits i && getLe (s.sideRecord owner e.st i) 0 1 == 1

/-- The vectors of an entry that are visible (02 R62). -/
def Node.liveOf (s : Node) (owner : Nat) (e : PartEntry) : Nat :=
  sumN (e.segs.map fun g => match s.seg owner g.addr with
    | some h => h.count - popcount h.count g.tomb
    | none => 0)
  + (s.sideVisible owner e).length

/-! ## Requests for seals (02 R57-R59) -/

/-- 02 R57: seals that wait. -/
def Node.sealPend (s : Node) : Nat := (s.index.seals.filter fun q => !q.closed).length

def Node.openSeal (s : Node) (sh : ShardId) : Option SealReq := s.index.seals.find? fun q => q.shard == sh && !q.closed
def Node.closedSeal (s : Node) (sh : ShardId) : Option SealReq := s.index.seals.find? fun q => q.shard == sh && q.closed

/-- A request changed. -/
def Node.updSeal (s : Node) (q : SealReq) (f : SealReq → SealReq) : Node :=
  { s with index := { s.index with seals := s.index.seals.map fun x => if x == q then f x else x } }

/-- 02 R57: a seal is requested: its code, 0 when it waits. -/
def Node.requestSeal (s : Node) (sh : ShardId) (w : SealWaiter) : Nat × Node :=
  match s.openSeal sh with
  | some q => (0, s.updSeal q fun q => { q with waiters := q.waiters ++ [w] })
  | none =>
    if 1024 ≤ s.sealPend || s.fsFull (shOwner sh) 38 10 (s.index.seals.filter fun q => !q.closed && q.shard.tid == sh.tid).length then (0x0321, s)
    else (0, { s with index := { s.index with seals := s.index.seals ++
      [{ shard := sh, waiters := [w], closed := false, gen := 0, part := none, since := s.clk, persisted := false, standbyOk := false }] } })

/-- What a shard's seals return when it has no sealed generation (02 R58). -/
def noGen : Nat := 2 ^ 48 - 1

/-- The waiters of a seal are told. -/
def Node.tellSeal (s : Node) (ws : List SealWaiter) (code result : Nat) : Node :=
  ws.foldl (fun s w => match w with
    | .item a => s.finish a (done code result)
    | .thread n => match s.thread n with
      | some t => if t.wait.isSome then s.setThread n (t.retire t.waitRd
          (if code = 0 ∨ code = 4 then BitVec.ofNat 64 result else failWord code) code) else s
      | none => s) s

/-- A seal request is over. -/
def Node.endSeal (s : Node) (q : SealReq) (code result : Nat) : Node :=
  ({ s with index := { s.index with seals := s.index.seals.filter (· != q) } }).tellSeal q.waiters code result

/-- SEAL (02 R57). -/
def execSeal (q : Fin 8192) (s : State) : Result :=
  s.runM q 0x12 fun a =>
    let n := s.node
    let sh := shardOfKey (n.qcfg q).tid (a.item.arg 0)
    if (n.shard sh).isNone then n.doneM q a (done 0x0120)
    else match (n.popM q).requestSeal sh (.item a) with
      | (0, n) => n
      | (c, n) => n.finish a (done c)

/-! ## Closing (02 R55) -/

/-- The partitions with entries that no generation has sealed. -/
def Node.openParts (s : Node) (x : Shard) : List Nat :=
  (x.sides.filter fun p => decide ((((s.newestEntry x.id p.1).map (·.sideEnd)).getD 0) < p.2.next)).map (·.1)

/-- 02 R65: the entry that a compaction seal starts from: the new segments in place of the compacted ones, what was deleted
since c tombstoned in them. -/
def Node.compactedEntry (s : Node) (owner : Nat) (c : Compaction) (e : PartEntry) : PartEntry :=
  let keep := e.segs.filter fun g => (s.seg owner g.addr).isNone
  let old := e.segs.filterMap fun g => (s.seg owner g.addr).map fun h => (h.serial, g.tomb)
  let news := (c.segs.zip c.origin).map fun p =>
    let n := p.2.length
    let dead := (p.2.zip (List.range n)).filter fun o =>
      if o.1.1 = 0 then bitAt e.sideBits o.1.2 else match KList.find? old (o.1.1 - 1) with
        | some t => bitAt t o.1.2
        | none => false
    let pad := ((List.range (slotCount n - n)).map (n + ·)).foldl setBit 0
    let r : SegRef := { addr := p.1, tombAddr := 0, tomb := (dead.map (·.2)).foldl setBit pad }
    r
  { e with segs := keep ++ news, sideFirst := c.sideEnd }

/-- The compactions that a seal commits: its own, and those whose seal was abandoned (02 R53). -/
def Node.compactionsOf (s : Node) (q : SealReq) : List Compaction :=
  s.index.compactions.filter fun c => c.shard == q.shard && (c.carried || q.part == some c.part)

/-- The map of the generation that closes: entries changed, and deletes that missed. -/
def Node.closedMap (s : Node) (x : Shard) (cs : List Compaction) : KList PartEntry × Nat :=
  let base := ((s.newest x.id).map (·.map)).getD []
  let base := cs.foldl (fun m c => KList.put m c.part (s.compactedEntry (shOwner x.id) c (KList.getD m c.part emptyEntry))) base
  (s.openParts x).foldl (fun (a : KList PartEntry × Nat) p => match KList.find? x.sides p with
    | some l =>
      let r := s.sealEntries (shOwner x.id) l (KList.getD a.1 p emptyEntry)
      (KList.put a.1 p r.1, a.2 + r.2)
    | none => a) (base, 0)

/-- 02 R44: the bytes of a tombstone bitmap as they are stored. -/
def Node.tombBytes (s : Node) (owner : Nat) (g : SegRef) : Nat :=
  round64 (ceilDiv (match s.seg owner g.addr with
    | some h => slotCount h.count
    | none => 65536) 8)

/-- 02 Table 2.7: a segment list. -/
def segList (l : List SegRef) : Bytes := l.flatMap fun g => natLe 8 g.addr ++ natLe 8 g.tombAddr

/-- The objects of a changed entry written: the bitmaps that changed, the side bitmap, the segment list; what is as it was
in the generation before is shared. -/
def Node.writeEntry (s : Node) (owner inst : Nat) (old : Option PartEntry) (e : PartEntry) : PartEntry × Node :=
  let was := (old.map (·.segs)).getD []
  let r := e.segs.foldl (fun (a : List SegRef × Node) g =>
    match was.find? fun o => o.addr == g.addr && o.tomb == g.tomb with
    | some o => (a.1 ++ [o], a.2)
    | none =>
      let w := a.2.putObj owner inst (natLe (a.2.tombBytes owner g) g.tomb)
      (a.1 ++ [{ g with tombAddr := w.1 }], w.2)) ([], s)
  let m := match old with
    | some o => if o.sideEnd == e.sideEnd && o.sideBits == e.sideBits then (o.sideMap, r.2)
      else r.2.putObj owner inst (natLe (round64 (ceilDiv (max 1 e.sideEnd) 8)) e.sideBits)
    | none => r.2.putObj owner inst (natLe (round64 (ceilDiv (max 1 e.sideEnd) 8)) e.sideBits)
  let l := match old with
    | some o => if o.segs == r.1 then (o.segList, m.2) else m.2.putObj owner inst (segList r.1)
    | none => m.2.putObj owner inst (segList r.1)
  ({ e with segs := r.1, sideMap := m.1, segList := l.1 }, l.2)

/-- 02 Table 2.7. -/
def entryImage (e : PartEntry) : Bytes :=
  natLe 8 e.segList ++ natLe 4 e.segs.length ++ natLe 4 e.sideFirst ++ natLe 4 e.sideEnd ++ natLe 4 0 ++ natLe 8 e.sideMap

/-- 02 R51: new leaf pages of the partitions that changed, and a new root page that shares the others: root and leaves. -/
def Node.writeMap (s : Node) (owner inst p : Nat) (old : List Nat) (changed : List Nat) (m : KList PartEntry) : Nat × List Nat × Node :=
  let r := (List.range (ceilDiv p 64)).foldl (fun (a : List Nat × Node) i =>
    match old[i]? with
    | some l => if (changed.map (· / 64)).contains i then
        let w := a.2.putObj owner inst ((List.range 64).flatMap fun j => entryImage (KList.getD m (64 * i + j) emptyEntry))
        (a.1 ++ [w.1], w.2) else (a.1 ++ [l], a.2)
    | none =>
      let w := a.2.putObj owner inst ((List.range 64).flatMap fun j => entryImage (KList.getD m (64 * i + j) emptyEntry))
      (a.1 ++ [w.1], w.2)) ([], s)
  let w := r.2.putObj owner inst (r.1.flatMap (natLe 8))
  (w.1, r.1, w.2)

/-- 02 R66: whether a generation references an object: a page, a list, a bitmap, a segment, or a run of side entries. -/
def GenRec.refers (g : GenRec) (p : ShardParams) (o : StoredObj) : Bool :=
  o.addr == g.pmap || g.leaves.contains o.addr || g.map.any fun (e : Nat × PartEntry) =>
    o.addr == e.2.segList || o.addr == e.2.sideMap || (e.2.segs.any fun (r : SegRef) => o.addr == r.addr || o.addr == r.tombAddr)
    || (e.2.st.ranges p e.2.sideFirst e.2.sideEnd).any fun (r : Nat × Nat) => decide (r.1 ≤ o.addr ∧ o.addr < r.1 + r.2)

/-- 02 Table 2.4: `BIRTH_GEN` of a segment that a seal writes, and `HDR_CRC` with it. -/
def Node.stampBirth (s : Node) (owner addr g : Nat) : Node :=
  let b := s.read owner addr 60
  let h := b.take 24 ++ natLe 6 g ++ b.drop 30
  s.writeObj owner addr (h ++ natLe 4 (crc32c h))

/-- The compactions of a seal as a standby gets them (12 R391). -/
def Node.sentCompactions (s : Node) (x : Shard) (cs : List Compaction) : List CompactCopy :=
  cs.map fun c => { part := c.part, gen := c.gen, sideEnd := c.sideEnd, origin := c.origin,
                    segs := c.segs.map fun a => s.read (shOwner x.id) a (((s.seg (shOwner x.id) a).map (·.bytes)).getD 64) }

/-- 02 R55: a generation closes. -/
def Node.closeGen (s : Node) (x : Shard) (q : SealReq) : Node :=
  let o := shOwner x.id
  let cs := s.compactionsOf q
  let s := (cs.flatMap (·.segs)).foldl (fun s a => s.stampBirth o a x.openGen) s
  let old := s.newest x.id
  let parts := (s.openParts x ++ cs.map (·.part)).dedup
  let cm := s.closedMap x cs
  let r := parts.foldl (fun (a : KList PartEntry × Node) p =>
    let w := a.2.writeEntry o x.inst (old.bind fun g => KList.find? g.map p) (KList.getD a.1 p emptyEntry)
    (KList.put a.1 p w.1, w.2)) (cm.1, s)
  let runs := (s.openParts x).flatMap fun p => match KList.find? x.sides p with
    | some l => l.st.ranges x.params (s.sealedTo x.id p l) l.next
    | none => []
  let pm := r.2.writeMap o x.inst x.params.p ((old.map (·.leaves)).getD []) parts r.1
  let s := pm.2.2
  let sealed := sumN ((s.openParts x).map fun p => x.nextOrd p - ((s.newestEntry x.id p).map (·.sideEnd)).getD 0)
  let live := sumN (r.1.map fun e => s.liveOf o e.2)
  let g : GenRec := { inst := x.inst, parts := x.params.p, leaves := pm.2.1, gen := x.openGen, state := 1, compaction := q.part.isSome,
                      draining := false, shard := x.id, sealTime := 0, pmap := pm.1, pins := 0, live := live, entries := sealed, map := r.1 }
  let runObjs := runs.map fun (p : Nat × Nat) =>
    ({ owner := o, inst := x.inst, addr := p.1, size := p.2, space := false, birth := none, death := none } : StoredObj)
  let objs := (s.index.objs ++ runObjs).map fun (b : StoredObj) =>
    if b.inst == x.inst && !b.space && b.birth.isNone && g.refers x.params b then { b with birth := some x.openGen } else b
  let s := { s with index := { s.index with gens := s.index.gens ++ [g], objs := objs, delMiss := s.index.delMiss + cm.2 } }
  let s := s.setShard { x with openGen := x.openGen + 1 }
  let s := s.updSeal q fun q => { q with closed := true, gen := x.openGen }
  let sent := s.sentCompactions x cs
  (s.standbys x.id).foldl (fun s n => s.emit (.shard n (.seal x.id x.openGen sent))) s

/-- 02 R50, R67: records that are not RETIRED: those in the table, and the OPEN one of every shard. -/
def Node.recUsed (s : Node) : Nat := s.index.gens.length + s.index.shards.length

/-- 02 R59: a generation record is free; in fixed-slot mode, within the TID's share (14 R468). The number 2^48 - 1 is never
assigned (02 R58). -/
def Node.recFree (s : Node) (sh : ShardId) (openGen : Nat) : Bool :=
  decide (s.recUsed < 65536) && decide (openGen + 1 < noGen)
  && !s.fsFull (shOwner sh) 48 16 ((s.index.gens.filter fun g => g.shard.tid == sh.tid).length + (s.index.shards.filter fun x => x.id.tid == sh.tid).length)

/-- Seals close, persist and commit: the links and the data plane's save let them (01 R23, 15 R479). -/
def Node.sealUp (s : Node) : Bool := s.linksUp && s.mgt.pfPhase == .idle

/-- SEAL_CLOSE (02 R55, R57-R59). -/
def execSealClose (sh : ShardId) (s : State) : Result :=
  let n := s.node
  match n.openSeal sh, n.shard sh with
  | some q, some x =>
    if (n.closedSeal sh).isSome || !n.sealUp then s.next n
    else if (n.openParts x).isEmpty && (n.compactionsOf q).isEmpty then
      s.settled (n.endSeal q 4 (((n.newest sh).map (·.gen)).getD noGen))
    else if !n.recFree sh x.openGen then s.settled (n.endSeal q 0x0322 0)
    else s.next (n.closeGen x q)
  | _, _ => s.next n

/-! ## Persisting and the commit (02 R55, R60; 10 R311) -/

/-- The shadow extent of a region of an owner: its own, or a new one of the reserve. -/
def Node.shadowExtent (s : Node) (owner region : Nat) : Nat × Node :=
  let k := owner * 2 ^ 27 + region
  match KList.find? s.flash.shadow k with
  | some e => (e, s)
  | none =>
    let used := s.flash.shadow.map (·.2)
    let e := lowestFree used (used.length + 1) s.flashExtents
    (e, { s with flash := { s.flash with shadow := KList.put s.flash.shadow k e } })

/-- The static SLC blocks of the seal area of a die (10 Table 10.3). -/
def Node.sealBlocks (s : Node) : List Nat := (List.range (s.pop.staticBlocks - 6)).map (6 + ·)

/-- A page of the seal area of a die, or a native page where the seal area is full. -/
def Node.sealPlace (s : Node) (d : Nat) : Option (Nat × FBlock) :=
  match s.sealBlocks.find? fun b => (s.blk d b).filled < s.pop.pagesPerBlock / s.pop.bits with
  | some b => some (b, { s.blk d b with pool := 3 })
  | none => s.openBlk d 2

/-- One 16 KiB unit of an owner's memory persisted. -/
def Node.persistUnit (s : Node) (owner u : Nat) : Node :=
  let r := s.shadowExtent owner (u / 128)
  let unit := r.1 * 128 + u % 128
  let s := r.2.useNonce owner
  match s.programAt Node.sealPlace (s.pageMeta owner unit) (cellsIn s.mem.bytes (memKey owner (u * unitSize)) unitSize) with
  | some (pua, s) =>
    let s := s.mapDelta unit (some pua)
    let h := s.flash.health
    { s with flash := { s.flash with health := { h with unitsIn := h.unitsIn + 1 } } }
  | none => s

/-- The units of a stretch. -/
def unitsOf (addr n : Nat) : List Nat :=
  if n = 0 then [] else (List.range ((addr + n - 1) / unitSize - addr / unitSize + 1)).map (addr / unitSize + ·)

/-- 02 R55: the stretches of memory that a closed generation's seal persists: every object born with it. -/
def Node.sealRanges (s : Node) (g : GenRec) : List (Nat × Nat) :=
  (s.index.objs.filter fun o => o.inst == g.inst && o.birth == some g.gen).map fun o => (o.addr, o.size)

/-- Whether a SIDE_ENTRY record belongs to what a generation has sealed (10 R324). -/
def GenRec.holds (g : GenRec) (r : JRec) : Bool :=
  r.jtype == 3 && r.key == sideKey g.shard && (match KList.find? g.map r.aux with
    | some e => decide (getLe r.payload 0 4 < e.sideEnd)
    | none => false)

/-- 02 Table 2.6: a generation record's bytes; the flash copy has `STATE` and `PINS` 0, as `REC_CRC` takes them. -/
def GenRec.image (g : GenRec) (flash : Bool) : Bytes :=
  let b := fun (state pins : Nat) =>
    natLe 6 g.gen ++ natLe 1 state ++ natLe 1 ((if g.compaction then 1 else 0) + (if g.draining then 2 else 0))
    ++ natLe 2 g.shard.tid.val ++ natLe 2 g.shard.index.val ++ natLe 2 g.shard.shard.val ++ natLe 2 0 ++ natLe 8 g.sealTime
    ++ natLe 8 g.pmap ++ natLe 4 g.parts ++ natLe 4 pins ++ natLe 8 g.live ++ natLe 8 g.entries ++ natLe 4 0
  (if flash then b 0 0 else b g.state g.pins) ++ natLe 4 (crc32c (b 0 0))

/-- The OPEN generation of a shard as a record (02 R52). -/
def Shard.openRec (x : Shard) : GenRec :=
  { inst := x.inst, parts := x.params.p, leaves := [], gen := x.openGen, state := 0, compaction := false, draining := false, shard := x.id,
    sealTime := 0, pmap := 0, pins := 0, live := 0, entries := 0, map := [] }

/-- 02 R50: the generation table as the carve-out holds it. A RETIRED or ABANDONED record is free at once (02 Table 2.8). -/
def Node.genTable (s : Node) : List Bytes := (s.index.gens ++ s.index.shards.map (·.openRec)).map fun g => g.image false

/-- 02 R66: what the newest sealed generation of a shard no longer references has its death generation. -/
def Node.markDead (s : Node) (x : Shard) (g : GenRec) : Node :=
  { s with index := { s.index with objs := s.index.objs.map fun (o : StoredObj) =>
      if o.inst == g.inst && o.birth.isSome && o.death.isNone && !g.refers x.params o then { o with death := some g.gen } else o } }

/-- The middle of a list of latencies. -/
def median (l : List Nat) : Nat := (sortBy (fun a b => decide (a ≤ b)) l).getD ((l.length - 1) / 2) 0

/-- Queries of a shard run on this node: the map names it the primary, or does not name the shard. -/
def Node.isPrimary (s : Node) (sh : ShardId) : Bool := s.peloton.shardMap.all fun r => r.id != sh || r.primary == s.dev.node

/-- The shard numbers of an index that this node serves. -/
def Node.ownShards (s : Node) (sh : ShardId) : List Nat :=
  (s.index.shards.filter fun x => x.id.tid == sh.tid && x.id.index == sh.index && s.isPrimary x.id).map fun x => x.id.shard.val

/-- 12 R395: a seal of a round has committed; once every shard of the index that the node serves has, the round is over, and its
median latency is what the next HEARTBEAT reports (notes/assumptions/102.md). -/
def Peloton.addLatency (p : Peloton) (shards : List Nat) (sh : ShardId) (us : Nat) : Peloton :=
  let k := sh.tid.val * 4096 + sh.index.val
  let l := KList.put (KList.getD p.latency k []) sh.shard.val us
  if shards.all fun i => (KList.find? l i).isSome then
    { p with round := (p.round + 1) % 2 ^ 32, p50 := median (l.map (·.2)), latency := KList.del p.latency k }
  else { p with latency := KList.put p.latency k l }

/-- 02 R55: the commit, one change; the generation before is SUPERSEDED, and retires at once without pins. -/
def Node.commitGen (s : Node) (x : Shard) (q : SealReq) (g : GenRec) : Node :=
  let prev := (s.newest x.id).map (·.gen)
  let gs := (s.index.gens.map fun r => if r.inst == x.inst then
      (if r.gen == g.gen then { r with state := 2, sealTime := s.now } else if r.state == 2 then { r with state := 3 } else r) else r).filter
    fun r => !(r.inst == x.inst && some r.gen == prev && r.pins == 0)
  let copy : SavedRec := { inst := x.inst, gen := g.gen, image := GenRec.image { g with sealTime := s.now } true }
  let s := { s with
    index := { s.index with gens := gs, sealCnt := s.index.sealCnt + 1, saved := s.index.saved ++ [copy] }
    flash := { s.flash with data := s.flash.data.filter fun r => !g.holds r }
    peloton := if q.part.isSome then s.peloton else s.peloton.addLatency (s.ownShards g.shard) g.shard ((s.clk - q.since) / 1000) }
  let s := (s.compactionsOf q).foldl (fun s c => s.dropCompaction c x.inst) (s.markDead x g)
  let s := (s.standbys g.shard).foldl (fun s n => s.emit (.shard n (.commit g.shard g.gen))) s.dropSaved.freeStorage
  s.endSeal q 0 g.gen

/-- 02 R53: the seal is abandoned: its changes, a compaction's output among them, are carried into the next OPEN generation,
of the same number; the pages, lists and bitmaps that it wrote are free. -/
def Node.abandonGen (s : Node) (x : Shard) (q : SealReq) (code : Nat) : Node :=
  let cs := s.compactionsOf q
  let born := fun (o : StoredObj) => o.inst == x.inst && o.birth == some q.gen
  let keep := cs.flatMap (·.segs)
  let dead := s.index.objs.filter fun o => born o && !keep.contains o.addr
  let s := { s with index := { s.index with
    gens := s.index.gens.filter fun r => !(r.inst == x.inst && r.gen == q.gen && r.state == 1)
    objs := s.index.objs.map fun (o : StoredObj) => if born o && keep.contains o.addr then { o with birth := none } else o
    compactions := s.index.compactions.map fun (c : Compaction) => if cs.contains c then { c with carried := true } else c } }
  let s := (s.setShard { x with openGen := q.gen }).freeObjs dead
  s.endSeal q code 0

/-- The persist of a closed generation: every unit, and the map deltas. -/
def Node.persistGen (s : Node) (x : Shard) (g : GenRec) : Node :=
  (((s.sealRanges g).flatMap fun r => unitsOf r.1 r.2).dedup).foldl (fun s u => s.persistUnit (shOwner x.id) u) s

/-- 12 R391: this node is the standby of a shard, or receives a copy of it: the commit is the primary's. -/
def Node.follows (s : Node) (sh : ShardId) : Option Nat :=
  match s.peloton.shardMap.find? fun r => r.id == sh && r.standby == some s.dev.node with
  | some r => some r.primary
  | none => (s.peloton.copies.find? fun c => c.id == sh && !c.sending).map (·.peer)

/-- SEAL_COMMIT (02 R55, R59; 12 R391): the persist has ended; `persisted`: well. A seal that cannot persist ends ABANDONED
with `MEDIA_READ_ONLY`, whatever kept it (notes/assumptions/92.md). -/
def execSealCommit (sh : ShardId) (persisted : Bool) (s : State) : Result :=
  let n := s.node
  match n.closedSeal sh, n.shard sh with
  | some q, some x => match n.genOf x.inst q.gen with
    | none => s.next n
    | some g =>
      if !n.sealUp then s.next n
      else if n.flashWriteCode (shOwner x.id) != 0 || !persisted then s.settled (n.abandonGen x q 0x0701)
      else match n.follows sh with
        | some p =>
          if q.persisted then s.next n
          else
            let n := n.persistGen x g
            s.next ((n.updSeal q fun q => { q with persisted := true }).emit (.shard p (.persisted sh q.gen n.dev.node)))
        | none =>
          let m := if q.persisted then n else n.persistGen x g
          if n.paired sh && !q.standbyOk then s.next (m.updSeal q fun q => { q with persisted := true })
          else s.settled (m.commitGen x q g)
  | _, _ => s.next n

/-! ## Compaction (02 R64, R65) -/

/-- The live slots of an entry that a compaction copies, in insertion order: segment address (0 for the side list), and
slot or ordinal. Segments whose header fails are left. -/
def Node.visibleSlots (s : Node) (owner : Nat) (e : PartEntry) : List (Nat × Nat) :=
  (e.segs.flatMap fun g => match s.seg owner g.addr with
    | some h => ((List.range h.count).filter fun i => !bitAt g.tomb i).map fun i => (g.addr, i)
    | none => [])
  ++ (s.sideVisible owner e).map fun i => (0, i)

/-- A vector that compaction copies: ID, attribute word, attribute block, codes or vector bytes. -/
structure SlotData where
  id : Nat
  attr : Nat
  ablk : Bytes
  codes : List Nat
  vec : Bytes
  deriving DecidableEq, Repr

/-- A side entry as an append block holds it. -/
def Node.entryBytes (s : Node) (x : Shard) (st : Streams) (i : Nat) : Bytes :=
  (st.ranges x.params i (i + 1)).flatMap fun r => s.read (shOwner x.id) r.1 r.2

/-- What a slot or a side entry of an entry's streams holds. -/
def Node.slotData (s : Node) (x : Shard) (st : Streams) (o : Nat × Nat) : SlotData :=
  let p := x.params
  let ow := (shOwner x.id)
  if o.1 = 0 then
    let k := o.2 - st.base
    let r := s.sideRecord ow st o.2
    let v := s.read ow (st.vec + p.exact * k) p.exact
    let codes := if !p.isPq then []
      else if bitAt (getLe r 1 1) 0 then sideCodes p.vfSeg p.m (s.read ow (st.code + p.code * k) p.code)
      else encodePq p.m (p.d / max 1 p.m) p.nc
        (if isFloatVf p.vfEx then floatElems p.vfEx v else (intElems p.vfEx v).map (fOfInt .f32))
        ((List.range (p.nc * p.d)).map fun i => getLe x.codebook (4 * i) 4)
    { id := getLe r 8 8, attr := getLe r 24 8, ablk := if p.ablk then s.read ow (st.blk + 32 * k) 32 else [], codes := codes, vec := v }
  else
    let h := readSeg (s.read ow o.1 64)
    let bs := blockSize p.vfSeg p.m p.d
    { id := s.segId ow o.1 h o.2, attr := s.readLe ow (o.1 + h.offAttr + 8 * o.2) 8
      ablk := if p.ablk then s.read ow (o.1 + h.offAblk + 32 * o.2) 32 else []
      codes := if p.isPq then blockCodes p.vfSeg p.m (s.read ow (o.1 + 64 + bs * (o.2 / 32)) bs) (o.2 % 32) else []
      vec := if p.isPq then [] else s.read ow (o.1 + 64 + p.exact * o.2) p.exact }

/-- The stretch that holds the codes or the vector of a slot or a side entry. -/
def Shard.slotSpan (x : Shard) (st : Streams) (o : Nat × Nat) : Nat × Nat :=
  let p := x.params
  let bs := blockSize p.vfSeg p.m p.d
  if o.1 = 0 then (st.vec + p.exact * (o.2 - st.base), p.exact)
  else if p.isPq then (o.1 + 64 + bs * (o.2 / 32), bs)
  else (o.1 + 64 + p.exact * o.2, p.exact)

/-- 02 Tables 2.3, 2.4: a segment's bytes. -/
def segImage (p : ShardParams) (part serial birth : Nat) (v : List SlotData) : Bytes :=
  let n := v.length
  let sl := slotCount n
  let blk := fun j => let w := (v.drop (32 * j)).take 32
    if p.isPq then packBlock p.vfSeg p.m (w.map (·.codes)) else slice (w.flatMap (·.vec)) 0 (32 * p.exact)
  let codes := (List.range (sl / 32)).flatMap blk
  let sec := fun (b : Bytes) => slice b 0 (round64 b.length)
  let attrs := sec (slice (v.flatMap fun d => natLe 8 d.attr) 0 (8 * sl))
  let ablks := if p.ablk then sec (slice (v.flatMap fun d => slice d.ablk 0 32) 0 (32 * sl)) else []
  let ids := sec ((v.flatMap fun d => natLe 8 d.id) ++ (List.replicate (sl - n) padId).flatMap (natLe 8))
  let tomb := sec (natLe (ceilDiv sl 8) (((List.range (sl - n)).map (n + ·)).foldl setBit 0))
  let oA := 64 + (sec codes).length
  let oB := oA + attrs.length
  let oI := oB + ablks.length
  let oT := oI + ids.length
  let head := natLe 4 0x31474553 ++ natLe 1 (p.vfSeg + 16 * p.met + (if p.ablk then 64 else 0)) ++ natLe 1 0 ++ natLe 2 p.d ++ natLe 2 p.m
    ++ natLe 2 0 ++ natLe 4 n ++ natLe 6 serial ++ natLe 2 0 ++ natLe 6 birth ++ natLe 2 0 ++ natLe 4 oA
    ++ natLe 4 (if p.ablk then oB else 0) ++ natLe 4 oI ++ natLe 4 oT ++ natLe 4 (oT + tomb.length) ++ natLe 4 part ++ natLe 4 0
  head ++ natLe 4 (crc32c head) ++ sec codes ++ attrs ++ ablks ++ ids ++ tomb

/-- A list cut into pieces of `n`. -/
def pieces {α : Type} (n : Nat) : Nat → List α → List (List α)
  | 0, _ => []
  | _, [] => []
  | fuel + 1, l => l.take n :: pieces n fuel (l.drop n)

/-- 02 R64: a partition is due for compaction. -/
def Node.compactDue (s : Node) (x : Shard) (part : Nat) : Bool :=
  let cfg := s.reg .genCfg
  decide (fld cfg 8 8 * 1024 ≤ x.nextOrd part - s.sideFirst x.id part)
  || match s.newestEntry x.id part with
    | none => false
    | some e => e.segs.any fun g => match s.seg (shOwner x.id) g.addr with
      | some h => decide (fld cfg 16 8 * h.count ≤ 100 * popcount h.count g.tomb)
      | none => false

/-- Where a slot came from, by the serial of its segment. -/
def Node.originOf (s : Node) (owner : Nat) (o : Nat × Nat) : Nat × Nat :=
  if o.1 = 0 then o else (1 + (readSeg (s.read owner o.1 64)).serial, o.2)

/-- 02 R65: the newest sealed generation is pinned, and new segments are built from what is visible in it. -/
def Node.startCompaction (s : Node) (x : Shard) (part : Nat) (g : GenRec) : Node :=
  let o := (shOwner x.id)
  let e := KList.getD g.map part emptyEntry
  let bad := (e.segs.filter fun r => (s.seg o r.addr).isNone).length
  let all := s.visibleSlots o e
  let ps := pieces 65536 (all.length + 1) all
  let r := ps.foldl (fun (a : List Nat × Nat × Node) p =>
    let w := a.2.2.putObj o x.inst (segImage x.params part a.2.1 x.openGen (p.map (s.slotData x e.st)))
    (a.1 ++ [w.1], a.2.1 + 1, w.2)) ([], x.segSerial, s)
  let n := r.2.2.setShard { x with segSerial := r.2.1 }
  let n := n.updGen x.inst g.gen fun r => { r with pins := r.pins + 1 }
  let n := { n with index := { n.index with compactions := n.index.compactions ++
    [{ shard := x.id, part := part, gen := g.gen, pinned := true, carried := false, sideEnd := e.sideEnd, segs := r.1,
       origin := ps.map fun p => p.map (s.originOf o) }] } }
  (List.range bad).foldl (fun s _ => s.logFor 0x0520 o) n

/-- COMPACTION_START (02 R64), in an open window of class 7 (13 R427). A standby compacts what its primary does (12 R391). -/
def execCompactionStart (sh : ShardId) (part : Nat) (s : State) : Result :=
  let n := s.node
  match n.shard sh, n.newest sh with
  | some x, some g =>
    s.next (if n.compactDue x part && n.adm.gateOpen && n.dataUp && g.pins < 1048575 && (n.follows sh).isNone
        && !(n.index.compactions.any fun c => c.shard == sh && c.part == part) then n.startCompaction x part g else n)
  | _, _ => s.next n

/-- COMPACTION_SEAL (02 R65): the compaction seal is requested and closes; SEAL_COMMIT commits it. -/
def execCompactionSeal (sh : ShardId) (part : Nat) (s : State) : Result :=
  let n := s.node
  match n.shard sh with
  | none => s.next n
  | some x =>
    if (n.index.compactions.any fun c => c.shard == sh && c.part == part) && !(n.index.seals.any fun q => q.shard == sh)
        && n.recFree sh x.openGen && n.dataUp then
      let q : SealReq := { shard := sh, waiters := [], closed := false, gen := 0, part := some part, since := n.clk, persisted := false,
                           standbyOk := false }
      s.next (({ n with index := { n.index with seals := n.index.seals ++ [q] } }).closeGen x q)
    else s.next n

/-- SEAL_AREA_FOLD (10 R311): shadow units of the seal area move to native blocks, and the seal block is erased. -/
def execSealAreaFold (s : State) : Result :=
  let n := s.node
  match List.find? (fun (b : Nat × FBlock) => b.2.pool == 3 && b.2.filled != 0) n.flash.blocks with
  | none => s.next n
  | some (k, _) =>
    if n.mapRoom && !n.flash.readOnly && n.dataUp then
      s.next (n.recycle (k / 2 ^ 24) (k % 2 ^ 24))
    else s.next n

/-! ## Creating and dropping shards (02 R34, R35; 04 R117) -/

/-- A merge plan record and its NLIST (04 Table 4.2). -/
def Node.readPlan (s : Node) (owner addr : Nat) : Except Nat Plan :=
  match s.rangeCode owner addr 16 with
  | 0 =>
    let b := s.read owner addr 16
    let n := getLe b 4 2
    let nl := getLe b 8 8
    if !zeros b 1 1 || !zeros b 6 2 then .error 0x0101
    else if 3 < getLe b 0 1 || (if getLe b 0 1 == 1 then decide (getLe b 2 2 < 2 ∨ 256 < getLe b 2 2) else getLe b 2 2 != 0)
        || n == 0 || decide (32768 < n) || (getLe b 0 1 == 0 && decide (257 < n)) || nl % 64 != 0 || decide (2 ^ 48 ≤ nl) then .error 0x0142
    else match s.rangeCode owner nl (4 * n) with
      | 0 =>
        let es := (List.range n).map fun i => s.readLe owner (nl + 4 * i) 4
        if es.any fun e => bitAt e 15 then .error 0x0101
        else if (es.map (· % 32768)).dedup.length != n then .error 0x0142
        else .ok { topo := getLe b 0 1, fanin := getLe b 2 2, nlist := es.map fun e => (e % 32768, e / 65536) }
      | c => .error c
  | c => .error c

/-- 02 R35: a tag of the centroid table. -/
def tagCode (x : ShardId) (p tag : Nat) : Nat :=
  if fld tag 21 27 != 0 then 0x0101 else if fld tag 48 16 == x.shard.val && decide (p ≤ fld tag 0 21) then 0x0125 else 0

/-- 02 Table 2.1: the parameters that `A1` of a create gives. -/
def createParams (a1 c : Nat) : ShardParams :=
  { vfSeg := fld a1 0 4, vfEx := fld a1 4 4, met := fld a1 8 2, ablk := bitAt a1 10, d := fld a1 11 13, m := fld a1 24 9, p := fld a1 33 21, c := c }

/-- 02 R34, R36, Tables 2.1 and 2.2: the parameters of `A1`, from the least significant up: a code, 0 where all are legal. -/
def createCode (p : ShardParams) : Nat :=
  let pq := p.vfSeg == 7 || p.vfSeg == 8
  if 8 < p.vfSeg then 0x0121
  else if (if pq then decide (5 < p.vfEx) else p.vfEx != p.vfSeg) then 0x0121
  else if (if p.vfEx = 6 then p.met != 3 else p.met == 3) then 0x0122
  else if p.d < 8 || 4096 < p.d || p.d % (if p.vfEx = 6 then 64 else 8) != 0 then 0x0123
  else if (if pq then decide (p.m < 8) || decide (256 < p.m) || p.d % p.m != 0 else p.m != 0) then 0x0124
  else if p.p < 1 || 1048576 < p.p then 0x0125
  else 0

/-- 02 R35: the address of a table that a create names: nonzero, 64-byte aligned, tenant-local. -/
def tableAddrOk (a : Nat) : Bool := a != 0 && a % 64 == 0 && !bitAt a 63

/-- The shard that an INDEX_CREATE describes, or its code; the item's own fields were checked at admission. The tables are
read once (02 R35). -/
def Node.createShard (s : Node) (sh : ShardId) (it : Item) : Except Nat Shard :=
  let o := (shOwner sh)
  let p := createParams (it.arg 1) it.count
  let ct := p.c * (p.exact + 8)
  let cb := if p.isPq then 4 * p.nc * p.d else 0
  if (s.shard sh).isSome then .error 0x0120
  else if !s.recFree sh 0 then .error 0x0322
  else match s.rangeCode o (it.arg 2) ct with
    | 0 =>
      let tab := s.read o (it.arg 2) ct
      let bad := ((List.range p.c).map fun i => tagCode sh p.p (getLe tab (p.c * p.exact + 8 * i) 8)).find? (· != 0)
      match (if cb = 0 then 0 else s.rangeCode o (it.arg 3) cb), bad with
      | 0, none =>
        let mk := fun plan => { id := sh, inst := s.index.nextInst, params := p, centroids := tab, codebook := s.read o (it.arg 3) cb, plan := plan,
                                openGen := 0, sides := [], segSerial := 0 }
        if it.arg 4 = 0 then .ok (mk none)
        else match s.readPlan o (it.arg 4) with
          | .ok pl => .ok (mk (some pl))
          | .error c => .error c
      | 0, some c => .error c
      | c, _ => .error c
    | c => .error c

/-- A new shard: generation 0 is OPEN (02 R52). -/
def Node.addShard (s : Node) (x : Shard) : Node :=
  { s with index := { s.index with shards := s.index.shards ++ [x], nextInst := s.index.nextInst + 1 } }

/-- INDEX_CREATE (02 R34, R35). -/
def execIndexCreate (q : Fin 8192) (s : State) : Result :=
  s.runM q 0x13 fun a =>
    let n := s.node
    match n.createShard (shardOfKey (n.qcfg q).tid (a.item.arg 0)) a.item with
    | .ok x => (n.addShard x).doneM q a (done 0)
    | .error c => n.doneM q a (done c)

/-- INDEX_DROP (13 R411). -/
def execIndexDrop (q : Fin 8192) (s : State) : Result :=
  s.runM q 0x14 fun a =>
    let n := s.node
    let sh := shardOfKey (n.qcfg q).tid (a.item.arg 0)
    if (n.shard sh).isNone then n.doneM q a (done 0x0120) else (n.dropShard sh).doneM q a (done 0)

/-- MERGE_PLAN (04 R117). -/
def execMergePlan (q : Fin 8192) (s : State) : Result :=
  s.runM q 0x15 fun a =>
    let n := s.node
    let sh := shardOfKey (fld (a.item.arg 0) 28 10) (a.item.arg 0)
    match n.shard sh with
    | none => n.doneM q a (done 0x0120)
    | some x => match n.readPlan (shOwner sh) (a.item.arg 1) with
      | .ok p => (n.setShard { x with plan := some p }).doneM q a (done 0)
      | .error c => n.doneM q a (done c)

end Sys2Proof.Machine
end

