-- ==== Sys2Proof/Machine/Operands.lean ====
section
/-! DEFINITION. Thilen (06): the words of instructions, registers and lanes as operands, poison, and how an
instruction issues. -/

namespace Sys2Proof.Machine

/-! ## Words (06 R188, Table 6.7) -/

def encF1 (op fn : Nat) (f : F1) : W64 :=
  BitVec.cast (by rfl) (BitVec.ofNat 7 op ++ BitVec.ofNat 6 fn ++ f.rd ++ f.ra ++ f.rb ++ f.rc ++ f.k ++ f.mz ++ f.et ++ f.rsv)

def encF2 (op fn : Nat) (f : F2) : W64 :=
  BitVec.cast (by rfl) (BitVec.ofNat 7 op ++ BitVec.ofNat 5 fn ++ f.rd ++ f.ra ++ f.rsv ++ f.imm)

def encF3 (op fn : Nat) (f : F3) : W64 :=
  BitVec.cast (by rfl) (BitVec.ofNat 7 op ++ BitVec.ofNat 5 fn ++ f.rd ++ f.ra ++ f.rb ++ f.sc ++ f.sp ++ f.x ++ f.k ++ f.ord ++ f.disp)

def encF4 (op fn : Nat) (f : F4) : W64 :=
  BitVec.cast (by rfl) (BitVec.ofNat 7 op ++ BitVec.ofNat 5 fn ++ f.ra ++ f.rb ++ f.rc ++ f.h ++ f.k ++ f.fl ++ f.imm)

def encF5 (op fn : Nat) (f : F5) : W64 :=
  BitVec.cast (by rfl) (BitVec.ofNat 7 op ++ f.rd ++ BitVec.ofNat 3 fn ++ f.imm)

/-! ## Registers (06 R169, R186) -/

def Thread.getV (t : Thread) (n : Nat) : Nat := (KList.getD t.v n 0).toNat

/-- k0 reads all ones. -/
def Thread.getK (t : Thread) (n : Nat) : Nat := if n = 0 then 2 ^ 64 - 1 else (KList.getD t.k n 0).toNat

/-- A mask register written; k0 is not. -/
def Thread.setK (t : Thread) (n : Nat) (v : Nat) : Thread := if n = 0 then t else { t with k := KList.put t.k n (BitVec.ofNat 64 v) }

def Thread.poisoned (t : Thread) : Dst → Bool
  | .none => false
  | .s n => t.sPoison.contains n
  | .v n => t.vPoison.contains n

/-- The register that a scalar result goes to; s0 takes none. -/
def sDst (n : Nat) : Dst := if n = 0 then .none else .s n

/-- The PC after an instruction; it has 15 bits. -/
def Thread.nextPc (t : Thread) : Nat := (t.pc + 1) % 32768

def Thread.step (t : Thread) : Thread := { t with pc := t.nextPc }

/-- The size of a thread's local memory in bytes (06 R172). -/
def Thread.localSize (t : Thread) : Nat := 4096 * t.lsize

/-! ## Issue -/

/-- What an instruction does: it faults, it stalls (the state stays), or it has its effect. -/
inductive Eff where
  | fault (code addr : Nat)
  | stall
  | done (s : Node)

/-- 07 R197: a store of an instruction of 07 holds its thread. -/
def Node.heldByStore (s : Node) (n : Nat) : Bool := s.spokes.accesses.any fun p => p.2.thr == n && p.2.hold

/-- A thread issues when nothing holds it: no wait, no store of its last instruction, no halt for debug, no reset, and its
tile's clock runs. -/
def Node.canIssue (s : Node) (n : Nat) (t : Thread) : Bool :=
  t.wait.isNone && !s.heldByStore n && !s.sec.halted.contains n && s.dataUp && bitAt s.power.pllOn (tileOfThr n)

/-- 06 R173: the instruction store holds the word, where it holds one at this index (notes/assumptions/6.md). -/
def Node.fetched (s : Node) (pc : Nat) (w : W64) : Bool :=
  match KList.find? s.spokes.istore pc with
  | some x => x == w
  | none => true

/-- 06 Tables 6.8 to 6.10, 07 Table 7.1: the functions of each major opcode. -/
def functionsOf (op : Nat) : List Nat :=
  match op with
  | 0x01 => List.range 19
  | 0x02 | 0x04 => List.range 7
  | 0x03 => List.range 11
  | 0x08 => List.range 13
  | 0x09 | 0x60 | 0x5C => List.range 4
  | 0x0A => [0, 1, 2, 3, 4, 6, 7, 8]
  | 0x0C | 0x11 | 0x23 | 0x22 | 0x64 | 0x70 => List.range 2
  | 0x0D | 0x12 | 0x14 | 0x59 => List.range 3
  | 0x10 | 0x13 | 0x58 | 0x5A | 0x6F => [0]
  | 0x15 | 0x41 => List.range 5
  | 0x20 => List.range 9
  | 0x21 => List.range 6
  | 0x40 => List.range 8
  | 0x42 => (List.range 32).filter amoOk
  | _ => []

/-- The function of an instruction word, at the place that its format gives (06 Tables 6.6, 6.7). -/
def functionOf (w : Nat) : Nat :=
  let op := fld w 57 7
  if op < 0x20 then fld w 51 6 else if op < 0x70 then fld w 52 5 else fld w 48 3

/-- 06 R188: whether the opcode and the function of a word are not reserved. -/
def assignedOp (w : Nat) : Bool := (functionsOf (fld w 57 7)).contains (functionOf w)

/-- A word of the instruction store that is no instruction. -/
def Node.reservedAt (s : Node) (pc : Nat) : Bool :=
  match KList.find? s.spokes.istore pc with
  | some x => !assignedOp x.toNat
  | none => false

/-- An instruction of a thread (06 R164, R173, R184). A thread that cannot issue it is left as it is. -/
def State.issue (s : State) (th : Thr) (w : W64) (f : Nat → Thread → Ctx → Eff) : Result :=
  let n := thrNo th
  match s.node.thread n with
  | none => s.next s.node
  | some t => match s.node.ctx t.ctx with
    | none => s.next s.node
    | some x =>
      if !s.node.canIssue n t then s.next s.node
      else if t.pc < t.lo || t.hi ≤ t.pc then s.settled (s.node.threadFault n t.pc 0x0165 w.toNat 0)
      else if s.node.reservedAt t.pc then s.settled (s.node.threadFault n t.pc 0x0160 (s.node.instrAt t.pc) 0)
      else if !s.node.fetched t.pc w then s.next s.node
      else match f n t x with
        | .fault c a => s.settled (s.node.threadFault n t.pc c w.toNat a)
        | .stall => s.next s.node
        | .done m => s.settled m

/-- 06 R176: a register whose result is outstanding. -/
def Node.pendingReg (s : Node) (n : Nat) (d : Dst) : Bool := d != .none && s.spokes.accesses.any fun p => p.2.thr == n && p.2.dst == d

/-- 06 R176, R186: an instruction that reads and writes registers only; it stalls on those that are outstanding, and
faults on those that it consumes poisoned. -/
def Node.regOp (s : Node) (n : Nat) (t : Thread) (regs consumed : List Dst) (t' : Thread) : Eff :=
  if regs.any (s.pendingReg n) then .stall
  else if consumed.any t.poisoned then .fault 0x0530 0
  else .done (s.setThread n t'.step)

/-- An F1 instruction: its reserved bits are 0 and its fields legal, or it is `ISA_ILLEGAL`. -/
def State.f1 (s : State) (th : Thr) (op fn : Nat) (f : F1) (legal : Bool) (g : Nat → Thread → Ctx → Eff) : Result :=
  s.issue th (encF1 op fn f) fun n t x => if f.rsv != 0 || !legal then .fault 0x0160 0 else g n t x

def State.f2 (s : State) (th : Thr) (op fn : Nat) (f : F2) (legal : Bool) (g : Nat → Thread → Ctx → Eff) : Result :=
  s.issue th (encF2 op fn f) fun n t x => if f.rsv != 0 || !legal then .fault 0x0160 0 else g n t x

/-- F1 with a scalar result: `srcs` are read, `consumed` of them must be clean. -/
def State.sOp (s : State) (th : Thr) (op fn : Nat) (f : F1) (legal : Bool) (srcs consumed : List Dst) (g : Thread → W64) : Result :=
  s.f1 th op fn f legal fun n t _ =>
    s.node.regOp n t (sDst f.rd.toNat :: srcs) consumed (t.setS f.rd.toNat (g t) (srcs.any t.poisoned))

/-- F1 over ra and rb. -/
def State.alu (s : State) (th : Thr) (op fn : Nat) (f : F1) (g : W64 → W64 → W64) : Result :=
  s.sOp th op fn f true [.s f.ra.toNat, .s f.rb.toNat] [] fun t => g (t.getS f.ra.toNat) (t.getS f.rb.toNat)

/-- F1 over ra. -/
def State.alu1 (s : State) (th : Thr) (op fn : Nat) (f : F1) (g : W64 → W64) : Result :=
  s.sOp th op fn f true [.s f.ra.toNat] [] fun t => g (t.getS f.ra.toNat)

/-- F2 over ra and the sign-extended immediate. -/
def State.aluImm (s : State) (th : Thr) (op fn : Nat) (f : F2) (legal : Bool) (g : W64 → W64 → W64) : Result :=
  s.f2 th op fn f legal fun n t _ =>
    s.node.regOp n t [sDst f.rd.toNat, .s f.ra.toNat] []
      (t.setS f.rd.toNat (g (t.getS f.ra.toNat) (f.imm.signExtend 64)) (t.poisoned (.s f.ra.toNat)))

/-- A condition as a register value. -/
def w1 (b : Bool) : W64 := if b then 1 else 0

/-! ## Element types (06 Table 6.2) -/

def etBits (et : Nat) : Nat :=
  match et with
  | 0 => 8 | 1 => 8 | 2 => 16 | 3 => 16 | 4 => 32 | 5 => 32 | 6 => 64 | 7 => 64 | 8 => 16 | 9 => 16 | 10 => 32 | _ => 64

def etLanes (et : Nat) : Nat := 512 / etBits et

def etInt (et : Nat) : Bool := et ≤ 7
def etSigned (et : Nat) : Bool := et ≤ 7 && et % 2 == 0

def etFmt (et : Nat) : Fmt :=
  match et with
  | 8 => .f16
  | 9 => .bf16
  | 10 => .f32
  | _ => .f64

/-- A lane of an integer type as a number. -/
def etVal (et v : Nat) : Int := if etSigned et then toSigned (etBits et) v else (v % 2 ^ etBits et : Nat)

def etMax (et : Nat) : Int := if etSigned et then 2 ^ (etBits et - 1) - 1 else 2 ^ etBits et - 1
def etMin (et : Nat) : Int := if etSigned et then -(2 ^ (etBits et - 1)) else 0

/-- An integer kept to a type's range. -/
def etSat (et : Nat) (i : Int) : Nat := ofSigned (etBits et) (max (etMin et) (min (etMax et) i))

/-- A value of a type in an s register (notes/assumptions/23.md). -/
def etWord (et v : Nat) : W64 := if etInt et then BitVec.ofInt 64 (etVal et v) else BitVec.ofNat 64 (v % 2 ^ etBits et)

/-- A floating result; a NaN's sign and payload are free (notes/assumptions/7.md). -/
def fResult (f : Fmt) (op a b r : Nat) : Nat := if fIsNan f r then nanOf f (Config.nanBits op a b) else r

/-- 06 R189: FMIN and FMAX. -/
def fMinMax (f : Fmt) (mx : Bool) (a b : Nat) : Nat :=
  if fIsNan f a then (if fIsNan f b then f.qnan else b)
  else if fIsNan f b then a
  else if fLt f a b then (if mx then b else a)
  else if fLt f b a then (if mx then a else b)
  else if bitAt a (f.width - 1) then (if mx then b else a)
  else (if mx then a else b)

/-- 06 R189: FCVT and VCVT. -/
def etConvert (src dst v : Nat) : Nat :=
  if etInt src then
    if !etInt dst then fOfInt (etFmt dst) (etVal src v)
    else if etBits src ≤ etBits dst then ofSigned (etBits dst) (etVal src v)
    else etSat dst (etVal src v)
  else
    let x := Fp.of (etFmt src) v
    if etInt dst then
      match x with
      | .nan => 0
      | .inf n => etSat dst (if n then etMin dst else etMax dst)
      | y => etSat dst (y.rint.getD 0)
    else fResult (etFmt dst) (100 + src) v dst (fConv (etFmt src) (etFmt dst) v)

/-! ## Vectors (06 R170) -/

/-- Lane i of a register. -/
def lane (w v i : Nat) : Nat := fld v (i * w) w

/-- A register from its lanes. -/
def packLanes (w n : Nat) (g : Nat → Nat) : V512 := BitVec.ofNat 512 (sumN ((List.range n).map fun i => put (g i) (i * w) w))

/-- Whether a mask leaves a lane out. -/
def masksOut (n mask : Nat) : Bool := (List.range n).any fun i => !bitAt mask i

/-- F1 with a vector result of n lanes of w bits under mask `K` and `MZ`. A merge reads the destination
(notes/assumptions/44.md). -/
def State.vOp (s : State) (th : Thr) (op fn : Nat) (f : F1) (legal : Bool) (srcs consumed : List Dst) (w n : Nat)
    (g : Thread → Nat → Nat) : Result :=
  s.f1 th op fn f (legal && decide (f.rd.toNat < 32)) fun num t _ =>
    let rd := f.rd.toNat
    let mask := t.getK f.k.toNat
    let merge := f.mz == 0 && masksOut n mask
    let old := t.getV rd
    let v := packLanes w n fun i => if bitAt mask i then g t i else if f.mz == 0 then lane w old i else 0
    s.node.regOp num t (.v rd :: srcs) consumed (t.setV rd v ((if merge then Dst.v rd :: srcs else srcs).any t.poisoned))

/-- Lane by lane over va and vb. -/
def State.vAlu (s : State) (th : Thr) (fn : Nat) (f : F1) (ets : Nat → Bool) (g : Nat → Nat → Nat → Nat) : Result :=
  let et := f.et.toNat
  let w := etBits et
  s.vOp th 0x08 fn f (ets et && decide (f.ra.toNat < 32) && decide (f.rb.toNat < 32)) [.v f.ra.toNat, .v f.rb.toNat] [] w (etLanes et)
    fun t i => g et (lane w (t.getV f.ra.toNat) i) (lane w (t.getV f.rb.toNat) i)

def anyEt (et : Nat) : Bool := et ≤ 11

end Sys2Proof.Machine
end

