-- ==== Sys2Proof/Machine/Alu.lean ====
section
/-! DEFINITION. Thilen's scalar and mask instructions (06 Tables 6.8 and 6.9). -/

namespace Sys2Proof.Machine

/-! ## Integer (OP 0x01, 0x02) -/

def execAdd (th : Thr) (f : F1) (s : State) : Result := s.alu th 0x01 0 f (· + ·)
def execSub (th : Thr) (f : F1) (s : State) : Result := s.alu th 0x01 1 f (· - ·)
def execAnd (th : Thr) (f : F1) (s : State) : Result := s.alu th 0x01 2 f (· &&& ·)
def execOr (th : Thr) (f : F1) (s : State) : Result := s.alu th 0x01 3 f (· ||| ·)
def execXor (th : Thr) (f : F1) (s : State) : Result := s.alu th 0x01 4 f (· ^^^ ·)
def execShl (th : Thr) (f : F1) (s : State) : Result := s.alu th 0x01 5 f fun a b => a <<< (b.toNat % 64)
def execShr (th : Thr) (f : F1) (s : State) : Result := s.alu th 0x01 6 f fun a b => a >>> (b.toNat % 64)
def execSra (th : Thr) (f : F1) (s : State) : Result := s.alu th 0x01 7 f fun a b => a.sshiftRight (b.toNat % 64)
def execSlt (th : Thr) (f : F1) (s : State) : Result := s.alu th 0x01 8 f fun a b => w1 (a.slt b)
def execSltu (th : Thr) (f : F1) (s : State) : Result := s.alu th 0x01 9 f fun a b => w1 (a.ult b)
def execMin (th : Thr) (f : F1) (s : State) : Result := s.alu th 0x01 10 f fun a b => if b.slt a then b else a
def execMax (th : Thr) (f : F1) (s : State) : Result := s.alu th 0x01 11 f fun a b => if a.slt b then b else a
def execMinu (th : Thr) (f : F1) (s : State) : Result := s.alu th 0x01 12 f fun a b => if b.ult a then b else a
def execMaxu (th : Thr) (f : F1) (s : State) : Result := s.alu th 0x01 13 f fun a b => if a.ult b then b else a

/-- SEL: ra where rc is not 0, else rb. -/
def execSel (th : Thr) (f : F1) (s : State) : Result :=
  s.sOp th 0x01 14 f true [.s f.ra.toNat, .s f.rb.toNat, .s f.rc.toNat] [] fun t =>
    if t.getS f.rc.toNat = 0 then t.getS f.rb.toNat else t.getS f.ra.toNat

/-- Zeros above the highest bit that is 1. -/
def clz64 (v : Nat) : Nat := if v = 0 then 64 else 63 - Nat.log2 v

/-- Zeros below the lowest bit that is 1. -/
def ctz64 (v : Nat) : Nat := ((List.range 64).find? (bitAt v)).getD 64

def execPopc (th : Thr) (f : F1) (s : State) : Result := s.alu1 th 0x01 15 f fun a => BitVec.ofNat 64 (popcount 64 a.toNat)
def execClz (th : Thr) (f : F1) (s : State) : Result := s.alu1 th 0x01 16 f fun a => BitVec.ofNat 64 (clz64 a.toNat)
def execCtz (th : Thr) (f : F1) (s : State) : Result := s.alu1 th 0x01 17 f fun a => BitVec.ofNat 64 (ctz64 a.toNat)

/-- PTEST: the poison bit, itself clean. -/
def execPtest (th : Thr) (f : F1) (s : State) : Result :=
  let r : Dst := if f.et == 0 then .s f.ra.toNat else .v f.ra.toNat
  s.f1 th 0x01 18 f (f.et == 0 || (f.et == 1 && decide (f.ra.toNat < 32))) fun n t _ =>
    s.node.regOp n t [sDst f.rd.toNat, r] [] (t.setS f.rd.toNat (w1 (t.poisoned r)))

def execMul (th : Thr) (f : F1) (s : State) : Result := s.alu th 0x02 0 f (· * ·)
def execMulh (th : Thr) (f : F1) (s : State) : Result := s.alu th 0x02 1 f fun a b => BitVec.ofInt 64 (a.toInt * b.toInt / 2 ^ 64)
def execMulhu (th : Thr) (f : F1) (s : State) : Result := s.alu th 0x02 2 f fun a b => BitVec.ofNat 64 (a.toNat * b.toNat / 2 ^ 64)

/-- 06 R189: the signed quotient, truncated; all ones on 0. The quotient of the least value by −1 wraps to it. -/
def divS (a b : W64) : W64 := if b = 0 then -1 else BitVec.ofInt 64 (a.toInt.tdiv b.toInt)
def divU (a b : W64) : W64 := if b = 0 then -1 else a / b

def execDiv (th : Thr) (f : F1) (s : State) : Result := s.alu th 0x02 3 f divS
def execDivu (th : Thr) (f : F1) (s : State) : Result := s.alu th 0x02 4 f divU
def execRem (th : Thr) (f : F1) (s : State) : Result := s.alu th 0x02 5 f fun a b => if b = 0 then a else a - divS a b * b
def execRemu (th : Thr) (f : F1) (s : State) : Result := s.alu th 0x02 6 f fun a b => if b = 0 then a else a - divU a b * b

/-! ## Floating point (OP 0x03) -/

def fpEt (f : F1) : Bool := f.et == 10 || f.et == 11

/-- F1 over the low bits of ra and rb in F32 or F64. -/
def State.fOp (s : State) (th : Thr) (fn : Nat) (f : F1) (g : Fmt → Nat → Nat → Nat) : Result :=
  s.sOp th 0x03 fn f (fpEt f) [.s f.ra.toNat, .s f.rb.toNat] [] fun t =>
    let w := etBits f.et.toNat
    BitVec.ofNat 64 (g (etFmt f.et.toNat) ((t.getS f.ra.toNat).toNat % 2 ^ w) ((t.getS f.rb.toNat).toNat % 2 ^ w))

def execFadd (th : Thr) (f : F1) (s : State) : Result := s.fOp th 0 f fun m a b => fResult m 0 a b (fAdd m a b)
def execFsub (th : Thr) (f : F1) (s : State) : Result := s.fOp th 1 f fun m a b => fResult m 1 a b (fSub m a b)
def execFmul (th : Thr) (f : F1) (s : State) : Result := s.fOp th 2 f fun m a b => fResult m 2 a b (fMul m a b)
def execFdiv (th : Thr) (f : F1) (s : State) : Result := s.fOp th 3 f fun m a b => fResult m 3 a b (fDiv m a b)

/-- FSQRT reads ra only. -/
def execFsqrt (th : Thr) (f : F1) (s : State) : Result :=
  s.sOp th 0x03 4 f (fpEt f) [.s f.ra.toNat] [] fun t =>
    let a := (t.getS f.ra.toNat).toNat % 2 ^ etBits f.et.toNat
    BitVec.ofNat 64 (fResult (etFmt f.et.toNat) 4 a 0 (fSqrt (etFmt f.et.toNat) a))

def execFmin (th : Thr) (f : F1) (s : State) : Result := s.fOp th 5 f fun m a b => fMinMax m false a b
def execFmax (th : Thr) (f : F1) (s : State) : Result := s.fOp th 6 f fun m a b => fMinMax m true a b
def execFeq (th : Thr) (f : F1) (s : State) : Result := s.fOp th 7 f fun m a b => b2n (fEq m a b)
def execFlt (th : Thr) (f : F1) (s : State) : Result := s.fOp th 8 f fun m a b => b2n (fLt m a b)
def execFle (th : Thr) (f : F1) (s : State) : Result := s.fOp th 9 f fun m a b => b2n (fLt m a b || fEq m a b)

/-- FCVT: types 4-11. -/
def execFcvt (th : Thr) (f : F1) (s : State) : Result :=
  let src := f.et.toNat
  let dst := f.rc.toNat % 16
  s.sOp th 0x03 10 f (decide (4 ≤ src ∧ src ≤ 11 ∧ 4 ≤ dst ∧ dst ≤ 11)) [.s f.ra.toNat] [] fun t =>
    etWord dst (etConvert src dst ((t.getS f.ra.toNat).toNat % 2 ^ etBits src))

/-! ## Masks (OP 0x04) -/

/-- F1 over mask registers. -/
def State.kOp (s : State) (th : Thr) (fn : Nat) (f : F1) (two : Bool) (g : W64 → W64 → W64) : Result :=
  s.f1 th 0x04 fn f (decide (f.rd.toNat < 8) && decide (f.ra.toNat < 8) && (!two || decide (f.rb.toNat < 8))) fun n t _ =>
    s.node.regOp n t [] [] (t.setK f.rd.toNat
      (g (BitVec.ofNat 64 (t.getK f.ra.toNat)) (BitVec.ofNat 64 (t.getK f.rb.toNat))).toNat)

def execKand (th : Thr) (f : F1) (s : State) : Result := s.kOp th 0 f true (· &&& ·)
def execKor (th : Thr) (f : F1) (s : State) : Result := s.kOp th 1 f true (· ||| ·)
def execKxor (th : Thr) (f : F1) (s : State) : Result := s.kOp th 2 f true (· ^^^ ·)
def execKnot (th : Thr) (f : F1) (s : State) : Result := s.kOp th 3 f false fun a _ => ~~~a

/-- KMOV.S2K consumes poison (06 R186). -/
def execKmovS2k (th : Thr) (f : F1) (s : State) : Result :=
  s.f1 th 0x04 4 f (decide (f.rd.toNat < 8)) fun n t _ =>
    s.node.regOp n t [.s f.ra.toNat] [.s f.ra.toNat] (t.setK f.rd.toNat (t.getS f.ra.toNat).toNat)

def execKmovK2s (th : Thr) (f : F1) (s : State) : Result :=
  s.sOp th 0x04 5 f (decide (f.ra.toNat < 8)) [] [] fun t => BitVec.ofNat 64 (t.getK f.ra.toNat)

def execKpopc (th : Thr) (f : F1) (s : State) : Result :=
  s.sOp th 0x04 6 f (decide (f.ra.toNat < 8)) [] [] fun t => BitVec.ofNat 64 (popcount 64 (t.getK f.ra.toNat))

/-! ## Immediates (OP 0x20, 0x70) -/

def execAddi (th : Thr) (f : F2) (s : State) : Result := s.aluImm th 0x20 0 f true (· + ·)
def execAndi (th : Thr) (f : F2) (s : State) : Result := s.aluImm th 0x20 1 f true (· &&& ·)
def execOri (th : Thr) (f : F2) (s : State) : Result := s.aluImm th 0x20 2 f true (· ||| ·)
def execXori (th : Thr) (f : F2) (s : State) : Result := s.aluImm th 0x20 3 f true (· ^^^ ·)
def execShli (th : Thr) (f : F2) (s : State) : Result :=
  s.aluImm th 0x20 4 f (decide (f.imm.toNat < 64)) fun a i => a <<< (i.toNat % 64)
def execShri (th : Thr) (f : F2) (s : State) : Result :=
  s.aluImm th 0x20 5 f (decide (f.imm.toNat < 64)) fun a i => a >>> (i.toNat % 64)
def execSrai (th : Thr) (f : F2) (s : State) : Result :=
  s.aluImm th 0x20 6 f (decide (f.imm.toNat < 64)) fun a i => a.sshiftRight (i.toNat % 64)
def execSlti (th : Thr) (f : F2) (s : State) : Result := s.aluImm th 0x20 7 f true fun a i => w1 (a.slt i)
def execSltiu (th : Thr) (f : F2) (s : State) : Result := s.aluImm th 0x20 8 f true fun a i => w1 (a.ult i)

def State.f5 (s : State) (th : Thr) (fn : Nat) (f : F5) (legal : Bool) (srcs : List Dst) (g : Thread → W64) : Result :=
  s.issue th (encF5 0x70 fn f) fun n t _ =>
    if !legal then .fault 0x0160 0
    else s.node.regOp n t (sDst f.rd.toNat :: srcs) [] (t.setS f.rd.toNat (g t) (srcs.any t.poisoned))

def execLi (th : Thr) (f : F5) (s : State) : Result := s.f5 th 0 f true [] fun _ => f.imm.signExtend 64

/-- LIU: the high 16 bits; the others stay. -/
def execLiu (th : Thr) (f : F5) (s : State) : Result :=
  s.f5 th 1 f (decide (f.imm.toNat < 65536)) [.s f.rd.toNat] fun t =>
    BitVec.ofNat 64 ((t.getS f.rd.toNat).toNat % 2 ^ 48 + put f.imm.toNat 48 16)

end Sys2Proof.Machine
end

