-- ==== Sys2Proof/Machine/Vector.lean ====
section
/-! DEFINITION. Thilen's vector instructions (06 Table 6.8, OP 0x08-0x0A). -/

namespace Sys2Proof.Machine

/-- Integer or floating, lane by lane. -/
def laneArith (op : Nat) (gi : Int → Int → Int) (gf : Fmt → Nat → Nat → Nat) (et a b : Nat) : Nat :=
  if etInt et then ofSigned (etBits et) (gi (etVal et a) (etVal et b)) else fResult (etFmt et) op a b (gf (etFmt et) a b)

def execVadd (th : Thr) (f : F1) (s : State) : Result := s.vAlu th 0 f anyEt (laneArith 10 (· + ·) fAdd)
def execVsub (th : Thr) (f : F1) (s : State) : Result := s.vAlu th 1 f anyEt (laneArith 11 (· - ·) fSub)
def execVmul (th : Thr) (f : F1) (s : State) : Result := s.vAlu th 2 f anyEt (laneArith 12 (· * ·) fMul)

/-- Min or max of two lanes. -/
def laneMinMax (mx : Bool) (et a b : Nat) : Nat :=
  if etInt et then
    let x := etVal et a
    let y := etVal et b
    ofSigned (etBits et) (if mx then max x y else min x y)
  else fMinMax (etFmt et) mx a b

def execVmin (th : Thr) (f : F1) (s : State) : Result := s.vAlu th 3 f anyEt (laneMinMax false)
def execVmax (th : Thr) (f : F1) (s : State) : Result := s.vAlu th 4 f anyEt (laneMinMax true)
def execVand (th : Thr) (f : F1) (s : State) : Result := s.vAlu th 5 f etInt fun _ a b => a &&& b
def execVor (th : Thr) (f : F1) (s : State) : Result := s.vAlu th 6 f etInt fun _ a b => a ||| b
def execVxor (th : Thr) (f : F1) (s : State) : Result := s.vAlu th 7 f etInt fun _ a b => a ^^^ b
def execVshl (th : Thr) (f : F1) (s : State) : Result := s.vAlu th 8 f etInt fun et a b => a <<< (b % etBits et)
def execVshr (th : Thr) (f : F1) (s : State) : Result := s.vAlu th 9 f etInt fun et a b => a >>> (b % etBits et)
def execVsra (th : Thr) (f : F1) (s : State) : Result :=
  s.vAlu th 10 f etInt fun et a b => ofSigned (etBits et) (toSigned (etBits et) a >>> (b % etBits et))

/-- VPOPC: over va. -/
def execVpopc (th : Thr) (f : F1) (s : State) : Result :=
  let et := f.et.toNat
  s.vOp th 0x08 11 f (etInt et && decide (f.ra.toNat < 32)) [.v f.ra.toNat] [] (etBits et) (etLanes et) fun t i =>
    popcount (etBits et) (lane (etBits et) (t.getV f.ra.toNat) i)

/-- VDOTP: sixteen I32 lanes, four products of bytes each. -/
def execVdotp (th : Thr) (f : F1) (s : State) : Result :=
  let et := f.et.toNat
  s.vOp th 0x08 12 f (decide (et ≤ 1) && decide (f.ra.toNat < 32) && decide (f.rb.toNat < 32)) [.v f.ra.toNat, .v f.rb.toNat] [] 32 16
    fun t j => ofSigned 32 ((List.range 4).foldl (fun (a : Int) b =>
      a + etVal et (lane 8 (t.getV f.ra.toNat) (4 * j + b)) * etVal et (lane 8 (t.getV f.rb.toNat) (4 * j + b))) 0)

/-- VCMP: bit i of mask rd is the condition on lane i, for the lanes under `K`. -/
def State.vCmp (s : State) (th : Thr) (fn : Nat) (f : F1) (gi : Int → Int → Bool) (gf : Fmt → Nat → Nat → Bool) : Result :=
  let et := f.et.toNat
  let w := etBits et
  s.f1 th 0x09 fn f (anyEt et && decide (f.rd.toNat < 8) && decide (f.ra.toNat < 32) && decide (f.rb.toNat < 32)) fun n t _ =>
    let mask := t.getK f.k.toNat
    let m := sumN ((List.range (etLanes et)).map fun i =>
      let a := lane w (t.getV f.ra.toNat) i
      let b := lane w (t.getV f.rb.toNat) i
      put (b2n (bitAt mask i && if etInt et then gi (etVal et a) (etVal et b) else gf (etFmt et) a b)) i 1)
    s.node.regOp n t [.v f.ra.toNat, .v f.rb.toNat] [] (t.setK f.rd.toNat m)

def execVcmpEq (th : Thr) (f : F1) (s : State) : Result := s.vCmp th 0 f (fun a b => decide (a = b)) fEq
def execVcmpNe (th : Thr) (f : F1) (s : State) : Result := s.vCmp th 1 f (fun a b => decide (a ≠ b)) fun m a b => !fEq m a b
def execVcmpLt (th : Thr) (f : F1) (s : State) : Result := s.vCmp th 2 f (fun a b => decide (a < b)) fLt
def execVcmpLe (th : Thr) (f : F1) (s : State) : Result := s.vCmp th 3 f (fun a b => decide (a ≤ b)) fun m a b => fLt m a b || fEq m a b

def execVmov (th : Thr) (f : F1) (s : State) : Result :=
  let et := f.et.toNat
  s.vOp th 0x0A 0 f (anyEt et && decide (f.ra.toNat < 32)) [.v f.ra.toNat] [] (etBits et) (etLanes et) fun t i =>
    lane (etBits et) (t.getV f.ra.toNat) i

def execVbcast (th : Thr) (f : F1) (s : State) : Result :=
  let et := f.et.toNat
  s.vOp th 0x0A 1 f (anyEt et) [.s f.ra.toNat] [] (etBits et) (etLanes et) fun t _ => (t.getS f.ra.toNat).toNat % 2 ^ etBits et

/-- VEXT: lane (rb mod L) of va; rb is an index (06 R186). -/
def execVext (th : Thr) (f : F1) (s : State) : Result :=
  let et := f.et.toNat
  s.sOp th 0x0A 2 f (anyEt et && decide (f.ra.toNat < 32)) [.v f.ra.toNat, .s f.rb.toNat] [.s f.rb.toNat] fun t =>
    etWord et (lane (etBits et) (t.getV f.ra.toNat) ((t.getS f.rb.toNat).toNat % etLanes et))

/-- VPERM: vb holds indices (06 R186). -/
def execVperm (th : Thr) (f : F1) (s : State) : Result :=
  let et := f.et.toNat
  let w := etBits et
  s.vOp th 0x0A 3 f (anyEt et && decide (f.ra.toNat < 32) && decide (f.rb.toNat < 32)) [.v f.ra.toNat, .v f.rb.toNat] [.v f.rb.toNat]
    w (etLanes et) fun t i => lane w (t.getV f.ra.toNat) (lane w (t.getV f.rb.toNat) i % etLanes et)

/-- VCVT (06 R189): part p of a register where lanes grow. -/
def execVcvt (th : Thr) (f : F1) (s : State) : Result :=
  let src := f.et.toNat
  let dst := f.rc.toNat % 16
  let p := f.rc.toNat / 16
  let ls := etLanes src
  let ld := etLanes dst
  s.vOp th 0x0A 4 f (anyEt src && anyEt dst && decide (f.ra.toNat < 32) && (if ld ≤ ls then decide (p < ls / ld) else p == 0))
    [.v f.ra.toNat] [] (etBits dst) ld fun t i =>
      if ld ≤ ls then etConvert src dst (lane (etBits src) (t.getV f.ra.toNat) (p * ld + i))
      else if i < ls then etConvert src dst (lane (etBits src) (t.getV f.ra.toNat) i) else 0

/-- The tree of 03 R84 over any combination. -/
def treeBy {α : Type} (g : α → α → α) : Nat → List α → List α
  | 0, l => l
  | n + 1, l => let h := l.length / 2; if h = 0 then l else treeBy g n (List.zipWith g (l.take h) (l.drop h))

/-- The type that a floating reduction runs in: F16 and BF16 widen to F32. -/
def redEt (et : Nat) : Nat := if et == 11 then 11 else 10

/-- VRED.ADD: floating masked lanes take +0.0; a NaN sum's payload is free. -/
def execVredAdd (th : Thr) (f : F1) (s : State) : Result :=
  let et := f.et.toNat
  let w := etBits et
  s.sOp th 0x0A 6 f (anyEt et && decide (f.ra.toNat < 32)) [.v f.ra.toNat] [] fun t =>
    let mask := t.getK f.k.toNat
    let v := t.getV f.ra.toNat
    if etInt et then
      BitVec.ofInt 64 ((treeBy (· + ·) 6 ((List.range (etLanes et)).map fun i => if bitAt mask i then etVal et (lane w v i) else 0)).headD 0)
    else
      let m := etFmt (redEt et)
      let l := (List.range (etLanes et)).map fun i => if bitAt mask i then fConv (etFmt et) m (lane w v i) else 0
      BitVec.ofNat 64 (fResult m 20 v mask ((treeBy (fAdd m) 6 l).headD 0))

/-- The least or the greatest of the lanes under the mask. -/
def State.vRedMinMax (s : State) (th : Thr) (fn : Nat) (f : F1) (mx : Bool) : Result :=
  let et := f.et.toNat
  let w := etBits et
  s.sOp th 0x0A fn f (anyEt et && decide (f.ra.toNat < 32)) [.v f.ra.toNat] [] fun t =>
    let mask := t.getK f.k.toNat
    let v := t.getV f.ra.toNat
    if etInt et then
      let l := (List.range (etLanes et)).map fun i => if bitAt mask i then etVal et (lane w v i) else if mx then etMin et else etMax et
      BitVec.ofInt 64 ((treeBy (fun a b => if mx then max a b else min a b) 6 l).headD 0)
    else
      let m := etFmt (redEt et)
      let idle := m.infBits + (if mx then m.signBit else 0)
      let l := (List.range (etLanes et)).map fun i => if bitAt mask i then fConv (etFmt et) m (lane w v i) else idle
      BitVec.ofNat 64 ((treeBy (fMinMax m mx) 6 l).headD 0)

def execVredMin (th : Thr) (f : F1) (s : State) : Result := s.vRedMinMax th 7 f false
def execVredMax (th : Thr) (f : F1) (s : State) : Result := s.vRedMinMax th 8 f true

end Sys2Proof.Machine
end

