-- ==== Sys2Proof/Machine/Control.lean ====
section
/-! DEFINITION. Thilen's control, special-register, fence and system instructions (06 R171, R183, R189, R192, R193). -/

namespace Sys2Proof.Machine

/-! ## Branches and jumps -/

/-- A PC moved by an immediate. -/
def jumpTo (pc : Nat) (imm : BitVec 32) : Nat := ofSigned 15 ((pc : Int) + imm.toInt)

/-- A branch compares ra with the register in `RD`; both are consumed (06 R186). -/
def State.branch (s : State) (th : Thr) (fn : Nat) (f : F2) (g : W64 → W64 → Bool) : Result :=
  s.f2 th 0x21 fn f true fun n t _ =>
    let rs : List Dst := [.s f.ra.toNat, .s f.rd.toNat]
    if rs.any (s.node.pendingReg n) then .stall
    else if rs.any t.poisoned then .fault 0x0530 0
    else .done (s.node.setThread n { t with pc := if g (t.getS f.ra.toNat) (t.getS f.rd.toNat) then jumpTo t.pc f.imm else t.nextPc })

def execBeq (th : Thr) (f : F2) (s : State) : Result := s.branch th 0 f fun a b => a == b
def execBne (th : Thr) (f : F2) (s : State) : Result := s.branch th 1 f fun a b => a != b
def execBlt (th : Thr) (f : F2) (s : State) : Result := s.branch th 2 f fun a b => a.slt b
def execBge (th : Thr) (f : F2) (s : State) : Result := s.branch th 3 f fun a b => !a.slt b
def execBltu (th : Thr) (f : F2) (s : State) : Result := s.branch th 4 f fun a b => a.ult b
def execBgeu (th : Thr) (f : F2) (s : State) : Result := s.branch th 5 f fun a b => !a.ult b

/-- JAL: rd := PC + 1; PC := PC + imm. -/
def execJal (th : Thr) (f : F2) (s : State) : Result :=
  s.f2 th 0x22 0 f true fun n t _ =>
    if s.node.pendingReg n (sDst f.rd.toNat) then .stall
    else .done (s.node.setThread n { t.setS f.rd.toNat (BitVec.ofNat 64 t.nextPc) with pc := jumpTo t.pc f.imm })

/-- JALR: the target is read before rd is written. -/
def execJalr (th : Thr) (f : F2) (s : State) : Result :=
  s.f2 th 0x22 1 f true fun n t _ =>
    if [sDst f.rd.toNat, .s f.ra.toNat].any (s.node.pendingReg n) then .stall
    else if t.poisoned (.s f.ra.toNat) then .fault 0x0530 0
    else
      let target := (t.getS f.ra.toNat + f.imm.signExtend 64).toNat % 32768
      .done (s.node.setThread n { t.setS f.rd.toNat (BitVec.ofNat 64 t.nextPc) with pc := target })

/-! ## Special registers (06 R171) -/

/-- The value of a special register of a thread. -/
def Node.special (s : Node) (n : Nat) (t : Thread) (x : Ctx) (r : Nat) : Nat :=
  match r with
  | 0 => put (n % 4) 0 2 + put (thrSpoke n) 2 6 + put (thrHub n) 8 5
  | 1 => put t.ctx 0 15 + (if x.owner == sysOwner then 2 ^ 26 else put x.owner 16 10)
  | 2 => match t.job with
    | some j => put j 0 16 + 2 ^ 16
    | none => 0
  | 3 => put x.gangSize 0 7 + put t.member 16 6
  | 4 => t.localSize
  | 5 => t.lstat % 65536
  | 6 => 11 * (s.clk - t.boundAt) / 10
  | 7 => s.dev.node % 32768
  | _ => match x.deadline with
    | some d => d % 2 ^ 64
    | none => 2 ^ 64 - 1

/-- SRD (06 R171): rd := SR[imm]. -/
def execSrd (th : Thr) (f : F2) (s : State) : Result :=
  s.f2 th 0x23 0 f (decide (f.imm.toNat ≤ 8)) fun n t x =>
    s.node.regOp n t [sDst f.rd.toNat] [] (t.setS f.rd.toNat (BitVec.ofNat 64 (s.node.special n t x f.imm.toNat)))

/-- 06 R171: every global access of a thread has completed. -/
def Node.globalsDone (s : Node) (n : Nat) : Bool := !(s.spokes.accesses.any fun p => p.2.thr == n && bitAt p.2.addr 63)

/-- SWR (06 R171): `SR_LSTAT`, and `SR_JOB` for the system context; any other is read-only. -/
def execSwr (th : Thr) (f : F2) (s : State) : Result :=
  s.f2 th 0x23 1 f (decide (f.imm.toNat ≤ 8)) fun n t x =>
    let r := f.imm.toNat
    let v := (t.getS f.ra.toNat).toNat
    if !(r == 5 || (r == 2 && x.owner == sysOwner)) then .fault 0x0161 0
    else if s.node.pendingReg n (.s f.ra.toNat) then .stall
    else if t.poisoned (.s f.ra.toNat) then .fault 0x0530 0
    else if r == 5 then .done (s.node.setThread n { t.step with lstat := v % 65536 })
    else if !s.node.globalsDone n then .stall
    else .done (s.node.setThread n { t.step with job := if bitAt v 16 then some (v % 65536) else none })

/-! ## Fences -/

/-- FENCE (06 R192): it waits for the accesses that it names; posted stores are not among them. -/
def execFence (th : Thr) (f : F1) (s : State) : Result :=
  let m := f.rc.toNat % 16
  s.f1 th 0x0C 0 f (m != 0) fun n t _ =>
    let waits := fun (a : Access) => (bitAt m 3 && a.kind == 0) || (bitAt m 2 && (a.kind == 2 || a.kind == 3 || (a.kind == 1 && !a.x)))
    if s.node.spokes.accesses.any fun p => p.2.thr == n && waits p.2 then .stall
    else .done (s.node.setThread n t.step)

/-- 06 R193: the oldest posted fault of a job that no fence has reported: its ledger index. -/
def Node.reportPosted (s : Node) (job : Nat) : Nat × Node :=
  match s.job job with
  | some j => match j.unreported with
    | i :: rest =>
      let s := s.setJob job { j with seen := j.seen + 1, unreported := rest }
      (i * 2 ^ 32 + 0x0604, { s with fabric := { s.fabric with ledgerFresh := s.fabric.ledgerFresh.filter (· != i % 4096) } })
    | [] => (0, s)
  | none => (0, s)

/-- FENCE.REMOTE (06 R193). -/
def execFenceRemote (th : Thr) (f : F1) (s : State) : Result :=
  s.f1 th 0x0C 1 f true fun n t _ =>
    match t.job with
    | none => .fault 0x0166 0
    | some j =>
      if s.node.pendingReg n (sDst f.rd.toNat) || !s.node.globalsDone n then .stall
      else
        let r := s.node.reportPosted j
        .done (r.2.setThread n { (t.setS f.rd.toNat (BitVec.ofNat 64 r.1)).step with lstat := r.1 % 65536 })

/-! ## System (OP 0x0D) -/

def execNop (th : Thr) (f : F1) (s : State) : Result := s.f1 th 0x0D 0 f true fun n t _ => .done (s.node.setThread n t.step)

/-- YIELD: the thread's next issue slot is a matter of timing (00; notes/assumptions/14.md). -/
def execYield (th : Thr) (f : F1) (s : State) : Result := s.f1 th 0x0D 2 f true fun n t _ => .done (s.node.setThread n t.step)

/-- 06 R164, R167: a thread that has ended; with the last of its gang, the gang ends. A query's gang holds its threads until
stage 8 ends (03 R73), and its slot references (05 R152). A context of an item stays until the item's own command ends it. -/
def Node.endOfThread (s : Node) (n : Nat) (t : Thread) (x : Ctx) : Node :=
  let rest := x.threads.filter (· != n)
  let s := (s.releaseThread n).setCtx t.ctx { x with threads := rest, held := if x.query.isSome then x.held ++ [(n, t.lsize)] else x.held }
  if rest.isEmpty && x.query.isNone then (if x.adm.isNone then s.dropCtx t.ctx else s.endGang t.ctx) else s

/-- END (06 R183): once no access of the thread is outstanding. -/
def execEndThread (th : Thr) (f : F1) (s : State) : Result :=
  s.f1 th 0x0D 1 f true fun n t x =>
    if s.node.spokes.accesses.any fun p => p.2.thr == n then .stall else .done (s.node.endOfThread n t x)

end Sys2Proof.Machine
end

