-- ==== Sys2Proof/Machine/LoadStore.lean ====
section
/-! DEFINITION. Thilen's loads, stores and atomics (06 R177-R185, R189-R191), and how an access is served on this node. -/

namespace Sys2Proof.Machine

/-! ## Addresses and checks -/

/-- 06 R188: `RA` + (`RB` << shift) + `DISP`. -/
def Thread.addrF3 (t : Thread) (f : F3) : W64 :=
  t.getS f.ra.toNat + (t.getS f.rb.toNat <<< (if f.sc == 1 then 3 else if f.sc == 2 then 6 else 0)) + f.disp.signExtend 64

/-- 06 R187: the faults of an address, in their order: 0 for none. `posted` is a store with `X`. -/
def Thread.addrCode (t : Thread) (sp posted : Bool) (a n : Nat) : Nat :=
  if sp && bitAt a 63 && t.job.isNone then 0x0166
  else if (sp && !bitAt a 63 && fld a 48 15 != 0) || (posted && !(sp && bitAt a 63)) then 0x0163
  else if a % n != 0 then 0x0162
  else if !sp && decide (t.localSize < a + n) then 0x0164
  else 0

/-- 06 R177: the limits on outstanding accesses leave room for one more. -/
def Node.accessRoom (s : Node) (n addr : Nat) : Bool :=
  let spoke := s.spokes.accesses.filter fun p => p.2.begun && p.2.thr < 2 * orphan && p.2.thr % orphan / 4 == n / 4
  decide ((spoke.filter fun p => p.2.thr == n).length < 16) && decide (spoke.length < 32)
  && (!bitAt addr 63 || decide ((spoke.filter fun p => bitAt p.2.addr 63).length < 8))

/-- 06 R182: the accesses of a thread that a new one follows. -/
def Node.accessAfter (s : Node) (n addr size : Nat) (release : Bool) : List Nat :=
  (s.spokes.accesses.filter fun p => p.2.thr == n
    && (release || p.2.acquire || decide (p.2.addr < addr + size ∧ addr < p.2.addr + p.2.size))).map (·.1)

/-- An access that another node serves is sent when nothing goes before it. -/
def Node.goAccess (s : Node) (id : Nat) (a : Access) : Node :=
  if a.begun && (s.remoteOf a).isSome && s.accReady a then s.sendAccess id else s

/-- A unified access begins. -/
def Node.beginAccess (s : Node) (a : Access) : Node :=
  let f := s.fresh
  ({ f.2 with spokes := { f.2.spokes with accesses := KList.put f.2.spokes.accesses f.1 a } }).goAccess f.1 a

/-- 06 R177: an access that a limit held back begins where there is room. -/
def Node.tryBegin (s : Node) (id : Nat) (a : Access) : Node :=
  if s.accessRoom a.thr a.addr then
    let a := { a with begun := true }
    ({ s with spokes := { s.spokes with accesses := KList.put s.spokes.accesses id a } }).goAccess id a
  else s

/-- The access of an F3 instruction. -/
def Node.accessF3 (s : Node) (n : Nat) (t : Thread) (x : Ctx) (f : F3) (word : W64) (kind fn addr size : Nat) (dst : Dst) (data : Bytes)
    (cmp mask : Nat) : Access :=
  { thr := n, owner := x.owner, job := t.job, kind := kind, fn := fn, addr := addr, size := size, dst := dst, data := data, cmp := cmp,
    mask := mask, x := f.x == 1, acquire := kind != 1 && (f.ord == 1 || f.ord == 3),
    after := s.accessAfter n addr size (kind != 0 && (f.ord == 2 || f.ord == 3)), tag := none, pc := t.pc, word := word.toNat,
    issued := s.clk, begun := true, hold := false }

/-- What F3 instructions share: legality, outstanding registers, consumed poison, the address. -/
def State.f3 (s : State) (th : Thr) (op fn : Nat) (f : F3) (legal : Bool) (regs consumed : List Dst) (posted : Bool) (size : Nat)
    (addr : Thread → W64) (g : Nat → Thread → Ctx → Nat → Eff) : Result :=
  s.issue th (encF3 op fn f) fun n t x =>
    let a := (addr t).toNat
    if !legal then .fault 0x0160 a
    else if regs.any (s.node.pendingReg n) then .stall
    else if consumed.any t.poisoned then .fault 0x0530 a
    else match t.addrCode (f.sp == 1) posted a size with
      | 0 => g n t x a
      | c => .fault c a

/-! ## Loads (OP 0x40) -/

/-- A load of Table 6.10. -/
def State.load (s : State) (th : Thr) (fn : Nat) (f : F3) (size : Nat) (vec : Bool) : Result :=
  let dst : Dst := if vec then .v f.rd.toNat else sDst f.rd.toNat
  let ads : List Dst := [.s f.ra.toNat, .s f.rb.toNat]
  s.f3 th 0x40 fn f (f.sc != 3 && (if vec then decide (f.rd.toNat < 32) else f.k == 0)) (dst :: ads) ads false size
    (fun t => t.addrF3 f) fun n t x a =>
      let mask := t.getK f.k.toNat
      if f.sp == 0 then .done (s.node.setThread n (t.setDst dst fn mask false (t.localRead a size)).step)
      else if !s.node.accessRoom n a then .stall
      else .done ((s.node.setThread n t.step).beginAccess
        (s.node.accessF3 n t x f (encF3 0x40 fn f) 0 fn a size dst [] 0 mask))

def execLdB (th : Thr) (f : F3) (s : State) : Result := s.load th 0 f 1 false
def execLdBu (th : Thr) (f : F3) (s : State) : Result := s.load th 1 f 1 false
def execLdH (th : Thr) (f : F3) (s : State) : Result := s.load th 2 f 2 false
def execLdHu (th : Thr) (f : F3) (s : State) : Result := s.load th 3 f 2 false
def execLdW (th : Thr) (f : F3) (s : State) : Result := s.load th 4 f 4 false
def execLdWu (th : Thr) (f : F3) (s : State) : Result := s.load th 5 f 4 false
def execLdD (th : Thr) (f : F3) (s : State) : Result := s.load th 6 f 8 false
/-- LD.V (06 R190). -/
def execLdV (th : Thr) (f : F3) (s : State) : Result := s.load th 7 f 64 true

/-! ## Stores (OP 0x41) -/

/-- The bytes of local memory that a mask lets a store write. -/
def Thread.localStore (t : Thread) (a : Nat) (data : Bytes) (mask : Nat) : Thread :=
  t.localWrite a ((List.range data.length).map fun i => if bitAt mask i then data.getD i 0 else (t.localRead (a + i) 1).headD 0)

/-- A store of Table 6.10. -/
def State.store (s : State) (th : Thr) (fn : Nat) (f : F3) (size : Nat) (vec : Bool) : Result :=
  let src : Dst := if vec then .v f.rd.toNat else .s f.rd.toNat
  let ads : List Dst := [src, .s f.ra.toNat, .s f.rb.toNat]
  s.f3 th 0x41 fn f (f.sc != 3 && (if vec then decide (f.rd.toNat < 32) else f.k == 0)) ads ads (f.x == 1) size
    (fun t => t.addrF3 f) fun n t x a =>
      let data := if vec then natLe 64 (t.getV f.rd.toNat) else natLe size (t.getS f.rd.toNat).toNat
      let mask := if vec then t.getK f.k.toNat else allBytes size
      if f.sp == 0 then .done (s.node.setThread n (t.localStore a data mask).step)
      else if !s.node.accessRoom n a then .stall
      else .done ((s.node.setThread n t.step).beginAccess
        (s.node.accessF3 n t x f (encF3 0x41 fn f) 1 fn a size .none data 0 mask))

def execStB (th : Thr) (f : F3) (s : State) : Result := s.store th 0 f 1 false
def execStH (th : Thr) (f : F3) (s : State) : Result := s.store th 1 f 2 false
def execStW (th : Thr) (f : F3) (s : State) : Result := s.store th 2 f 4 false
def execStD (th : Thr) (f : F3) (s : State) : Result := s.store th 3 f 8 false
/-- ST.V (06 R190). -/
def execStV (th : Thr) (f : F3) (s : State) : Result := s.store th 4 f 64 true

/-! ## AMO (OP 0x42, 06 R191) -/

/-- `RB` names the operand; CAS compares rd with the old value. -/
def execAmo (th : Thr) (fn : BitVec 5) (f : F3) (s : State) : Result :=
  let k := fn.toNat
  let size := amoWidth k
  let cas := k % 16 == 9
  let dst := sDst f.rd.toNat
  let used : List Dst := (if cas then [.s f.rd.toNat] else []) ++ [.s f.ra.toNat, .s f.rb.toNat]
  s.f3 th 0x42 k f (f.sc == 0 && amoOk k) (dst :: used) used false size
    (fun t => t.getS f.ra.toNat + f.disp.signExtend 64) fun n t x a =>
      let b := (t.getS f.rb.toNat).toNat
      let c := (t.getS f.rd.toNat).toNat
      if f.sp == 0 then
        let old := leNat (t.localRead a size)
        .done (s.node.setThread n ((t.localWrite a (natLe size (amoNew k old b c))).setS f.rd.toNat (amoResult k old)).step)
      else if !s.node.accessRoom n a then .stall
      else .done ((s.node.setThread n t.step).beginAccess
        (s.node.accessF3 n t x f (encF3 0x42 k f) 2 k a size dst (natLe 8 b) c (allBytes size)))

/-! ## Service on this node -/

/-- 06 R185, 09 R290-R292: a failure that a tier can give: a code of classes 0x05 to 0x0B; `TIER_TIMEOUT` once the
context's deadline has passed, and never for a plain store. -/
def Node.tierFailure (s : Node) (a : Access) (code : Nat) : Bool :=
  let ctx := (s.thread a.thr).bind fun t => s.ctx t.ctx
  decide (0x500 ≤ code ∧ code < 0xC00)
  && (code != 0x0B01 || (a.kind != 1 && match ctx.bind (·.deadline) with
    | some d => decide (d ≤ s.now)
    | none => false))

/-- A load is served. -/
def Node.serveLoad (s : Node) (id : Nat) (a : Access) : Node :=
  match s.localOf a with
  | .error c => s.failAccess id a c
  | .ok (o, addr) => match s.memCode o addr a.size false with
    | 0 =>
      let r := (s.served o addr a.issued (tileOfThr a.thr)).readServed o addr a.size
      r.2.giveAccess id a r.1
    | c => s.failAccess id a c

/-- 12 R377: a posted store that this node serves for itself and that failed. -/
def Node.failPosted (s : Node) (id : Nat) (a : Access) (code : Nat) : Node :=
  let r : Request := { ptype := 5, dst := s.dev.node, job := a.job.getD 0, addr := a.addr % 2 ^ 48, len := a.size, issued := a.issued,
                       acc := some id, thr := a.thr, owner := a.owner, via := none }
  (s.ledger (s.ledgerBase code 0 r) 0 r).endAccess id

/-- The failure of a store or an atomic. -/
def Node.failWrite (s : Node) (id : Nat) (a : Access) (code : Nat) : Node :=
  if a.kind == 1 && a.x then s.failPosted id a code else s.failAccess id a code

/-- 09 R293: the journal lines of a store that waits for room. -/
def Node.waitForJournal (s : Node) (id owner addr : Nat) (a : Access) : Node :=
  if s.flash.waits.any fun w => w.ack == .access id then s
  else
    let l := s.storeLines owner addr a.data a.mask
    let w := (l.dropLast.map fun r => ({ rcd := r, ack := .none } : JWait)) ++ (l.getLast?.toList.map fun r => { rcd := r, ack := .access id })
    { s with flash := { s.flash with waits := s.flash.waits ++ w } }

/-- A store or an atomic is served. -/
def Node.serveStore (s : Node) (id : Nat) (a : Access) : Node :=
  match s.localOf a with
  | .error c => s.failWrite id a c
  | .ok (o, addr) => match (if a.kind == 1 then s.memCode o addr a.size true else s.amoCode o addr a.size) with
    | 0 =>
      if !s.storeRoom o addr a.size then (if a.kind == 1 then s.waitForJournal id o addr a else s)
      else if a.kind == 1 then ((s.storeAt o addr a.data a.mask).served o addr a.issued (tileOfThr a.thr)).endAccess id
      else
        let r := s.amoAt o addr a.fn (leNat a.data) a.cmp
        (r.2.served o addr a.issued (tileOfThr a.thr)).giveAccess id a (natLe (amoWidth a.fn) r.1)
    | c => s.failWrite id a c

/-- An outstanding access of a kind reaches its end at its tier, or, where another node serves it and it has not been
sent, goes there. -/
def State.endOf (s : State) (id : Nat) (kinds : List Nat) (res : TierRes) (serve : Node → Access → Node) : Result :=
  let n := s.node
  match n.acc id with
  | none => s.next n
  | some a =>
    if !kinds.contains a.kind || !n.dataUp then s.next n
    else if !a.begun then s.settled (n.tryBegin id a)
    else if !n.accReady a then s.next n
    else match res with
      | .fail c => if n.tierFailure a c && a.tag.isNone then s.settled (n.failWrite id a c) else s.next n
      | .ok =>
        if (n.remoteOf a).isSome then
          (if a.tag.isNone && !n.fabric.tagWait.contains id then s.settled (n.sendAccess id) else s.next n)
        else s.settled (serve n a)

/-- LOAD_COMPLETE (06 R185). -/
def execLoadComplete (acc : Nat) (res : TierRes) (s : State) : Result := s.endOf acc [0] res fun n a => n.serveLoad acc a

/-- STORE_COMPLETE (06 R177). -/
def execStoreComplete (acc : Nat) (res : TierRes) (s : State) : Result := s.endOf acc [1, 2] res fun n a => n.serveStore acc a

/-- CONTEXT_DEADLINE (09 R292): the tier waits of the context end with `TIER_TIMEOUT`, and the context ends with the cut. -/
def Node.deadlineCtx (s : Node) (c : Nat) : Node :=
  match s.ctx c with
  | none => s
  | some x =>
    let waits := s.spokes.accesses.filter fun p => x.threads.contains p.2.thr && p.2.kind != 1
    let s := waits.foldl (fun s _ => s.tmo x.owner) s
    s.endCtx c 0x0B01

def execContextDeadline (ctx : Nat) (s : State) : Result :=
  let n := s.node
  match (n.ctx ctx).bind (·.deadline) with
  | some d => s.settled (if d ≤ n.now && n.dataUp then n.deadlineCtx ctx else n)
  | none => s.next n

end Sys2Proof.Machine
end

