-- ==== Sys2Proof/Machine/Search.lean ====
section
/-! DEFINITION. What Thilen's search, model, table, queue and time instructions share (07 R196-R202), filters, lookup
tables and scans (07 R204-R213). -/

namespace Sys2Proof.Machine

/-! ## Issue and completion (07 R196, R199-R201) -/

/-- A fault where a code is not 0. -/
def Eff.check (c a : Nat) (k : Eff) : Eff := if c = 0 then k else .fault c a

/-- The instruction completes: its result, `SR_LSTAT`, the next PC. -/
def Node.ret (s : Node) (n : Nat) (t : Thread) (rd : Nat) (v : W64) (code : Nat) : Eff := .done (s.setThread n (t.retire rd v code))

/-- 07 R199: the instruction returns a code. -/
def Node.retCode (s : Node) (n : Nat) (t : Thread) (rd code : Nat) : Eff :=
  s.ret n t rd (if code = 0 then 0 else failWord code) code

/-- 07 R202: a failure of a tier is returned when its class is 0x05 to 0x0B, and faults otherwise. -/
def Node.tierCode (s : Node) (n : Nat) (t : Thread) (rd code addr : Nat) : Eff :=
  if 0x500 ≤ code ∧ code < 0xC00 then s.retCode n t rd code else .fault code addr

/-- 06 R176, R186: an instruction of 07 waits for its registers and consumes its operands. -/
def Node.consumes (s : Node) (n : Nat) (t : Thread) (rd : Dst) (regs : List Nat) (k : Eff) : Eff :=
  let rs : List Dst := regs.map Dst.s
  if (rd :: rs).any (s.pendingReg n) then .stall else if rs.any t.poisoned then .fault 0x0530 0 else k

/-- F1 of 07: s registers only; every operand is consumed. -/
def State.search1 (s : State) (th : Thr) (op fn : Nat) (f : F1) (legal : Bool) (regs : List Nat) (g : Nat → Thread → Ctx → Eff) : Result :=
  s.f1 th op fn f (legal && f.k == 0 && f.mz == 0) fun n t x => s.node.consumes n t (sDst f.rd.toNat) regs (g n t x)

/-- F4 of 07: `fl` holds the bits of `FL` that the instruction defines. -/
def State.f4 (s : State) (th : Thr) (op fn : Nat) (f : F4) (fl : Nat) (legal : Bool) (regs : List Nat) (g : Nat → Thread → Ctx → Eff) : Result :=
  s.issue th (encF4 op fn f) fun n t x =>
    if f.k != 0 || !legal || f.fl.toNat &&& fl != f.fl.toNat then .fault 0x0160 0 else s.node.consumes n t .none regs (g n t x)

def Thread.reg (t : Thread) (n : BitVec 6) : Nat := (t.getS n.toNat).toNat

/-- The faults of a local operand (06 R179, R172). -/
def Thread.localCode (t : Thread) (a n al : Nat) : Nat := if a % al != 0 then 0x0162 else if t.localSize < a + n then 0x0164 else 0

/-- The faults of an operand that is local or unified. -/
def Thread.operandCode (t : Thread) (isLocal : Bool) (a n al : Nat) : Nat := if isLocal then t.localCode a n al else t.addrCode true false a al

/-- 06 R182: an instruction that reads or writes a stretch of unified memory follows the outstanding accesses of its thread
that the stretch overlaps, and its acquires. -/
def Node.mustWait (s : Node) (n : Nat) (p : Nat × Nat) : Bool := p.2 != 0 && !(s.accessAfter n p.1 p.2 false).isEmpty

/-- The instruction stalls until what it follows has taken effect. -/
def Eff.await (b : Bool) (k : Eff) : Eff := if b then .stall else k

/-- 06 R178, 07 R202: bytes of unified memory, or the code of their read. What another node holds is free
(notes/assumptions/45.md). -/
def Node.uniRead (s : Node) (t : Thread) (x : Ctx) (a n : Nat) : Except Nat Bytes × Node :=
  let here := fun (o addr : Nat) => s.tierRead { x.reader with owner := o } addr n
  if n = 0 then (.ok [], s)
  else if !bitAt a 63 then here x.owner a
  else if fld a 48 15 == s.dev.node then
    match s.windowFor (t.job.getD 0) s.dev.node (a % 2 ^ 48) n 1 with
    | .ok w => here w.owner (w.lbase + (a % 2 ^ 48 - w.gbase))
    | .error c => (.error c, s)
  else
    let f := s.free
    (if f.1 % 2 = 0 then .ok (natLe n (f.1 / 2)) else .error (0x600 + f.1 / 2 % 256), f.2)

/-- Stretches of unified memory, one after another, or the code of the first that cannot be read. -/
def Node.uniReads (s : Node) (t : Thread) (x : Ctx) : List (Nat × Nat) → Except Nat (List Bytes) × Node
  | [] => (.ok [], s)
  | p :: l => match s.uniRead t x p.1 p.2 with
    | (.error c, s) => (.error c, s)
    | (.ok b, s) => match s.uniReads t x l with
      | (.ok bs, s) => (.ok (b :: bs), s)
      | e => e

/-- Bytes read from local or from unified memory. -/
def Node.operand (s : Node) (t : Thread) (x : Ctx) (isLocal : Bool) (a n : Nat) : Except Nat Bytes × Node :=
  if isLocal then (.ok (t.localRead a n), s) else s.uniRead t x a n

/-- The pieces of a stretch by 64 B line. -/
def linePieces : Nat → Nat → Bytes → List (Nat × Bytes)
  | 0, _, _ => []
  | _, _, [] => []
  | fuel + 1, a, b =>
    let n := min b.length (64 - a % 64)
    (a, b.take n) :: linePieces fuel (a + n) (b.drop n)

/-- A store of a thread that an instruction of 07 makes, and that holds the thread (07 R197). It begins where the limits of
06 R177 leave room, and waits for it otherwise. -/
def Node.writeAccess (s : Node) (n : Nat) (t : Thread) (x : Ctx) (a : Nat) (b : Bytes) : Access :=
  { thr := n, owner := x.owner, job := t.job, kind := 1, fn := 0, addr := a, size := b.length, dst := .none, data := b, cmp := 0
    mask := allBytes b.length, x := false, acquire := false, after := s.accessAfter n a b.length false, tag := none, pc := t.pc
    word := s.instrAt t.pc, issued := s.clk, begun := s.accessRoom n a, hold := true }

/-- Bytes written to unified memory, or the code of the write. Those for another node, for POOL or for FLASH leave as stores of
the thread. -/
def Node.uniWrite (s : Node) (n : Nat) (t : Thread) (x : Ctx) (a : Nat) (b : Bytes) : Except Nat Node :=
  let ps := linePieces (b.length + 1) a b
  if (if bitAt a 63 then fld a 48 15 != s.dev.node else ps.any fun p => decide (3 ≤ s.tierAt x.owner p.1)) then
    .ok (ps.foldl (fun s p => s.beginAccess (s.writeAccess n t x p.1 p.2)) s)
  else
    let place := fun (p : Nat × Bytes) => if !bitAt a 63 then Except.ok (x.owner, p.1)
      else match s.windowFor (t.job.getD 0) s.dev.node (p.1 % 2 ^ 48) p.2.length 2 with
        | .ok w => .ok (w.owner, w.lbase + (p.1 % 2 ^ 48 - w.gbase))
        | .error c => .error c
    ps.foldl (fun (r : Except Nat Node) p => match r, place p with
      | .error c, _ => .error c
      | _, .error c => .error c
      | .ok s, .ok (o, addr) => match s.memCode o addr p.2.length true with
        | 0 => .ok (s.storeAt o addr p.2 (allBytes p.2.length))
        | c => .error c) (.ok s)

/-- 07 R219: a shard key of a thread: its shard, or its code. -/
def Node.shardKey (s : Node) (x : Ctx) (v : Nat) : Except Nat Shard :=
  let tid := fld v 28 10
  if v / 2 ^ 38 != 0 || (x.owner != sysOwner && tid != 0) then .error 0x0101
  else match s.shard (shardOfKey (if x.owner == sysOwner then tid else x.owner) (v % 2 ^ 28)) with
    | some sh => .ok sh
    | none => .error 0x0120

/-- A data code that a scan or a table build meets is the status of the query on this node (02 R40, 04 Table 4.5); the
first one stays. -/
def Node.markQuery (s : Node) (c code : Nat) : Node :=
  match s.ctx c with
  | none => s
  | some x => match x.query with
    | some q => if q.status == 0 && decide (0x500 ≤ code ∧ code < 0xC00) then s.setCtx c { x with query := some { q with status := code } } else s
    | none => s

/-! ## Scan blocks (07 R205, Table 7.2) -/

structure ScanBlk where
  qoff : Nat
  loff : Nat
  foff : Nat
  scale : Nat
  bias : Nat
  dim : Nat
  m : Nat
  vf : Nat
  met : Nat
  pin : Nat
  ccount : Nat
  kout : Nat
  deriving DecidableEq, Repr

def readScanBlk (b : Bytes) : ScanBlk :=
  { qoff := getLe b 0 4, loff := getLe b 4 4, foff := getLe b 8 4, scale := getLe b 12 4, bias := getLe b 16 4, dim := getLe b 20 2,
    m := getLe b 22 2, vf := fld (getLe b 24 1) 0 4, met := fld (getLe b 24 1) 4 2, pin := getLe b 25 1, ccount := getLe b 28 4,
    kout := getLe b 32 8 }

/-- Whether a scan block keeps Table 7.2; the centroid form and its `OUT` use two fields more. -/
def scanBlkOk (b : Bytes) (centroid out : Bool) : Bool :=
  let k := readScanBlk b
  decide (k.qoff % 64 = 0) && decide (k.loff % 64 = 0) && getLe b 24 1 < 64 && decide (k.vf ≤ 6) && ((k.met == 3) == (k.vf == 6))
  && decide (8 ≤ k.dim ∧ k.dim ≤ 4096) && decide (k.dim % 8 = 0) && (k.vf != 6 || decide (k.dim % 64 = 0))
  && (k.m == 0 || (decide (8 ≤ k.m ∧ k.m ≤ 256) && decide (k.dim % k.m = 0)))
  && fld k.pin 4 3 == 0 && zeros b 26 2 && zeros b 40 24 && (centroid || k.ccount == 0) && ((centroid && out) || k.kout == 0)

/-! ## FILT.LD (07 R206, R207) -/

/-- The filter state's bytes. -/
def filterImage (np nt : Nat) (blk terms : Bytes) : Bytes :=
  let nb := maxN ((List.range np).map fun i => let p := readPred (slice blk (32 * i) 32); if p.pop == 4 then p.bloom + 1 else 0)
  let named := fun (j : Nat) => (List.range np).any fun i => let p := readPred (slice blk (32 * i) 32); p.pop == 4 && p.bloom == j
  slice blk 0 (32 * np) ++ List.replicate (512 - 32 * np) 0 ++ slice terms 0 32 ++ natLe 1 np ++ natLe 1 nt ++ List.replicate 30 0
  ++ (List.range nb).flatMap fun j => if named j then slice blk (512 + 1024 * j) 1024 else List.replicate 1024 0

/-- The bytes of a filter block that its predicates need. -/
def filterBytes (np : Nat) (preds : Bytes) : Nat :=
  let nb := maxN ((List.range np).map fun i => let p := readPred (slice preds (32 * i) 32); if p.pop == 4 then p.bloom + 1 else 0)
  if nb = 0 then 32 * np else 512 + 1024 * nb

/-- 03 R89: whether predicates on the attribute block are allowed: every shard of the query has `ABLK`; outside a query no
shard is named, and they are (notes/assumptions/46.md). -/
def Node.blocksFor (s : Node) (x : Ctx) : Bool :=
  match x.query with
  | some q => q.shards.all fun id => ((s.shard id).map (·.params.ablk)).getD false
  | none => true

/-- FILT.LD (07 R207). -/
def execFiltLd (th : Thr) (f : F4) (s : State) : Result :=
  s.f4 th 0x5A 0 f 1 true [f.ra.toNat, f.rb.toNat, f.rc.toNat] fun n t x =>
    let a := t.reg f.ra
    let isLocal := bitAt f.fl.toNat 0
    let np := t.reg f.rc % 32
    let nt := fld (t.reg f.rc) 8 4
    let dst := f.imm.toNat
    .check (t.operandCode isLocal a (32 * np) (if isLocal then 1 else 64)) a <|
    .check (t.localCode (t.reg f.rb) 32 4) (t.reg f.rb) <|
    if 16 < np then .fault 0x0132 0
    else .await (!isLocal && s.node.mustWait n (a, 32 * np)) <| match s.node.operand t x isLocal a (32 * np) with
      | (.error c, m) => m.tierCode n t 0 c a
      | (.ok preds, m) =>
        if !((List.range np).all fun i => predOk (s.node.blocksFor x) (slice preds (32 * i) 32)) then .fault 0x0132 a
        else
          let terms := t.localRead (t.reg f.rb) 32
          if !termsOk np nt terms then .fault 0x0133 a
          else .await (!isLocal && s.node.mustWait n (a, filterBytes np preds)) <| match m.operand t x isLocal a (filterBytes np preds) with
            | (.error c, m) => m.tierCode n t 0 c a
            | (.ok blk, m) =>
              let img := filterImage np nt blk terms
              .check (if isLocal then t.localCode a (filterBytes np preds) 1 else 0) a <|
              .check (t.localCode dst img.length 1) dst <|
                m.ret n { t.localWrite dst img with filterAt := some dst } 0 0 0

/-- The filter state at an offset. -/
def Thread.filter (t : Thread) (off : Nat) : Filter :=
  let b := t.localRead off (t.filterSize off)
  { preds := (List.range (getLe b 544 1)).map fun i =>
      let p := readPred (slice b (32 * i) 32)
      (p, if p.pop == 4 then slice b (576 + 1024 * p.bloom) 1024 else [])
    terms := (List.range (getLe b 545 1)).map fun i => (getLe b (512 + 4 * i) 2, getLe b (514 + 4 * i) 2) }

/-! ## LUT.BUILD (07 R208, 03 R80) -/

/-- A vector's elements in binary32 (03 R79). -/
def elems32 (vf : Nat) (b : Bytes) : List Nat := if isFloatVf vf then floatElems vf b else (intElems vf b).map (fOfInt .f32)

/-- NaN of a lookup table, its payload free. -/
def lutNan (q which : Nat) : Nat := nanOf .f32 (Config.nanBits 30 q which)

def execLutBuild (th : Thr) (f : F4) (s : State) : Result :=
  s.f4 th 0x58 0 f 1 true [f.ra.toNat] fun n t x =>
    let a := t.reg f.ra
    let sb := f.imm.toNat
    let nc := if bitAt f.fl.toNat 0 then 256 else 16
    .check (t.addrCode true false a 4) a <|
    .check (t.localCode sb 64 64) sb <|
      let raw := t.localRead sb 64
      let k := readScanBlk raw
      if !scanBlkOk raw false false || k.m == 0 then .fault 0x0170 sb
      else
        let rows := if nc = 256 then min k.m 128 else k.m
        .check (t.localCode k.qoff (exactSize k.vf k.dim) 64) k.qoff <|
        .check (t.localCode k.loff (rows * nc) 64) k.loff <|
          .await (s.node.mustWait n (a, 4 * k.dim * nc)) <| match s.node.uniRead t x a (4 * k.dim * nc) with
          | (.error c, m) => (m.markQuery t.ctx c).tierCode n t 0 c a
          | (.ok cb, m) =>
            let q := t.localRead k.qoff (exactSize k.vf k.dim)
            let lut := lutBuild k.met k.m (k.dim / k.m) nc ((elems32 k.vf q).take k.dim)
              ((List.range (nc * k.dim)).map fun i => getLe cb (4 * i) 4)
            let bytes := fun (l : List (List Nat)) => l.flatMap fun r => r.map fun e => (BitVec.ofNat 8 e : Byte)
            let sc := if lut.valid then lut.scale else lutNan (leNat q) 0
            let bi := if lut.valid then lut.bias else lutNan (leNat q) 1
            let t := (t.localWrite k.loff (bytes (lut.e.take rows))).localWrite (sb + 12) (natLe 4 sc ++ natLe 4 bi)
            m.ret n (if rows < k.m then { t with lutHigh := bytes (lut.e.drop rows) } else t) 0 0 0

/-- The table at `LOFF`, with its part in the tile buffer. -/
def Thread.lut (t : Thread) (k : ScanBlk) (nc : Nat) : Lut :=
  let rows := if nc = 256 then min k.m 128 else k.m
  let b := t.localRead k.loff (rows * nc) ++ t.lutHigh
  { valid := true, bias := k.bias, scale := k.scale, e := (List.range k.m).map fun i => (List.range nc).map fun c => getLe b (i * nc + c) 1 }

/-! ## Lists that threads hold -/

/-- The mark of a handle whose list the thread has freed (07 R239). -/
def freedList : Nat := 2 ^ 64

/-- The list of a thread's handle. -/
def Node.listOf (s : Node) (t : Thread) (h : Nat) : Option (Nat × HubList) :=
  (KList.find? t.h h).bind fun l => (KList.find? s.sel.lists l).map fun x => (l, x)

def Node.setList (s : Node) (l : Nat) (x : HubList) : Node := { s with sel := { s.sel with lists := KList.put s.sel.lists l x } }

/-- 04 R111: a list after candidates were offered to it. The spoke-cycles that stalled on the way count; how many is timing, and
free (notes/assumptions/14.md). -/
def Node.offered (s : Node) (l : Nat) (x : HubList) : Node :=
  let f := (s.setList l x).free
  { f.2 with sel := { f.2.sel with bp := f.2.sel.bp + f.1 } }

/-! ## Scans (07 R209-R213; 03 R93-R95) -/

/-- What a scan gathers. -/
structure Gather where
  list : TopList
  scanned : Nat
  filtered : Nat
  tombs : Nat
  nan : Nat

/-- A slot or side entry that is counted: tombstoned, filtered, or a candidate. -/
def Gather.slot (g : Gather) (tomb pass : Bool) (e : Entry) : Gather :=
  if tomb then { g with scanned := g.scanned + 1, tombs := g.tombs + 1 }
  else if !pass then { g with scanned := g.scanned + 1, filtered := g.filtered + 1 }
  else { g with scanned := g.scanned + 1, list := g.list.candidate e, nan := g.nan + (if e.key == nanKey then 1 else 0) }

/-- The blocks or groups that a scan takes: from `b`, `n` of them, by the stride, below the limit. -/
def strided (b n stride limit : Nat) : List Nat := ((List.range n).map fun j => b + j * stride).takeWhile fun i => decide (i < limit)

/-- Blocks one after another; a block that cannot be read ends the scan with its code. -/
def gatherAll (step : Node → Gather → Nat → Except Nat Gather × Node) : List Nat → Node → Gather → (Nat × Gather) × Node
  | [], s, g => ((0, g), s)
  | b :: t, s, g => match step s g b with
    | (.ok g, s) => gatherAll step t s g
    | (.error c, s) => ((c, g), s)

/-- What the scan forms share: who reads, the scan block, the filter, the query vector, the pinned generation. -/
structure ScanArgs where
  src : Reader
  blk : ScanBlk
  filter : Filter
  q : Bytes
  gen : Nat

def Node.scanArgs (t : Thread) (x : Ctx) (k : ScanBlk) (gen : Nat) : ScanArgs :=
  { src := x.reader, blk := k, filter := if k.foff = 0xFFFFFFFF then { preds := [], terms := [] } else t.filter k.foff
    q := t.localRead k.qoff (exactSize k.vf k.dim), gen := gen }

/-- Whether a predicate reads the attribute block (03 R97). -/
def ScanArgs.blocks (c : ScanArgs) : Bool := c.filter.preds.any (·.1.src)

def keyEntry (dist flags gen id : Nat) : Entry := ⟨keyOf dist, flags, gen % 65536, id⟩

/-- What a scan reads of one block of 32 slots: codes, attribute words, IDs, tombstones, attribute blocks. -/
def ScanArgs.segParts (c : ScanArgs) (seg bm : Nat) (h : SegHead) (vfSeg b : Nat) : List (Nat × Nat) :=
  let size := blockSize vfSeg h.pqM h.dim
  [(seg + 64 + b * size, size), (seg + h.offAttr + 256 * b, 256), (seg + h.offId + 256 * b, 256), (bm + 4 * b, 4),
    (seg + h.offAblk + 1024 * b, if h.offAblk != 0 && c.blocks then 1024 else 0)]

/-- One block of 32 slots of a segment (07 R210). `dist` gives the distance of a slot of the block. -/
def Node.segBlock (c : ScanArgs) (seg bm : Nat) (h : SegHead) (vfSeg flags : Nat) (dist : Bytes → Nat → Nat) (s : Node) (g : Gather) (b : Nat) :
    Except Nat Gather × Node :=
  match s.readParts c.src (c.segParts seg bm h vfSeg b) with
  | (.error e, s) => (.error e, s)
  | (.ok ps, s) =>
    let part := fun (i : Nat) => ps.getD i []
    (.ok (((List.range 32).filter fun j => decide (32 * b + j < h.count)).foldl (fun g j =>
      let pass := c.filter.passes (getLe (part 1) (8 * j) 8) (slice (part 4) (32 * j) 32)
      g.slot (bitAt (getLe (part 3) 0 4) j) pass (keyEntry (dist (part 0) j) flags c.gen (getLe (part 2) (8 * j) 8))) g), s)

/-- A side span (07 Table 7.4). -/
structure SideSpan where
  rcd : Nat
  vec : Nat
  blk : Nat
  smap : Nat
  first : Nat
  last : Nat

def readSpan (b : Bytes) : SideSpan :=
  { rcd := getLe b 0 8, vec := getLe b 8 8, blk := getLe b 16 8, smap := getLe b 24 8, first := getLe b 32 4, last := getLe b 36 4 }

/-- 07 R202: the bytes that a side scan reads for one ordinal of an INSERT: its vector, its bitmap's byte, and its block where a
predicate has `SRC` 1 (03 R97). -/
def ScanArgs.sideParts (c : ScanArgs) (sp : SideSpan) (k : Nat) : List (Nat × Nat) :=
  let ex := exactSize c.blk.vf c.blk.dim
  [(sp.vec + ex * k, ex), (sp.smap + k / 8, 1), (sp.blk + 32 * k, if sp.blk != 0 && c.blocks then 32 else 0)]

/-- One ordinal of a side list (03 R94). -/
def Node.sideEntry (c : ScanArgs) (t : Thread) (x : Ctx) (sp : SideSpan) (s : Node) (g : Gather) (k : Nat) : Except Nat Gather × Node :=
  match s.uniRead t x (sp.rcd + 32 * k) 32 with
  | (.error e, s) => (.error e, s)
  | (.ok r, s) =>
    if getLe r 0 1 != 1 then (.ok g, s)
    else match s.uniReads t x (c.sideParts sp k) with
      | (.error e, s) => (.error e, s)
      | (.ok ps, s) =>
        let part := fun (i : Nat) => ps.getD i []
        let d := exactDist c.blk.vf c.blk.met c.blk.dim c.q (part 0)
        (.ok (g.slot (bitAt (getLe (part 1) 0 1) (k % 8)) (c.filter.passes (getLe r 24 8) (part 2)) (keyEntry d 3 c.gen (getLe r 8 8))), s)

/-- The ordinals of a group. -/
def SideSpan.ords (sp : SideSpan) (i : Nat) : List Nat :=
  ((List.range 32).map fun j => sp.first + 32 * i + j).filter fun k => decide (k < sp.last)

/-- One group of 32 ordinals of a side list (07 R211). -/
def Node.sideGroup (c : ScanArgs) (t : Thread) (x : Ctx) (sp : SideSpan) (s : Node) (g : Gather) (i : Nat) : Except Nat Gather × Node :=
  match gatherAll (fun s g k => Node.sideEntry c t x sp s g k) (sp.ords i) s g with
  | ((0, g), s) => (.ok g, s)
  | ((c, _), s) => (.error c, s)

/-- A scan ends: what it gathered is in the list, NaN keys are counted (03 R87), and its code is returned. -/
def Node.endScan (s : Node) (n : Nat) (t : Thread) (x : Ctx) (l : Option (Nat × HubList)) (r : Nat × Gather) (addr : Nat) : Eff :=
  let s := match l with
    | some (i, y) => s.offered i { y with list := r.2.list, scanned := y.scanned + r.2.scanned, filtered := y.filtered + r.2.filtered,
                                          tombstoned := y.tombstoned + r.2.tombs }
    | none => s
  let s := if x.owner < 1024 then
      { s with index := { s.index with nan := KList.put s.index.nan x.owner (KList.getD s.index.nan x.owner 0 + r.2.nan) } } else s
  if r.1 = 0 then s.ret n t 0 0 0 else (s.markQuery t.ctx r.1).tierCode n t 0 r.1 addr

def startGather (l : Option (Nat × HubList)) : Gather :=
  { list := (l.map fun p => p.2.list).getD (TopList.empty 0), scanned := 0, filtered := 0, tombs := 0, nan := 0 }

/-- 07 R209: the pin that a scan names, and its generation. -/
def scanPin (x : Ctx) (k : ScanBlk) : Option Pin := if bitAt k.pin 7 then KList.find? x.pins (k.pin % 16) else none

/-- 07 R209: what is checked before a scan reads anything: 0, or a code. -/
def Node.scanCode (s : Node) (t : Thread) (f : F4) (raw : Bytes) (form : Nat) (out : Bool) : Nat :=
  let k := readScanBlk raw
  let h := f.h.toNat
  if !scanBlkOk raw (form == 2) out || form == 3 || (out && form != 2) || !(k.foff == 0xFFFFFFFF || t.filterAt == some k.foff)
      || t.reg f.rc == 0 then 0x0170
  else if out then (if h = 0 then 0 else 0x0170)
  else if (s.listOf t h).isSome then 0
  else if KList.find? t.h h == some freedList then 0x0172 else 0x0170

/-- The segment form (07 R210). -/
def Node.scanSegment (s : Node) (n : Nat) (t : Thread) (x : Ctx) (f : F4) (k : ScanBlk) (vfSeg flags : Nat) : Eff :=
  let a := t.reg f.ra
  match scanPin x k with
  | none => .fault 0x0171 a
  | some p =>
    .check (if bitAt a 63 then 0x0163 else t.addrCode true false a 16) a <|
    .await (s.mustWait n (a, 16)) <|
    match s.tierRead x.reader a 16 with
    | (.ok el, s) =>
      let seg := getLe el 0 8
      let bm := getLe el 8 8
      .await (s.mustWait n (seg, 64)) <| match s.tierRead x.reader seg 64 with
      | (.ok _, s) =>
        match s.seg x.owner seg with
        | none => ((s.logFor 0x0520 x.owner).markQuery t.ctx 0x0520).retCode n t 0 0x0520
        | some h =>
          if h.dim != k.dim || h.pqM != k.m || fld h.fmt 4 2 != k.met || fld h.fmt 0 4 != vfSeg then .fault 0x0170 a
          else if p.gen < h.birth then .fault 0x0171 a
          else if h.offAblk == 0 && k.foff != 0xFFFFFFFF && (t.filter k.foff).preds.any (·.1.src) then .fault 0x0170 a
          else
            let c := Node.scanArgs t x k p.gen
            let nc := if vfSeg == 8 then 256 else 16
            let ex := exactSize k.vf k.dim
            let dist := if vfSeg == 7 || vfSeg == 8 then
                let lut := t.lut k nc
                fun b j => pqDist lut (blockCodes vfSeg k.m b j)
              else fun b j => exactDist k.vf k.met k.dim c.q (slice b (ex * j) ex)
            let l := s.listOf t f.h.toNat
            let bs := strided (t.reg f.rb) (t.reg f.rc) (f.fl.toNat % 64 + 1) (slotCount h.count / 32)
            .await ((bs.flatMap (c.segParts seg bm h vfSeg)).any (s.mustWait n)) <|
              let r := gatherAll (Node.segBlock c seg bm h vfSeg flags dist) bs s (startGather l)
              r.2.endScan n t x l r.1 a
      | (.error c, s) => (s.markQuery t.ctx c).tierCode n t 0 c seg
    | (.error c, s) => (s.markQuery t.ctx c).tierCode n t 0 c a

/-- The side-list form (07 R211). -/
def Node.scanSide (s : Node) (n : Nat) (t : Thread) (x : Ctx) (f : F4) (k : ScanBlk) : Eff :=
  let a := t.reg f.ra
  match scanPin x k with
  | none => .fault 0x0171 a
  | some p =>
    .check (t.localCode a 64 64) a <|
      let raw := t.localRead a 64
      let sp := readSpan raw
      let c := Node.scanArgs t x k p.gen
      if !zeros raw 40 24 || (sp.blk == 0 && c.blocks) then .fault 0x0170 a
      else
        let l := s.listOf t f.h.toNat
        let gs := strided (t.reg f.rb) (t.reg f.rc) (f.fl.toNat % 64 + 1) (ceilDiv (sp.last - sp.first) 32)
        let ps := (gs.flatMap sp.ords).flatMap fun k => (sp.rcd + 32 * k, 32) :: c.sideParts sp k
        .await (ps.any (s.mustWait n)) <|
          let r := gatherAll (Node.sideGroup c t x sp) gs s (startGather l)
          r.2.endScan n t x l r.1 a

/-- One block of centroids: their numbers and keys, or the code of the read (07 R212). -/
def Node.centroidBlock (s : Node) (t : Thread) (x : Ctx) (k : ScanBlk) (base : Nat) (q : Bytes) (b : Nat) : Except Nat (List (Nat × Nat)) × Node :=
  let ex := exactSize k.vf k.dim
  let cs := ((List.range 32).map fun j => 32 * b + j).filter fun c => decide (c < k.ccount)
  match s.uniRead t x (base + 32 * b * ex) (cs.length * ex) with
  | (.error e, m) => (.error e, m)
  | (.ok v, m) => (.ok (cs.map fun c => (c, keyOf (exactDist k.vf k.met k.dim q (slice v (ex * (c - 32 * b)) ex)))), m)

/-- The centroid form (07 R212). -/
def Node.scanCentroids (s : Node) (n : Nat) (t : Thread) (x : Ctx) (f : F4) (k : ScanBlk) (out : Bool) : Eff :=
  let a := t.reg f.ra
  let ex := exactSize k.vf k.dim
  .check (t.addrCode true false a 64) a <|
  .check (if out then t.addrCode true false k.kout 4 else 0) k.kout <|
    let q := t.localRead k.qoff (exactSize k.vf k.dim)
    let l := if out then none else s.listOf t f.h.toNat
    let bs := strided (t.reg f.rb) (t.reg f.rc) (f.fl.toNat % 64 + 1) (ceilDiv k.ccount 32)
    let ps := bs.flatMap fun b => [(a + 32 * b * ex, 32 * ex), (k.kout + 128 * b, if out then 128 else 0)]
    .await (ps.any (s.mustWait n)) <|
    let r := bs.foldl (fun (r : Nat × Gather × Node) b =>
      if r.1 != 0 then r
      else match r.2.2.centroidBlock t x k a q b with
        | (.error e, m) => (e, r.2.1, m)
        | (.ok ks, m) =>
          let nan := (ks.filter fun p => p.2 == nanKey).length
          if out then
            match m.uniWrite n t x (k.kout + 128 * b) (ks.flatMap fun p => natLe 4 p.2) with
            | .ok m => (0, { r.2.1 with nan := r.2.1.nan + nan }, m)
            | .error e => (e, r.2.1, m)
          else (0, { r.2.1 with list := ks.foldl (fun l p => l.candidate ⟨p.2, 2, 0, p.1⟩) r.2.1.list, nan := r.2.1.nan + nan }, m))
      (0, startGather l, s)
    r.2.2.endScan n t x l (r.1, r.2.1) a

/-- A scan instruction: `vfSeg` is the segment format of a PQ scan. -/
def State.scan (s : State) (th : Thr) (fn : Nat) (f : F4) (fl : Nat) (g : Node → Nat → Thread → Ctx → ScanBlk → Eff) : Result :=
  s.f4 th 0x59 fn f fl true [f.ra.toNat, f.rb.toNat, f.rc.toNat] fun n t x =>
    let sb := f.imm.toNat
    let form := fld f.fl.toNat 6 2
    .check (t.localCode sb 64 64) sb <|
      let raw := t.localRead sb 64
      let k := readScanBlk raw
      .check (if fn < 2 && form != 0 then 0x0170 else s.node.scanCode t f raw form (bitAt f.fl.toNat 8)) sb <|
      .check (t.localCode k.qoff (exactSize k.vf k.dim) 64) k.qoff <|
      .check (if fn < 2 then t.localCode k.loff (if fn = 0 then 16 * k.m else 256 * min k.m 128) 64 else 0) k.loff <|
        g s.node n t x k

def execScanPq4 (th : Thr) (f : F4) (s : State) : Result := s.scan th 0 f 0xFF fun m n t x k => m.scanSegment n t x f k 7 0
def execScanPq8 (th : Thr) (f : F4) (s : State) : Result := s.scan th 1 f 0xFF fun m n t x k => m.scanSegment n t x f k 8 0

/-- SCAN.EX: a segment, a side list, or the centroid table. -/
def execScanEx (th : Thr) (f : F4) (s : State) : Result :=
  s.scan th 2 f 0x1FF fun m n t x k =>
    match fld f.fl.toNat 6 2 with
    | 0 => m.scanSegment n t x f k k.vf 2
    | 1 => m.scanSide n t x f k
    | _ => m.scanCentroids n t x f k (bitAt f.fl.toNat 8)

end Sys2Proof.Machine
end

