-- ==== Sys2Proof/Machine/Shift.lean ====
section
/-! DEFINITION. A cassette's array: what staging loads, and a shift (05 R139, R155). -/

namespace Sys2Proof.Machine

def Node.setTile (s : Node) (t : Nat) (c : Cassette) : Node := { s with cas := { s.cas with tiles := KList.put s.cas.tiles t c } }

/-- The window of the rotation, in ns (05 R161). -/
def Node.casSpan (s : Node) : Nat := 1000 * s.cas.fsWin

/-- 05 R155: what staging loads of a copy. -/
def ModelCopy.side (k : ModelCopy) (slot : Nat) : ArraySide :=
  let m := readModel k.image
  let tile := fun (l : Layer) => match densePair l.xFmt l.wFmt with
    | some (o, n, _) => (List.range (min l.o o)).flatMap fun r =>
        slice k.payload (l.wOff + r * round64 (cfBytes l.wFmt l.n)) (cfBytes l.wFmt (min l.n n))
    | none => []
  { slot := slot, records := k.image.drop 64
    scales := ((m.layers.head?).map fun l => slice k.payload l.sOff l.sBytes).getD []
    weights := ((m.layers.find? fun l => l.lkind == 1).map tile).getD []
    tables := (m.layers.filter fun l => l.tBytes != 0).map fun l => slice k.payload l.tOff tableBytes }

/-- A cassette shifts to a slot: its layer-0 scale entries are loaded with it (05 R139, R155). -/
def Cassette.shiftTo (c : Cassette) (i : Nat) : Cassette :=
  if (c.active.map (·.slot)) == some i then c
  else
    let side := match c.staged.filter (fun a => a.slot == i), KList.find? c.copies i with
      | some a, _ => some a
      | none, some k => some (k.side i)
      | none, none => none
    { c with active := side, staged := c.staged.filter fun a => a.slot != i, shifts := c.shifts + 1
             scales := putBytes c.scales 0 ((side.map (·.scales)).getD []) }

def Cassette.shiftCycles (c : Cassette) (i : Nat) : Nat :=
  if (c.active.map (·.slot)) == some i then 0 else if (c.staged.map (·.slot)) == some i then 8 else 880

end Sys2Proof.Machine
end

