-- ==== Sys2Proof/Machine/Merge.lean ====
section
/-! DEFINITION. Top-k lists, ARGMAX and FREE (04 R105-R112, R128-R130; 07 R214-R218, R239), the node merger, and merge
sessions (04 R113, R119-R124). -/

namespace Sys2Proof.Machine

/-! ## Blocks (04 R107, R108) -/

/-- 04 R107: the blocks that a list of a capacity takes of each unit, where they are free as the rule needs. -/
def placeBlocks (free : List Nat) (cap : Nat) : Option (List Nat) :=
  let n := ceilDiv cap 64
  if n ≤ 16 then
    match (List.range 4).find? fun u => decide (n ≤ free.getD u 0) with
    | some u => some ((List.range 4).map fun i => if i = u then n else 0)
    | none => none
  else
    let whole := ((List.range 4).filter fun u => free.getD u 0 == 16).take (n / 16)
    let rest := n % 16
    if whole.length < n / 16 then none
    else if rest = 0 then some ((List.range 4).map fun i => if whole.contains i then 16 else 0)
    else match (List.range 4).find? fun u => !whole.contains u && decide (rest ≤ free.getD u 0) with
      | some u => some ((List.range 4).map fun i => if whole.contains i then 16 else if i = u then rest else 0)
      | none => none

def Node.hubWaits (s : Node) (hub : Nat) : List BlockWait := KList.getD s.sel.waits hub []

def Node.setHubWaits (s : Node) (hub : Nat) (l : List BlockWait) : Node := { s with sel := { s.sel with waits := KList.put s.sel.waits hub l } }

/-- 07 R214: the gang's list for a handle, while its emission has not begun. -/
def Node.gangList (s : Node) (x : Ctx) (h : Nat) : Option (Nat × HubList) :=
  match KList.find? x.lists h with
  | some l => match KList.find? s.sel.lists l with
    | some y => if y.emitted.isEmpty then some (l, y) else none
    | none => none
  | none => none

/-- A list allocated for a gang, with the thread attached. -/
def Node.newList (s : Node) (n : Nat) (t : Thread) (x : Ctx) (h cap : Nat) (blocks : List Nat) : Node :=
  let f := s.fresh
  let y : HubList := { ctx := t.ctx, handle := h, hub := x.hub, blocks := blocks, list := TopList.empty cap, scanned := 0, filtered := 0,
                       tombstoned := 0, attached := [n], emitted := [] }
  (f.2.setList f.1 y).setCtx t.ctx { x with lists := KList.put x.lists h f.1 }

/-- 07 R214: TOPK.INIT attaches, allocates, or waits (none). -/
def Node.initList (s : Node) (n : Nat) (t : Thread) (x : Ctx) (h cap : Nat) : Option (Nat × Nat × Node) :=
  match s.gangList x h with
  | some (l, y) => if y.list.cap != cap then some (0x0172, 0, s) else some (0, l, s.setList l { y with attached := y.attached ++ [n] })
  | none => (placeBlocks (s.freeBlocks x.hub) cap).map fun b => (0, s.nextId, s.newList n t x h cap b)

/-- 04 R108, R130: a thread joins the wait for blocks of its hub. An ARGMAX that waits counts too (notes/assumptions/94.md). -/
def Node.waitBlocks (s : Node) (hub : Nat) (w : BlockWait) (n : Nat) (t : Thread) (why : Wait) : Node :=
  let m : Node := { s with sel := { s.sel with blkWait := s.sel.blkWait + 1 } }
  (m.setHubWaits hub (m.hubWaits hub ++ [w])).setThread n { t with wait := some why, waitRd := 0 }

def execTopkInit (th : Thr) (f : F4) (s : State) : Result :=
  s.f4 th 0x5C 0 f 0 true [f.ra.toNat] fun n t x =>
    let cap := t.reg f.ra
    let h := f.h.toNat
    let m := s.node
    if cap < 1 || 4096 < cap || (m.listOf t h).isSome then .fault 0x0172 0
    else
      let wait := fun (_ : Unit) =>
        Eff.done (m.waitBlocks x.hub { thr := n, handle := h, cap := cap } n t (.topk cap))
      if (m.gangList x h).isNone && !(m.hubWaits x.hub).isEmpty then wait ()
      else match m.initList n t x h cap with
        | some (0, l, m) => m.ret n { t with h := KList.put t.h h l } 0 0 0
        | some (c, _, _) => .fault c 0
        | none => wait ()

/-- 04 R108, R130: the oldest wait of a hub is served: a list, or a whole unit for ARGMAX. -/
def execTopkBlockGrant (hub : Fin 32) (s : State) : Result :=
  let m := s.node
  match m.hubWaits hub.val with
  | [] => s.next m
  | w :: rest =>
    match m.thread w.thr with
    | none => s.next (m.setHubWaits hub.val rest)
    | some t => match m.ctx t.ctx with
      | none => s.next (m.setHubWaits hub.val rest)
      | some x =>
        if t.wait == some .argmax then
          match (List.range 4).find? fun u => (m.freeBlocks hub.val).getD u 0 == 16 with
          | some u =>
            let m := { m with sel := { m.sel with argmax := KList.put m.sel.argmax w.thr (hub.val, u) } }
            s.next ((m.setHubWaits hub.val rest).setThread w.thr { t with wait := none })
          | none => s.next m
        else match m.initList w.thr t x w.handle w.cap with
          | some (0, l, m) => s.next ((m.setHubWaits hub.val rest).setThread w.thr ({ t with h := KList.put t.h w.handle l }.retire 0 0 0))
          | some (c, _, _) => s.settled ((m.setHubWaits hub.val rest).threadFault w.thr t.pc c (m.instrAt t.pc) 0)
          | none => s.next m

/-! ## Candidates (07 R215, R216) -/

/-- 07 R215: what may not be pushed. -/
def pushOk (key flags : Nat) : Bool := key != padKey && decide (flags < 8)

def execTopkPush (th : Thr) (f : F4) (s : State) : Result :=
  s.f4 th 0x5C 1 f 0 true [f.ra.toNat, f.rb.toNat] fun n t _ =>
    let a := t.reg f.ra
    match s.node.listOf t f.h.toNat with
    | some (l, y) =>
      if pushOk (fld a 0 32) (fld a 32 16) then
        (s.node.offered l { y with list := y.list.candidate ⟨fld a 0 32, fld a 32 16, fld a 48 16, t.reg f.rb⟩ }).ret n t 0 0 0
      else .fault 0x0172 0
    | none => .fault 0x0172 0

/-- Entries of 16 bytes (04 Table 4.6). -/
def readEntries (n : Nat) (b : Bytes) : List Entry :=
  (List.range n).map fun i => ⟨getLe b (16 * i) 4, getLe b (16 * i + 4) 2, getLe b (16 * i + 6) 2, getLe b (16 * i + 8) 8⟩

/-- TOPK.MERGE (07 R216). What it offers is withheld as a pushed candidate is (04 R110; notes/assumptions/94.md). -/
def execTopkMerge (th : Thr) (f : F4) (s : State) : Result :=
  s.f4 th 0x5C 2 f 1 true [f.ra.toNat, f.rb.toNat, f.rc.toNat] fun n t x =>
    let a := t.reg f.ra
    let cnt := t.reg f.rb
    let isLocal := bitAt f.fl.toNat 0
    .check (t.operandCode isLocal a (16 * min cnt 4097) 16) a <|
    if 4096 < cnt then .fault 0x0172 a
    else match s.node.listOf t f.h.toNat with
      | none => .fault 0x0172 a
      | some (l, y) => .await (!isLocal && s.node.mustWait n (a, 16 * cnt)) <| match s.node.operand t x isLocal a (16 * cnt) with
        | (.error c, m) => m.tierCode n t 0 c a
        | (.ok b, m) =>
          let es := (readEntries cnt b).filter fun e => e.key != padKey
          let lst := es.foldl TopList.candidate y.list
          (m.offered l { y with list := { lst with drop := min lst.drop (t.reg f.rc % 2 ^ 32) } }).ret n t 0 0 0

/-! ## Emission (07 R217, 04 R112) -/

/-- The list header and the entries in memory. -/
def listImage (y : HubList) : Bytes :=
  natLe 4 y.list.entries.length ++ natLe 4 y.list.drop ++ natLe 8 y.scanned ++ natLe 8 y.filtered ++ natLe 8 y.tombstoned
  ++ y.list.entries.flatMap entryBytes

/-- 04 R112: the tile merger takes a list for the query. -/
def Node.toTile (s : Node) (c : Nat) (y : HubList) : Node :=
  match s.ctx c with
  | none => s
  | some x => match x.query with
    | none => s
    | some q =>
      let old := q.tile.getD (emptyPartial (qCap0 q.desc))
      let p : Partial := { list := mergeLists (qCap0 q.desc) [(old.list.entries, old.list.drop), (y.list.entries, y.list.drop)]
                           scanned := old.scanned + y.scanned, filtered := old.filtered + y.filtered
                           tombstoned := old.tombstoned + y.tombstoned }
      s.setCtx c { x with query := some { q with tile := some p } }

/-- One member's TOPK.EMIT ends. -/
def Node.emitFor (s : Node) (y : HubList) (n : Nat) (t : Thread) (toMemory isLocal : Bool) (addr : Nat) : Node :=
  let t := { t with h := KList.del t.h y.handle }
  if !toMemory then s.setThread n (t.retire 0 0 0)
  else
    let img := listImage y
    if isLocal then
      (if t.localSize < addr + img.length then s.threadFault n t.pc 0x0164 (s.instrAt t.pc) addr else s.setThread n ((t.localWrite addr img).retire 0 0 0))
    else match s.ctx t.ctx with
      | none => s
      | some x => match s.uniWrite n t x addr img with
        | .ok s => s.setThread n (t.retire 0 0 0)
        | .error c => if 0x500 ≤ c ∧ c < 0xC00 then s.setThread n (t.retire 0 0 c) else s.threadFault n t.pc c (s.instrAt t.pc) addr

/-- 07 R217: once every attached member has emitted or freed a list, it is delivered and its blocks are freed. -/
def Node.finishEmit (s : Node) (l : Nat) : Node :=
  match KList.find? s.sel.lists l with
  | none => s
  | some y =>
    if y.emitted.isEmpty || !(y.attached.all y.emitted.contains) then s
    else
      let ws := y.emitted.filterMap fun n => (s.thread n).bind fun t => match t.wait with
        | some (.emit m i a) => some (n, m, i, a)
        | _ => none
      let s := if ws.any fun w => !w.2.1 then s.toTile y.ctx y else s
      let s := { s with sel := { s.sel with lists := KList.del s.sel.lists l } }
      ws.foldl (fun s w => match s.thread w.1 with
        | some t => s.emitFor y w.1 t w.2.1 w.2.2.1 w.2.2.2
        | none => s) s

def execTopkEmit (th : Thr) (f : F4) (s : State) : Result :=
  let toMem := bitAt f.fl.toNat 0
  let isLocal := bitAt f.fl.toNat 1
  s.f4 th 0x5C 3 f 3 true (if toMem then [f.ra.toNat] else []) fun n t _ =>
    let a := t.reg f.ra
    .check (if toMem then t.operandCode isLocal a 32 64 else 0) a <|
    match s.node.listOf t f.h.toNat with
    | none => .fault 0x0172 a
    | some (l, y) =>
      .await (toMem && !isLocal && s.node.mustWait n (a, 32 + 16 * y.list.cap)) <|
      .done (((s.node.setList l { y with emitted := y.emitted ++ [n] }).setThread n
        { t with wait := some (.emit toMem isLocal a), waitRd := 0 }).finishEmit l)

/-! ## ARGMAX (07 R218, 04 R128-R130) -/

/-- The format of 04 for an `ET` of 07. -/
def argFmt (et : Nat) : Option (Nat × Nat) :=
  match et with
  | 10 => some (0, 4)
  | 8 => some (1, 2)
  | 9 => some (2, 2)
  | 0 => some (3, 1)
  | 4 => some (4, 4)
  | _ => none

/-- 04 R129: the winner widened to 64 bits. -/
def argWide (fmt bits : Nat) (v : Fp) : W64 :=
  match fmt with
  | 3 => BitVec.ofInt 64 (toSigned 8 bits)
  | 4 => BitVec.ofInt 64 (toSigned 32 bits)
  | _ => BitVec.ofNat 64 (v.bits .f64)

def execArgmax (th : Thr) (f : F1) (s : State) : Result :=
  s.search1 th 0x10 0 f (f.rc != f.rd && f.rc != 0) [f.ra.toNat, f.rb.toNat] fun n t x =>
    let a := t.reg f.ra
    let cnt := t.reg f.rb
    let give := fun (m : Node) (idx : Nat) (v : W64) (code : Nat) =>
      let m := { m with sel := { m.sel with argmax := KList.del m.sel.argmax n } }
      m.ret n (t.setS f.rc.toNat v) f.rd.toNat (BitVec.ofNat 64 idx) code
    if s.node.pendingReg n (.s f.rc.toNat) then .stall
    else match argFmt f.et.toNat with
      | none => give s.node 0xFFFFFFFF 0 0x0141
      | some (fmt, w) =>
        .check (t.addrCode true false a w) a <|
        if cnt = 0 || 2 ^ 24 < cnt then give s.node 0xFFFFFFFF 0 0x0140
        else
          let m := s.node
          let held := (KList.find? m.sel.argmax n).isSome
          let free := (List.range 4).any fun u => (m.freeBlocks x.hub).getD u 0 == 16
          if !held && (!free || !(m.hubWaits x.hub).isEmpty) then
            .done (m.waitBlocks x.hub { thr := n, handle := 0, cap := 1024 } n t .argmax)
          else .await (m.mustWait n (a, cnt * w)) <| match m.uniRead t x a (cnt * w) with
            | (.error c, m) => if 0x500 ≤ c ∧ c < 0xC00 then give m 0xFFFFFFFF 0 c else .fault c a
            | (.ok b, m) =>
              let el := fun i => getLe b (i * w) w
              match argBest ((List.range cnt).map fun i => (i, argValue fmt (el i))) with
              | some (i, v) => give m i (argWide fmt (el i) v) 0
              | none => give m 0xFFFFFFFF 0 5

/-! ## FREE (07 R239) -/

/-- A thread detaches from a list; a list that nobody has attached or emitted is freed. -/
def Node.detach (s : Node) (n l : Nat) (y : HubList) : Node :=
  let att := y.attached.filter (· != n)
  if att.isEmpty && y.emitted.isEmpty then { s with sel := { s.sel with lists := KList.del s.sel.lists l } }
  else (s.setList l { y with attached := att }).finishEmit l

def execFree (th : Thr) (f : F4) (s : State) : Result :=
  let kind := f.fl.toNat % 4
  s.f4 th 0x6F 0 f 3 (decide (kind < 2)) [] fun n t x =>
    if kind = 0 then
      match s.node.listOf t f.h.toNat with
      | some (l, y) =>
        let t := { t with h := KList.put t.h f.h.toNat freedList }
        .done ((s.node.setThread n (t.retire 0 0 0)).detach n l y)
      | none => .fault 0x0172 0
    else
      let slot := f.imm.toNat % 64
      if x.slotRefs.contains slot then
        let m := s.node.setCtx t.ctx { x with slotRefs := x.slotRefs.filter (· != slot) }
        (m.dropRef slot).ret n t 0 0 0
      else .fault 0x0178 0

/-! ## The node merger (04 R113; 03 R98, R99; 05 R159) -/

/-- What re-rank reads of a candidate: its vector's elements in binary32 and its attribute word, and the stretch they are read
from. -/
def Node.candidateData (s : Node) (x : Shard) (g : GenRec) (e : Entry) : Option (List Nat × Nat × Nat × Nat) :=
  let o := shOwner x.id
  let p := x.params
  let found := g.map.findSome? fun (pe : Nat × PartEntry) =>
    ((s.visibleSlots o pe.2).find? fun w => (w.1 == 0) == bitAt e.flags 0 && (s.slotData x pe.2.st w).id == e.id).map fun w =>
      (s.slotData x pe.2.st w, w.1, x.slotSpan pe.2.st w)
  found.map fun d =>
    (if p.isPq && d.2.1 != 0 then
      (List.range p.m).flatMap fun i => (List.range (p.d / max 1 p.m)).map fun j =>
        getLe x.codebook (4 * ((i * p.nc + d.1.codes.getD i 0) * (p.d / max 1 p.m) + j)) 4
    else (elems32 p.vfEx d.1.vec).take p.d, d.1.attr, d.2.2)

/-- 05 R159: the distance behind a key. -/
def distOfKey (k : Nat) : Nat := if k == nanKey then 0x7FC00000 else if bitAt k 31 then k % 2 ^ 31 else 2 ^ 32 - 1 - k

/-- 05 R158-R160: one input of the node's own run of a model on a tile: its first output, or the code that ended it. -/
def Node.ownRun (s : Node) (tile slot : Nat) (input : List Nat) : Except Nat Nat × Node :=
  let c := s.tile tile
  match KList.find? c.copies slot with
  | none => (.error 0x0A06, s)
  | some k =>
    let c := c.shiftTo slot
    let z := (readModel k.image).run k.payload input c.scales
    match z.1 with
    | some y => (.ok (y.headD 0), s.setTile tile { c with scales := z.2, runs := c.runs + 1 })
    | none => (.error 0x0A03, s.setTile tile { c with scales := z.2 })

/-- 03 R98, R99: a candidate's new key and flags, or the code that ends the query on this node. -/
def Node.rerankOne (s : Node) (rd : Reader) (x : Shard) (g : GenRec) (q : Query) (e : Entry) : Except Nat Entry × Node :=
  let p := x.params
  let d := q.desc
  if bitAt (getLe d 1 1) 2 then
    if bitAt e.flags 0 then (.ok e, s)
    else match s.tierRead rd (getLe d 40 8 + (e.id % 2 ^ 48) * p.exact) p.exact with
      | (.ok v, s) => (.ok { e with key := keyOf (exactDist p.vfEx p.met p.d q.queryVec v), flags := e.flags ||| 2 }, s)
      | (.error c, s) => (.error c, s)
  else match s.candidateData x g e with
    | none => (.ok e, s)
    | some (v, attr, span) => match s.tierRead rd span.1 span.2 with
      | (.error c, s) => (.error c, s)
      | (.ok _, s) =>
        let input := (elems32 p.vfEx q.queryVec).take p.d ++ v ++ [distOfKey e.key]
          ++ (List.range 4).map fun i => fOfInt .f32 (fld attr (16 * i) 16 : Nat)
        match s.ownRun rd.tile (getLe d 15 1 % 64) input with
        | (.ok y, s) => (.ok { e with key := keyOf y, flags := (e.flags &&& 1) ||| 4 }, s)
        | (.error c, s) => (.error c, s)

/-- The shard and the generation of a candidate: those pinned at admission for the shard that its ID names (02 R37). -/
def Node.candidateOf (s : Node) (q : Query) (e : Entry) : Option (Shard × GenRec) :=
  (q.gens.find? fun p => p.shard.shard.val == e.id / 2 ^ 48).bind fun p =>
    (s.shardOf p.inst).bind fun x => (s.genOf p.inst p.gen).map fun g => (x, g)

/-- 03 R98: a side-list candidate keeps its key under `RR_EX`. -/
def keepsKey (d : Bytes) (e : Entry) : Bool := bitAt (getLe d 1 1) 2 && bitAt e.flags 0

/-- The entries of a list with their new keys, and whether each is new, up to one that ends the re-rank; its code. -/
def Node.rerankAll (s : Node) (rd : Reader) (q : Query) : List Entry → (Nat × List (Entry × Bool)) × Node
  | [] => ((0, []), s)
  | e :: l =>
    let r := match s.candidateOf q e with
      | none => (Except.ok e, s)
      | some (x, g) => s.rerankOne rd x g q e
    match r.1 with
    | .error c => ((c, []), r.2)
    | .ok y =>
      let z := r.2.rerankAll rd q l
      ((z.1.1, (y, (s.candidateOf q e).isSome && !keepsKey q.desc e) :: z.1.2), z.2)

/-- 04 R113: the partial list of a node, the code that a re-rank ended with, and the NaN keys that re-rank gave (03 R87). A
candidate whose generation the program has given up, and that has retired, keeps its key (notes/assumptions/93.md). -/
def Node.partialOf (s : Node) (rd : Reader) (q : Query) : (Nat × Partial × Nat) × Node :=
  let d := q.desc
  let t := q.tile.getD (emptyPartial (qCap0 d))
  let t := { t with list := mergeLists (qCap0 d) [(t.list.entries, t.list.drop)] }
  if fld (getLe d 1 1) 2 2 == 0 then ((q.status, t, 0), s)
  else
    let r := s.rerankAll rd q t.list.entries
    let nan := (r.1.2.filter fun e => e.2 && e.1.key == nanKey).length
    ((if q.status != 0 then q.status else r.1.1, { t with list := mergeLists (qCap d) [(r.1.2.map (·.1), padKey)] }, nan), r.2)

/-- Whether the node's own run may start on a tile: no batch runs, and in fixed-slot mode the window is the hub's (05 R161). -/
def Node.ownTurn (s : Node) (hub : Nat) : Bool :=
  (s.tile (hub / 4)).batch.isNone && (!s.fixedSlot || ((s.tile (hub / 4)).window == s.now / s.casSpan && s.now / s.casSpan % 4 == hub % 4))

/-- NODE_MERGE (04 R113): the gang has run its program to the end. -/
def execNodeMerge (ctx : Nat) (s : State) : Result :=
  let n := s.node
  match n.ctx ctx with
  | none => s.next n
  | some x => match x.query with
    | none => s.next n
    | some q =>
      if x.gangSize == 0 || !x.threads.isEmpty || q.partialList.isSome || !n.dataUp || (bitAt (getLe q.desc 1 1) 3 && !n.ownTurn x.hub) then s.next n
      else
        let p := n.partialOf x.reader q
        let r := p.1
        let n := p.2
        let n := if x.owner < 1024 then
            { n with index := { n.index with nan := KList.put n.index.nan x.owner (KList.getD n.index.nan x.owner 0 + r.2.2) } } else n
        s.settled (n.ownReady ctx r.1 (some r.2.1))

/-! ## Merge sessions (04 R119-R124) -/

/-- 01 R33: a copy of the descriptor for a node and a shard: posted writes into the port of the node's submission queue, then
its remote doorbell. The spec does not say how the coordinating node knows the queue, its epoch and its count: they are free
(notes/assumptions/38.md). The copy for this node's own second position stays here. -/
def Node.forwardTo (s : Node) (q : Query) (node shard : Nat) : Node :=
  let d := putBytes q.desc 104 (natLe 4 q.qtag ++ natLe 2 shard)
  if node == s.dev.node then s.emit (.descriptor node d)
  else
    let f := s.free
    let g := f.2.free
    (g.2.portWrite node (f.1 % 8192 * 4096) d).portWrite node (f.1 % 8192 * 4096) (natLe 4 (g.1 % 2 ^ 24))

/-- The coordinating node sends the descriptor to every other node of the plan (01 R33). -/
def Node.forwardQuery (s : Node) (q : Query) : Node :=
  match q.plan with
  | none => s
  | some p => (otherPositions p q.pos).foldl (fun s e => s.forwardTo q e.1 e.2) s

/-- The query of a context goes on from admission: to the dispatch line, or, rejected, to its parent. -/
def Node.admitQuery (s : Node) (c : Nat) (x : Ctx) (q : Query) : Node :=
  let s := if q.forwarded then s else s.forwardQuery q
  if q.partialList.isSome || q.pos.isNone && q.plan.isSome then
    (if (s.sessionOf c).isSome then s else s.ownReady c q.status q.partialList)
  else match x.adm with
    | some a =>
      let cl := (s.qcfg a.item.q).cls
      { s with adm := { s.adm with lines := KList.put s.adm.lines cl (KList.getD s.adm.lines cl [] ++ [a]) } }
    | none => s

/-- 14 R468: a tenant's merge sessions are at its limit. -/
def Node.sessFull (s : Node) (owner : Nat) : Bool :=
  s.fsFull owner 2 12 (s.sel.sessions.filter fun p => ((s.ctx p.2.ctx).map (·.owner)) == some owner).length

/-- MERGE_SESSION_RESERVE (04 R119): the oldest query that waits for a session. -/
def execMergeSessionReserve (s : State) : Result :=
  let n := s.node
  match n.sel.msWait with
  | [] => s.next n
  | c :: _ =>
    match n.ctx c with
      | some x => match x.query with
        | some q =>
          if 4096 ≤ n.sel.sessions.length || n.sessFull x.owner || !n.dataUp then s.next n
          else s.settled ((n.reserveSession c q ((sessionWaits q).getD [])).admitQuery c x q)
        | none => s.next n
      | none => s.next { n with sel := { n.sel with msWait := n.sel.msWait.filter (· != c) } }

/-- MERGE_STREAM (04 R121). -/
def execMergeStream (m : MergeMsg) (s : State) : Result := s.next (if s.node.dataUp then s.node.takeStream m else s.node)

/-- MERGE_SESSION_CLOSE (04 R120). -/
def execMergeSessionClose (qtag : Nat) (s : State) : Result :=
  let n := s.node
  match (n.sessionsOf qtag).find? fun p => p.2.complete (n.ownIsReady p.2) with
  | some (k, _) => s.settled (if n.dataUp then n.closeSession k else n)
  | none => s.next n

/-- MERGE_SESSION_TIMEOUT (04 R121). -/
def execMergeSessionTimeout (qtag : Nat) (s : State) : Result :=
  let n := s.node
  match (n.sessionsOf qtag).find? fun p => n.sessionDue p.2 && !p.2.absent.isEmpty with
  | some (k, m) => s.settled (if n.dataUp then n.giveUp k m else n)
  | none => s.next n

/-- HELD_STREAM_TIMEOUT (04 R121). -/
def execHeldStreamTimeout (qtag : Nat) (s : State) : Result :=
  let n := s.node
  match n.sel.held.find? fun h => h.msg.qtag == qtag && n.passed h.since (1000 * h.relTmo) with
  | some h => s.next ({ n with sel := { n.sel with held := n.sel.held.erase h } }).missInput
  | none => s.next n

/-- PIN_RELEASE_MESSAGE (04 R124). -/
def execPinReleaseMessage (qtag : Nat) (s : State) : Result :=
  s.settled (s.node.takeRelease qtag)

/-- SHARD_PIN_TIMEOUT (04 R124). -/
def execShardPinTimeout (ctx : Nat) (s : State) : Result :=
  let n := s.node
  match (n.ctx ctx).bind (·.query) with
  | some q => match q.sentAt with
    | some t => s.settled (if q.forwarded && n.passed t (1000 * q.relTmo) then n.dropCtx ctx else n)
    | none => s.next n
  | none => s.next n

end Sys2Proof.Machine
end

