-- ==== Sys2Proof/Machine/Sync.lean ====
section
/-! DEFINITION. Thilen: generations and side lists (07 R219-R223), queues and synchronisation (07 R230-R236), time and
snapshots (07 R237, R238). -/

namespace Sys2Proof.Machine

/-! ## Generations and side lists -/

/-- The lowest free pin handle of a context. -/
def Ctx.freeHandle (x : Ctx) : Option Nat := KList.firstFree x.pins 16 0

/-- 02 R61: the generation that a GEN.PIN takes. -/
def Node.pinTarget (s : Node) (sh : ShardId) (v : Nat) : Option GenRec :=
  let may := fun (r : GenRec) => r.shard == sh && (r.state == 2 || (r.state == 3 && !r.draining))
  if v = 2 ^ 64 - 1 then s.newest sh else s.index.gens.find? fun r => may r && r.gen == v

/-- 02 R61: a pin of a generation is counted. -/
def Node.addPin (s : Node) (inst g : Nat) : Node := s.updGen inst g fun r => { r with pins := r.pins + 1 }

def maxPins : Nat := 1048575

/-- GEN.PIN (07 R220). -/
def execGenPin (th : Thr) (f : F1) (s : State) : Result :=
  s.search1 th 0x12 0 f (f.et == 0) [f.ra.toNat, f.rb.toNat] fun n t x =>
    let m := s.node
    let v := t.reg f.rb
    match m.shardKey x (t.reg f.ra) with
    | .error c => .fault c 0
    | .ok sh =>
      if v ≠ 2 ^ 64 - 1 ∧ 2 ^ 48 ≤ v then .fault 0x0101 0
      else match m.pinTarget sh.id v with
        | none => m.retCode n t f.rd.toNat 0x0127
        | some g => match x.freeHandle with
          | none => m.retCode n t f.rd.toNat 0x0323
          | some h =>
            if maxPins ≤ g.pins then m.retCode n t f.rd.toNat 0x0323
            else ((m.addPin g.inst g.gen).setCtx t.ctx { x with pins := KList.put x.pins h ⟨sh.id, g.inst, g.gen⟩ }).ret n t f.rd.toNat
              (BitVec.ofNat 64 (h * 2 ^ 48 + g.gen)) 0

/-- GEN.UNPIN (07 R221). Scans end within their command, so that none of the context is in progress. -/
def execGenUnpin (th : Thr) (f : F1) (s : State) : Result :=
  s.search1 th 0x12 1 f (f.et == 0) [f.ra.toNat] fun n t x =>
    let h := t.reg f.ra % 16
    match KList.find? x.pins h with
    | none => .fault 0x0173 0
    | some p => ((s.node.unpin p).setCtx t.ctx { x with pins := KList.del x.pins h }).ret n t 0 0 0

/-- The thread holds its instruction (07 R197). -/
def Node.hold (s : Node) (n : Nat) (t : Thread) (rd : Nat) (w : Wait) : Node := s.setThread n { t with wait := some w, waitRd := rd }

/-- GEN.SEAL (07 R222). -/
def execGenSeal (th : Thr) (f : F1) (s : State) : Result :=
  s.search1 th 0x12 2 f (f.et == 0) [f.ra.toNat] fun n t x =>
    match s.node.shardKey x (t.reg f.ra) with
    | .error c => .fault c 0
    | .ok sh => match s.node.requestSeal sh.id (.thread n) with
      | (0, m) => .done (m.hold n t f.rd.toNat (.seal sh.id))
      | (c, m) => m.retCode n t f.rd.toNat c

/-- The bytes of an append block by its record (07 R223). -/
def appendBytes (p : ShardParams) (b : Bytes) : Nat :=
  if getLe b 0 1 == 1 then 32 + p.exact + (if p.ablk then 32 else 0) + (if bitAt (getLe b 1 1) 0 then p.code else 0) else 32

/-- SIDE.APPEND (07 R223). One whose record the journal has no room for waits; on a paired shard it completes when the standby
holds the entry too (12 R391). -/
def execSideAppend (th : Thr) (f : F1) (s : State) : Result :=
  s.search1 th 0x13 0 f (f.et == 0) [f.ra.toNat, f.rb.toNat, f.rc.toNat] fun n t x =>
    let m := s.node
    let a := t.reg f.rc
    .check (t.localCode a 32 64) a <|
      match m.shardKey x (t.reg f.ra) with
      | .error c => .fault c 0
      | .ok sh =>
        let size := appendBytes sh.params (t.localRead a 32)
        .check (t.localCode a size 64) a <|
          if !m.appendRoom sh then .stall
          else match m.appendEntry sh (t.reg f.rb) (t.localRead a size) with
            | (0, i, m) =>
              if s.node.paired sh.id then .done ((m.hold n t f.rd.toNat (.append sh.id)).holdAppend
                { shard := sh.id, ords := [(t.reg f.rb, i + 1)], who := .thread n, code := 0, count := 0, result := i })
              else m.ret n t f.rd.toNat (BitVec.ofNat 64 i) 0
            | (0x0320, _, m) => m.retCode n t f.rd.toNat 0x0320
            | (c, _, _) => .fault c a

/-! ## Waits (07 R233) -/

/-- A wait limit as the time at which it ends. -/
def Node.limitOf (s : Node) (v : Nat) : Option Nat := if v = 2 ^ 64 - 1 then none else some (s.clk + v)

/-- The limit of a wait. -/
def Wait.limit : Wait → Option Nat
  | .sem _ _ l => l
  | .bar _ l => l
  | .evt _ l => l
  | .pop _ _ _ l => l
  | _ => none

/-- The object that a wait is at. -/
def Wait.object : Wait → Option Nat
  | .sem i _ _ => some i
  | .bar i _ => some i
  | .evt i _ => some i
  | _ => none

/-- 07 R233, R235: a wait ends unmet: its place in line, or its arrival, is withdrawn. -/
def Node.timeoutWait (s : Node) (n : Nat) (w : Wait) : Node :=
  match w.object with
  | none => s.failWait n 0x0403
  | some i =>
    let s := s.failWait n 0x0404
    match s.sync i with
    | none => s
    | some x =>
      let x := { x with waiters := x.waiters.filter (· != n) }
      if x.type == 0 || x.type == 3 then s.settleSem i x x.value
      else s.setSync i { x with value := if x.type == 2 then x.value - 1 else x.value }

/-- A wait whose limit has come. -/
def Node.checkLimit (s : Node) (n : Nat) : Node :=
  match (s.thread n).bind (·.wait) with
  | some w => match w.limit with
    | some l => if l ≤ s.clk then s.timeoutWait n w else s
    | none => s
  | none => s

/-- WAIT_TIMEOUT (07 R233). -/
def execWaitTimeout (th : Thr) (s : State) : Result :=
  s.settled (if s.node.dataUp then s.node.checkLimit (thrNo th) else s.node)

/-! ## Queues (07 R230-R232, 13 R408) -/

/-- 13 R408: whether a context may produce on a queue, or consume from it. -/
def Node.mayUse (s : Node) (x : Ctx) (q : Nat) (pop : Bool) : Bool :=
  let c := s.qcfg q
  c.valid && !c.host && c.owner == x.owner && (c.kind == 2 || c.kind == (if pop then 1 else 0))

/-- Q.POP (07 R230). -/
def execQPop (th : Thr) (f : F1) (s : State) : Result :=
  s.search1 th 0x14 0 f (f.et == 0) [f.ra.toNat, f.rb.toNat, f.rc.toNat] fun n t x =>
    let m := s.node
    let q := t.reg f.ra % 8192
    let dst := t.reg f.rb
    .check (t.localCode dst (128 * m.popSlots q) 64) dst <|
      if !m.mayUse x q true then .fault 0x0176 0
      else if m.popSlots q ≠ 0 then .done (m.popInto n t q dst f.rd.toNat)
      else
        let r := m.fresh
        .done ((r.2.hold n t f.rd.toNat (.pop q dst r.1 (m.limitOf (t.reg f.rc)))).checkLimit n)

/-- A thread's pushes on a queue are discarded. -/
def Queue.dropPushes (x : Queue) (n : Nat) : Queue := { x with pushes := x.pushes.filter fun p => p.thr != n }

/-- The epoch that a thread captured on a queue. -/
def Thread.capture (t : Thread) (q : Nat) : Option Nat := (t.captures.find? fun c => c.q == q).map (·.epoch)

def Thread.dropCapture (t : Thread) (q : Nat) : Thread := { t with captures := t.captures.filter fun c => c.q != q }

/-- 07 R231, R232: a stale epoch: the thread's pending items on the queue are discarded. -/
def Node.staleEpoch (s : Node) (n : Nat) (t : Thread) (q rd : Nat) : Eff :=
  (s.setQueue q ((s.queue q).dropPushes n)).retCode n (t.dropCapture q) rd 0x0401

/-- Q.PUSH (07 R231). -/
def execQPush (th : Thr) (f : F1) (s : State) : Result :=
  s.search1 th 0x14 1 f (f.et == 0) [f.ra.toNat, f.rb.toNat, f.rc.toNat] fun n t x =>
    let m := s.node
    let q := t.reg f.ra
    let k := t.reg f.rc
    let y := m.queue q
    let size := (m.qcfg q).n
    let from' := y.resAt size
    .check (t.localCode (t.reg f.rb) (128 * min k 16) 1) (t.reg f.rb) <|
      if 8192 ≤ q || !m.mayUse x q false || k < 1 || 16 < k then .fault 0x0176 0
      else if (t.capture q).getD y.epoch != y.epoch then m.staleEpoch n t q f.rd.toNat
      else if size < (from' + 65536 - y.head) % 65536 + k then m.retCode n t f.rd.toNat 0x0402
      else
        let t' : Thread := { t with captures := (t.captures.filter fun c => c.q != q) ++ [⟨q, y.epoch⟩] }
        let p : Push := { thr := n, count := from', slots := k, epoch := y.epoch }
        let m := m.ringWrite q from' (t.localRead (t.reg f.rb) (128 * k)) 16
        (m.setQueue q { y with pushes := y.pushes ++ [p], reserved := (from' + k) % 65536 }).retCode n t' f.rd.toNat 0

/-- Whether another thread's reservation stands before one of this thread (07 R232). -/
def earlierPush (n : Nat) : List Push → Bool
  | [] => false
  | p :: r => (p.thr != n && r.any fun p => p.thr == n) || earlierPush n r

/-- The bytes of a push. -/
def Node.pushBytes (s : Node) (q : Nat) (p : Push) : Bytes :=
  let c := s.qcfg q
  (List.range p.slots).flatMap fun i => s.read c.owner (s.reg .qbase q + 128 * ((p.count + i) % c.n)) 128

/-- An item committed at the tail (notes/assumptions/47.md). -/
def Node.commitPush (s : Node) (q : Nat) (b : Nat × Bytes) : Node :=
  let s := s.ringWrite q (s.queue q).tail b.2 16
  let y := s.queue q
  s.setQueue q { y with pushed := KList.put y.pushed y.tail b.1, tail := (y.tail + b.1) % 65536 }

/-- Q.COMMIT (07 R232). -/
def execQCommit (th : Thr) (f : F1) (s : State) : Result :=
  s.search1 th 0x14 2 f (f.et == 0) [f.ra.toNat] fun n t x =>
    let m := s.node
    let q := t.reg f.ra
    let y := m.queue q
    if 8192 ≤ q || !m.mayUse x q false then .fault 0x0176 0
    else match t.capture q with
      | none => m.retCode n t f.rd.toNat 0
      | some e =>
        if e != y.epoch then m.staleEpoch n t q f.rd.toNat
        else if earlierPush n y.pushes then .stall
        else
          let items := (y.pushes.filter fun p => p.thr == n).map fun p => (p.slots, m.pushBytes q p)
          let rest := y.pushes.filter fun p => p.thr != n
          let m := items.foldl (fun s b => s.commitPush q b) (m.setQueue q { y.dropPushes n with last := 0 })
          let z := m.queue q
          (m.setQueue q { z with reserved := if rest.isEmpty then z.tail else z.reserved }).retCode n (t.dropCapture q) f.rd.toNat 0

/-! ## Synchronisation (07 R234-R236) -/

/-- An instruction on a synchronisation object of one of some types. -/
def State.syncOp (s : State) (th : Thr) (fn : Nat) (f : F1) (regs : List Nat) (types : List Nat) (g : Nat → Thread → Nat → Sync → Eff) : Result :=
  s.search1 th 0x15 fn f (f.et == 0) (f.ra.toNat :: regs) fun n t x =>
    let i := t.reg f.ra
    match s.node.sync i with
    | none => .fault 0x0177 0
    | some y => if i < 4096 && y.usable x.owner && types.contains y.type then g n t i y else .fault 0x0177 0

/-- 07 R234: a count that a semaphore takes. -/
def semCount (n : Nat) : Bool := decide (1 ≤ n ∧ n < 2 ^ 32)

/-- 07 R234, 13 R420: whether a post to a semaphore or counter is in range. -/
def Sync.postOk (x : Sync) (n : Nat) : Bool := x.type != 0 || (semCount n && decide (x.value + n < 2 ^ 32))

/-- SEM.WAIT (07 R234). -/
def execSemWait (th : Thr) (f : F1) (s : State) : Result :=
  s.syncOp th 0 f [f.rb.toNat, f.rc.toNat] [0, 3] fun n t i y =>
    let m := s.node
    let c := t.reg f.rb
    if y.type == 0 && !semCount c then .fault 0x0177 0
    else
      let m := m.hold n t f.rd.toNat (.sem i c (m.limitOf (t.reg f.rc)))
      .done ((m.settleSem i { y with waiters := y.waiters ++ [n] } y.value).checkLimit n)

/-- SEM.POST (07 R234). -/
def execSemPost (th : Thr) (f : F1) (s : State) : Result :=
  s.syncOp th 1 f [f.rb.toNat] [0, 3] fun n t i y =>
    if !y.postOk (t.reg f.rb) then .fault 0x0177 0
    else (s.node.settleSem i y ((y.value + t.reg f.rb) % 2 ^ 64)).retCode n t f.rd.toNat 0

/-- BAR.ARRIVE (07 R235): the object's value counts the arrivals of the phase. -/
def execBarArrive (th : Thr) (f : F1) (s : State) : Result :=
  s.syncOp th 2 f [f.rc.toNat] [2] fun n t i y =>
    let m := s.node
    let m := m.hold n t f.rd.toNat (.bar i (m.limitOf (t.reg f.rc)))
    let l := y.waiters ++ [n]
    if y.parts ≤ y.value + 1 then .done ((m.setSync i { y with value := 0, waiters := [] }).wakeWaiters l)
    else .done ((m.setSync i { y with value := y.value + 1, waiters := l }).checkLimit n)

/-- An event set or cleared: those that wait for it go on (07 R236). -/
def Node.setEvent (s : Node) (i : Nat) (y : Sync) (on : Bool) : Node :=
  if on then (s.setSync i { y with value := 1, waiters := [] }).wakeWaiters y.waiters else s.setSync i { y with value := 0 }

/-- EVT.SET (07 R236). -/
def execEvtSet (th : Thr) (f : F1) (s : State) : Result :=
  s.syncOp th 3 f [f.rb.toNat] [1] fun n t i y => (s.node.setEvent i y (bitAt (t.reg f.rb) 0)).retCode n t f.rd.toNat 0

/-- EVT.WAIT (07 R236). -/
def execEvtWait (th : Thr) (f : F1) (s : State) : Result :=
  s.syncOp th 4 f [f.rc.toNat] [1] fun n t i y =>
    let m := s.node
    if y.value == 1 then m.retCode n t f.rd.toNat 0
    else
      let m := m.hold n t f.rd.toNat (.evt i (m.limitOf (t.reg f.rc)))
      .done ((m.setSync i { y with waiters := y.waiters ++ [n] }).checkLimit n)

/-! ## Time and snapshots (07 R237, R238) -/

def execTsRead (th : Thr) (f : F1) (s : State) : Result :=
  s.search1 th 0x11 0 f (f.et == 0) [] fun n t _ => s.node.ret n t f.rd.toNat (BitVec.ofNat 64 s.node.now) 0

/-- SNAP.ARM. `SNAP_PENDING` is in no Returned column, and faults (07 R200). -/
def execSnapArm (th : Thr) (f : F1) (s : State) : Result :=
  s.f1 th 0x11 1 f (f.et == 0 && f.k == 0 && f.mz == 0) fun n t x =>
    let v := t.reg f.rb
    if x.owner != sysOwner then .fault 0x0161 0
    else s.node.consumes n t (sDst f.rd.toNat) [f.ra.toNat, f.rb.toNat] <|
      if 2 ≤ v then .fault 0x0101 0
      else match s.node.armCode (t.reg f.ra) with
        | 0 => (s.node.arm (t.reg f.ra) (bitAt v 0)).retCode n t f.rd.toNat 0
        | 0x0175 => s.node.retCode n t f.rd.toNat 0x0175
        | c => .fault c 0

end Sys2Proof.Machine
end

