-- ==== Sys2Proof/Machine/Admit.lean ====
section
/-! DEFINITION. Ring reads, item checks, admission, token buckets, the maintenance gate (13 R409-R427), query descriptors
(03 R69-R100), synchronisation items (13 R419-R421). -/

namespace Sys2Proof.Machine

/-! ## Ring reads (13 R409, R410, R416; 17 R539) -/

/-- Slots up to the tail that have not been taken. -/
def Node.fetchDue (s : Node) (q : Nat) : Bool :=
  let c := s.qcfg q
  let x := s.queue q
  (c.valid || x.cut) && c.kind == 0 && s.dataUp && (if c.host then x.readTo != x.tail else (KList.find? x.pushed x.head).isSome && x.used != 0)

/-- DESCRIPTOR_FETCH: a ring read completes. `slots` is what it gives of a ring in host memory, from the head on. -/
def execDescriptorFetch (q : Fin 8192) (slots : List Bytes) (res : DmaRes) (s : State) : Result :=
  let n := s.node
  let x := n.queue q
  if !n.fetchDue q then s.next n
  else if (n.qcfg q).host then
    match res with
    | .ok => if slots.length = x.used then s.settled (n.takeItems q (splitItems (x.used + 1) slots)) else s.next n
    | _ => s.settled (n.dmaFail q false)
  else s.settled (n.takeItems q (n.pushedItems q x.head (x.used + 1)))

/-- RING_DMA_TIMEOUT (17 R539): 10 ms after the read began. -/
def execRingDmaTimeout (q : Fin 8192) (s : State) : Result :=
  let n := s.node
  s.settled (if (n.qcfg q).host && n.fetchDue q && n.passed (n.queue q).readAt 10000 then n.dmaFail q true else n)

/-! ## The form of items (13 Table 13.1, Table 13.2) -/

/-- What an item may hold: the roles of its queue, the `IFLAGS` bits, whether `COUNT` is used, the bits of each argument
(0: unused), where its inline payload ends, and whether it may take more than one slot. -/
structure ItemForm where
  roles : List Nat
  iflags : Nat
  count : Bool
  args : List Nat
  inl : Nat
  deriving DecidableEq, Repr

def mask64 : Nat := 2 ^ 64 - 1
def keyMask : Nat := 2 ^ 38 - 1

def itemForm (op inline : Nat) : Option ItemForm :=
  match op with
  | 0x11 => some (if inline = 1 then ⟨[0], 1, false, [keyMask, 2 ^ 21 - 1], 72⟩ else ⟨[0], 1, true, [keyMask, 0, mask64, mask64], 72⟩)
  | 0x12 => some ⟨[0], 0, false, [keyMask], 72⟩
  | 0x13 => some ⟨[0], 0, true, [keyMask, 2 ^ 54 - 1, mask64, mask64, mask64], 72⟩
  | 0x14 => some ⟨[0], 0, false, [keyMask], 72⟩
  | 0x15 => some ⟨[1], 0, false, [keyMask, mask64], 72⟩
  | 0x18 => some ⟨[0], 7, true, [mask64, mask64, mask64], 72⟩
  | 0x19 => some ⟨[0], 25, true, [mask64, mask64, mask64], 72⟩
  | 0x1A | 0x1B => some ⟨[0], 32, true, [mask64, mask64, mask64], 72⟩
  | 0x1C => some ⟨[0], 1, false, [mask64, 0xFFFF], 72⟩
  | 0x1D => some ⟨[0], 31, false, [mask64, mask64, mask64], 72⟩
  | 0x20 => some ⟨[0, 1], 0, false, [63, mask64], 72⟩
  | 0x21 => some ⟨[0, 1], 0, false, [63], 72⟩
  | 0x28 => some ⟨[0, 1], 0, true, [2 ^ 27 - 1, 2 ^ 11 - 1, 7], 72⟩
  | 0x29 => some ⟨[0, 1], 0, true, [2 ^ 27 - 1, 2 ^ 11 - 1], 72⟩
  | 0x2A => some ⟨[0, 1], 0, true, [2 ^ 27 - 1, 2 ^ 11 - 1, 7, 7], 72⟩
  | 0x30 => some ⟨[0, 1], 3, false, [mask64], 72⟩
  | 0x31 => some ⟨[0, 1], 0, false, [0xFFF], 72⟩
  | 0x32 => some ⟨[0, 1], 0, false, [0xFFF, mask64], 72⟩
  | 0x38 => some ⟨[1], 0, false, [], 104⟩
  | 0x39 => some ⟨[1], 0, false, [0xFFF], 72⟩
  | 0x3A => some ⟨[1], 0, true, [0xFFFF, 2 ^ 11 - 1, mask64], 72⟩
  | 0x3B | 0x3C => some ⟨[1], 0, false, [0xFFFF], 72⟩
  | 0x3D => some ⟨[1], 0, false, [keyMask, 2 ^ 32 - 1], 72⟩
  | 0x3E => some ⟨[1], 0, true, [2 ^ 37 - 1, 0x7FFF, mask64], 72⟩
  | 0x3F => some ⟨[1], 0, false, [mask64, 0x7FFF, 3, mask64], 72⟩
  | 0x40 => some ⟨[2], 0, false, [0x7FFF, mask64], 72⟩
  | _ => none

/-- Where a tenant's item holds a TID, or the system flag: argument, first bit, width (13 R411). -/
def tidField (op : Nat) : Option (Nat × Nat × Nat) :=
  match op with
  | 0x11 | 0x12 | 0x13 | 0x14 => some (0, 28, 10)
  | 0x28 | 0x29 | 0x2A => some (1, 0, 11)
  | _ => none

/-- The first code that is not 0. -/
def firstCode : List Nat → Nat
  | [] => 0
  | c :: r => if c = 0 then firstCode r else c

def codeIf (b : Bool) (c : Nat) : Nat := if b then c else 0

/-- 02 R34, R35: the arguments of INDEX_CREATE: `COUNT` is C, `A1` the parameters, `A2` and `A3` the tables, `A4` the plan. -/
def createFields (i : Item) (n : Nat) : Nat :=
  if i.op != 0x13 then 0
  else match n with
    | 0 => codeIf (i.count < 1 || 1048576 < i.count) 0x0125
    | 1 => createCode (createParams (i.arg 1) i.count)
    | 2 => codeIf (!tableAddrOk (i.arg 2)) 0x01D1
    | 3 => codeIf (if (createParams (i.arg 1) i.count).isPq then !tableAddrOk (i.arg 3) else i.arg 3 != 0) 0x01D1
    | _ => codeIf (i.arg 4 % 16 != 0 || bitAt (i.arg 4) 63) 0x01D1

/-- 13 R419: a SYNC_CREATE whose value is out of its type's range. -/
def syncBad (i : Item) : Bool :=
  let ty := i.iflags % 4
  let v := i.arg 0
  (ty == 0 && 2 ^ 32 ≤ v) || (ty == 1 && 2 ≤ v) || (ty == 2 && (v < 1 || 8192 < v))

/-- The fields of an item other than QUERY, in ascending byte offset; `key`: the code that the item's shard key meets. -/
def itemFields (i : Item) (f : ItemForm) (tid key : Nat) : Nat :=
  let inline := i.op == 0x11 && bitAt i.iflags 0
  let arg := fun n =>
    let m := f.args.getD n 0
    let v := i.arg n
    if i.op == 0x2A && n == 3 && v &&& i.arg 2 != 0 then 0x01D1
    else if m = 0 then codeIf (v != 0) 0x01D1
    else if v &&& m != v then (if (i.op == 0x28 || i.op == 0x2A) && 2 ≤ n then 0x01D1 else 0x0101)
    else match tidField i.op with
      | some (a, lo, w) => codeIf (f.roles.contains 0 && tid < 1024 && a == n && fld v lo w != 0 && fld v lo w != tid) 0x01D1
      | none => 0
  firstCode [
    codeIf (i.iflags &&& f.iflags != i.iflags) 0x0101,
    codeIf ((i.op == 0x18 && fld i.iflags 1 2 == 3) || (i.op == 0x19 && fld i.iflags 3 2 == 3) || (i.op == 0x1D && !amoOk i.iflags)) 0x0101,
    codeIf (fld (getLe i.bytes 2 1) 4 4 != 0) 0x0101,
    codeIf (getLe i.bytes 3 1 != 0) 0x0101,
    codeIf (!f.count && i.count != 0) 0x01D1,
    codeIf (i.op == 0x11 && !inline && (i.count < 1 || 4096 < i.count)) 0x01D1,
    codeIf (0x18 ≤ i.op && i.op ≤ 0x1B && (i.count < 1 || 4096 < i.count)) 0x0174, createFields i 0,
    arg 0, key, codeIf (i.op == 0x30 && syncBad i) 0x0177, codeIf (i.op == 0x28 && decide (2 ^ 27 < i.arg 0 + i.count)) 0x01D1,
    arg 1, createFields i 1, codeIf (i.op == 0x15 && (i.arg 1 % 16 != 0 || bitAt (i.arg 1) 63)) 0x01D1,
    arg 2, createFields i 2, codeIf ((i.op == 0x1A || i.op == 0x1B) && i.arg 2 != 0) 0x0174, codeIf (i.op == 0x1D && i.iflags % 16 != 10 && i.arg 2 != 0) 0x01D1,
    arg 3, codeIf (i.op == 0x11 && !inline && i.arg 3 % 64 != 0) 0x01D1,
    createFields i 3, arg 4, createFields i 4, arg 5,
    codeIf (!zeros i.bytes 60 4) 0x0101,
    codeIf (!zeros i.bytes f.inl (128 - f.inl)) 0x0101]

/-- 08 R258: whether the node's function takes an item. -/
def Node.functionTakes (s : Node) (i : Item) : Bool :=
  if 0x10 ≤ i.op ∧ i.op ≤ 0x15 then s.acceptsSearch
  else if 0x18 ≤ i.op ∧ i.op ≤ 0x1B then s.acceptsStore || (s.dev.func == 0 && !i.fwd)
  else if i.op == 0x1C || i.op == 0x1D then s.acceptsStore
  else true

/-- The codes that an item's queue, session, tenant and node give it (13 R411; 14 R434, R438, R455; 08 R258, R259;
12 R388). -/
def Node.itemUse (s : Node) (i : Item) (roles : List Nat) : Nat :=
  let c := s.qcfg i.q
  firstCode [
    codeIf (!roles.contains c.role) 0x0220,
    codeIf ((c.role == 1 && !s.roleOpen .operator) || (c.role == 2 && !s.roleOpen .installer)) 0x0201,
    if c.role == 0 && !c.sys then s.tenantUse c.tid else 0,
    codeIf (!s.functionTakes i) 0x0341,
    codeIf ((i.op == 0x1C || i.op == 0x1D || (i.fwd && decide (0x18 ≤ i.op ∧ i.op ≤ 0x1B))) && (s.itemClient i).isNone) 0x0341,
    codeIf (s.peloton.fenced && (i.op == 0x10 || i.op == 0x11 || i.op == 0x12)) 0x0608]

/-- 13 R410, R411: an item other than QUERY: its code. -/
def Node.checkItem (s : Node) (i : Item) : Nat :=
  match itemForm i.op (i.iflags % 2) with
  | none => 0x01D1
  | some f =>
    let sl := fld (getLe i.bytes 2 1) 0 4 + 1
    let inline := i.op == 0x11 && bitAt i.iflags 0
    let c := s.qcfg i.q
    let sh := s.shard (shardOfKey c.tid (i.arg 0))
    firstCode [
      codeIf (i.slots != sl || (if inline then sl < 2 else sl != 1)) 0x01D1,
      s.itemUse i f.roles,
      itemFields i f (if c.role == 0 then c.tid else 1024) (codeIf ((i.op == 0x11 && (c.sys || sh.isNone)) || (i.op == 0x13 && sh.isSome)) 0x0120),
      match sh with
      | some x => codeIf (inline && 128 * (sl - 1) < appendBytes x.params (i.bytes.drop 128)) 0x01D1
      | none => 0]

/-! ## Query descriptors (03 R70) -/

/-- 12 R390: a merge plan with the shard map's primaries in the place of its nodes. -/
def Node.primaries (s : Node) (sh : ShardId) (p : Plan) : Plan :=
  { p with nlist := p.nlist.map fun e =>
      (((s.peloton.shardMap.find? fun r => r.id == { sh with shard := Fin.ofNat 65536 e.2 }).map (·.primary)).getD e.1, e.2) }

/-- What a query is to run on at this node. -/
structure Target where
  shards : List Shard
  plan : Option Plan
  pos : Option Nat
  deriving DecidableEq, Repr

/-- 01 R33, 04 R117: the shards, the plan and the position of a QUERY; none where the node holds no such shard. -/
def Node.target (s : Node) (i : Item) : Option Target :=
  let d := i.bytes
  let tid := (s.qcfg i.q).tid
  let mine := s.index.shards.filter fun x => x.id.tid.val == tid && x.id.index.val == getLe d 2 2 % 4096
  let mine := sortBy (fun (a b : Shard) => decide (a.id.shard.val ≤ b.id.shard.val)) mine
  let one := fun (n : Nat) => mine.find? fun x => x.id.shard.val == n
  if i.fwd then
    (one (getLe d 108 2)).map fun x =>
      let p := x.plan.map (s.primaries x.id)
      { shards := [x], plan := p, pos := p.bind fun p => p.nlist.findIdx? fun e => e.2 == x.id.shard.val }
  else match (if bitAt (getLe d 1 1) 5 then mine.findSome? fun x => x.plan.map (s.primaries x.id) else none) with
    | some p => match p.positionOf? s.dev.node with
      | some k => (((p.nlist[k]?).map (·.2)).bind one).map fun x => { shards := [x], plan := some p, pos := some k }
      | none => some { shards := [], plan := some p, pos := none }
    | none =>
      let l := if bitAt (getLe d 1 1) 5 then mine else mine.take 1
      if l.isEmpty then none else some { shards := l, plan := none, pos := none }

/-- 05 R161: whether a model's shift and its run of one input pass one window of the mode that runs. -/
def Node.windowCode (s : Node) (m : Model) (bytes rows : Nat) : Nat :=
  codeIf (s.fixedSlot && decide (s.cas.fsWin * 1100 < 880 + m.cycles 1 bytes rows)) 0x0A05

/-- 03 R78, 05 R158: the encoder that a query names: its code. -/
def Node.encoderCode (s : Node) (tid : Nat) (x : Shard) (d : Bytes) : Nat :=
  let n := getLe d 14 1 % 64
  let m := readModel (s.slot n).image
  codeIf (2 < x.params.vfEx || (s.slot n).state != 2 || s.slotOwner n != some tid || m.mkind != 1 || m.outElems != x.params.d) 0x0135

/-- 05 R158: `QIN_BYTES` of a query with an encoder: its code; then the window of the run, whose bag is the elements given, and
whose other inputs are padded (05 R161). -/
def Node.encInputCode (s : Node) (d : Bytes) : Nat :=
  let m := readModel (s.slot (getLe d 14 1 % 64)).image
  let q := getLe d 20 4
  let e := cfBits m.inFmt
  firstCode [
    codeIf (q < 1 || 65536 < q || 8 * q % e != 0 || m.inElems < 8 * q / e) 0x0135,
    if m.inFmt == 7 then s.windowCode m q (q / 4) else s.windowCode m (cfBytes m.inFmt m.inElems) 0]

/-- 05 R159: the re-ranker that a query names: its code. -/
def Node.rerankerCode (s : Node) (tid : Nat) (x : Shard) (d : Bytes) : Nat :=
  let n := getLe d 15 1 % 64
  let m := readModel (s.slot n).image
  if (s.slot n).state != 2 || s.slotOwner n != some tid || m.mkind != 2 || m.inFmt != 0 || m.inElems != 2 * x.params.d + 5
      || m.outElems != 1 then 0x0151
  else s.windowCode m (4 * m.inElems) 0

/-- 03 R71: an address field: its code. -/
def addrField (a : Nat) (used : Bool) : Nat := codeIf (if used then bitAt a 63 || a % 64 != 0 else a != 0) 0x0137

/-- 02 R61: a query's pin of a shard: its generation. -/
def Node.queryPin (s : Node) (d : Bytes) (x : Shard) : Option GenRec :=
  s.pinTarget x.id (if bitAt (getLe d 1 1) 4 then getLe d 48 6 else 2 ^ 64 - 1)

/-- The filter block of a QUERY, read from the tenant's memory. -/
def Node.readFilter (s : Node) (tid : Nat) (d : Bytes) : Except Nat Bytes :=
  let np := getLe d 18 1 % 32
  let a := getLe d 32 8
  match s.rangeCode tid a (32 * np) with
  | 0 =>
    let n := filterBytes np (s.read tid a (32 * np))
    match s.rangeCode tid a n with
    | 0 => .ok (s.read tid a n)
    | c => .error c
  | c => .error c

/-- 03 R88, R89: the predicates of a QUERY: its code. -/
def Node.filterCode (s : Node) (tid : Nat) (t : Target) (d : Bytes) : Nat :=
  let np := getLe d 18 1 % 32
  if np = 0 then 0
  else match s.readFilter tid d with
    | .error c => c
    | .ok b => codeIf (!((List.range np).all fun i => t.shards.all fun x => predOk x.params.ablk (slice b (32 * i) 32))) 0x0132

/-- 03 R70: the fields of a query descriptor, in ascending byte offset. An `NPRED` of 17-31 and a `GEN` without `XGEN` have no code
of their own (notes/assumptions/94.md). -/
def Node.queryFields (s : Node) (i : Item) : Nat :=
  let d := i.bytes
  let tid := (s.qcfg i.q).tid
  let fl := getLe d 1 1
  let b := bitAt fl
  match s.target i with
  | none => firstCode [codeIf (64 ≤ fl) 0x0101, codeIf ((b 4 && b 5) || (b 2 && b 3)) 0x0139, codeIf (4096 ≤ getLe d 2 2) 0x0101, 0x0120]
  | some t =>
    let k := getLe d 4 2
    let ke := getLe d 6 2
    let np := getLe d 8 4
    let rr := getLe d 12 2
    let nt := getLe d 19 1 % 16
    let qi := getLe d 20 4
    firstCode [
      codeIf (64 ≤ fl) 0x0101, codeIf ((b 4 && b 5) || (b 2 && b 3)) 0x0139,
      codeIf (4096 ≤ getLe d 2 2) 0x0101,
      codeIf (k < 1 || 4096 < k) 0x0130,
      codeIf (if b 0 then ke < k || 4096 < ke else ke != 0) 0x0130,
      codeIf (2 ^ 21 ≤ np) 0x0101, codeIf (np = 0 || t.shards.any fun x => x.params.c < np) 0x0131,
      codeIf (if b 2 || b 3 then rr < k || 4096 < rr else rr != 0) 0x0136,
      codeIf (64 ≤ getLe d 14 1) 0x0101,
      firstCode (t.shards.map fun x => if b 1 then s.encoderCode tid x d else 0),
      codeIf (64 ≤ getLe d 15 1) 0x0101,
      firstCode (t.shards.map fun x => if b 3 then s.rerankerCode tid x d else 0),
      codeIf (16 ≤ getLe d 16 1) 0x0101,
      codeIf (!b 1 && t.shards.any fun x => (convQuery (getLe d 16 1) x.params.vfEx x.params.d []).isNone) 0x0134,
      codeIf (8 ≤ getLe d 17 1) 0x0101,
      codeIf (32 ≤ getLe d 18 1) 0x0101, codeIf (16 < getLe d 18 1) 0x0132,
      codeIf (16 ≤ getLe d 19 1) 0x0101, codeIf (8 < nt || (getLe d 18 1 != 0 && nt = 0)) 0x0133,
      if b 1 && !t.shards.isEmpty then s.encInputCode d else codeIf (if b 1 then qi < 1 || 65536 < qi else qi != 0) 0x0135,
      addrField (getLe d 24 8) true,
      addrField (getLe d 32 8) (getLe d 18 1 != 0),
      s.filterCode tid t d,
      addrField (getLe d 40 8) (b 2),
      codeIf (!b 4 && getLe d 48 6 != 0) 0x0101, codeIf (t.shards.any fun x => (s.queryPin d x).isNone) 0x0127,
      codeIf (!zeros d 54 2 || !zeros d 60 4) 0x0101,
      codeIf (!termsOk (getLe d 18 1) nt (slice d 72 32)) 0x0133,
      codeIf (if i.fwd then !zeros d 110 18 else !zeros d 104 24) 0x0101]

/-- Slots that a QUERY's result takes (13 R413). -/
def queryReserve (d : Bytes) : Nat := slotsOf (64 + 16 * max (getLe d 4 2) (getLe d 6 2))

/-- 13 R410, R411, R413, 03 R70: a QUERY: its code. -/
def Node.checkQuery (s : Node) (i : Item) : Nat :=
  let c := s.qcfg i.q
  firstCode [
    codeIf (i.slots != 1 || c.sys) 0x01D1,
    s.itemUse i [0],
    s.queryFields i,
    codeIf (!i.fwd && (s.qcfg c.cq).n < queryReserve i.bytes) 0x01D1]

/-! ## Costs (13 R422, R424) -/

/-- 13 R422: the estimate of a QUERY over the node's shards of its index. -/
def Node.queryEst (s : Node) (i : Item) : Nat :=
  let tid := (s.qcfg i.q).tid
  sumN ((s.index.shards.filter fun x => x.id.tid.val == tid && x.id.index.val == getLe i.bytes 2 2 % 4096).map fun x =>
    ceilDiv (fld (getLe i.bytes 8 4) 0 21 * ((s.newest x.id).map (·.live)).getD 0) (max 1 x.params.c))

/-- Whether an item is charged to a tenant's shaper. -/
def Node.tenantItem (s : Node) (i : Item) : Bool := (s.qcfg i.q).role == 0 && !(s.qcfg i.q).sys

def Node.itemCost (s : Node) (i : Item) : Nat :=
  let ovh := if s.tenantItem i then fld (s.reg .shpCfg (s.qcfg i.q).tid) 32 8 else 0
  if i.op = 0x10 then ceilDiv (s.queryEst i) 1024 + ovh
  else if (0x18 ≤ i.op ∧ i.op ≤ 0x1B) ∨ i.op = 0x11 then ceilDiv i.count 64 + ovh
  else ovh

/-- The buckets that an item draws on: what each may hold, and what it holds, in 1/1,024 units (13 R423, R427;
14 Table 14.10). -/
def Node.tenBucket (s : Node) (i : Item) : Option (Nat × Nat) :=
  let t := (s.qcfg i.q).tid
  let cfg := s.reg .shpCfg t
  if !s.tenantItem i || bucketRate cfg = 0 then none else some (bucketBurst cfg * 1024, s.tenTok t)

def Node.clsBucket (s : Node) (i : Item) : Option (Nat × Nat) :=
  let c := (s.qcfg i.q).cls
  if s.fixedSlot && s.tenantItem i then none
  else if c = 7 then some (fld (s.reg .gateCfg) 40 24 * 1024, s.clsTok 7)
  else if bucketRate (s.reg .clsCfg c) = 0 then none
  else some (bucketBurst (s.reg .clsCfg c) * 1024, s.clsTok c)

/-- 13 R424. -/
def Node.burstCode (s : Node) (i : Item) (cost : Nat) : Nat :=
  codeIf ([s.tenBucket i, s.clsBucket i].any fun b => match b with
    | some (top, _) => decide (top < cost * 1024)
    | none => false) 0x0370

def Node.tokensOk (s : Node) (i : Item) (cost : Nat) : Bool :=
  [s.tenBucket i, s.clsBucket i].all fun b => match b with
    | some (_, tok) => decide (cost * 1024 ≤ tok)
    | none => true

def Node.charge (s : Node) (i : Item) (cost : Nat) : Node :=
  let c := s.qcfg i.q
  let s' := if (s.tenBucket i).isSome then s.setTenTok c.tid (s.tenTok c.tid - cost * 1024) else s
  if (s.clsBucket i).isSome then s'.setClsTok c.cls (s'.clsTok c.cls - cost * 1024) else s'

/-! ## Rejected items (13 R411; 04 R122) -/

def noQuery (d : Bytes) : Query :=
  { desc := d, forwarded := false, qtag := 0, shards := [], gens := [], pos := none, plan := none, queryVec := [], filter := [], encInput := [],
    tile := none, partialList := none, status := 0, sentAt := none, relTmo := 0 }

/-- A query that waits for its session, or goes on (04 R119). -/
def Node.startQuery (s : Node) (c : Nat) (x : Ctx) (q : Query) : Node :=
  let s := s.setCtx c { x with query := some q }
  if (sessionWaits q).isSome then
    { s with sel := { s.sel with msWait := s.sel.msWait ++ [c], msWaitCnt := s.sel.msWaitCnt + (if 4096 ≤ s.sel.sessions.length then 1 else 0) } }
  else s.admitQuery c { x with query := some q } q

/-- A new context of an owner. -/
def newCtx (owner op : Nat) (deadline : Option Nat) (a : Option Admitted) : Ctx :=
  { owner := owner, job := none, adm := a, op := op, deadline := deadline, hub := 0, threads := [], gangSize := 0, lists := [], pins := [],
    slotRefs := [], held := [], query := none, gangStart := 0 }

/-- The lowest context number that is free. -/
def Node.freeCtx (s : Node) : Option Nat := KList.firstFree s.spokes.ctxs 32768 0

/-- The queue without its head item. -/
def Node.dropHead (s : Node) (q : Nat) : Node := let x := s.queue q; s.setQueue q { x with items := x.items.drop 1 }

/-- The deadline of an item: its own, or the tenant's default (13 Table 13.1). -/
def Node.itemDeadline (s : Node) (i : Item) : Option Nat :=
  let own := getLe i.bytes 56 4
  let us := if own = 0 then (if s.tenantItem i then (s.ten (s.qcfg i.q).tid).deadline else 0) else own
  if us = 0 then none else some (s.now + 1000 * us)

/-- 04 R122: a forwarded query that is rejected leaves an empty input, for the coordinating node itself where this node holds no
plan (notes/assumptions/94.md). -/
def Node.rejectForwarded (s : Node) (i : Item) (code c : Nat) : Node :=
  let t := (s.target i).getD { shards := [], plan := none, pos := none }
  let q : Query := { noQuery i.bytes with forwarded := true, qtag := getLe i.bytes 104 4 % 2 ^ 30, plan := t.plan, pos := t.pos, status := code
                                          partialList := some (emptyPartial (qCap i.bytes)) }
  s.startQuery c (newCtx (s.qcfg i.q).owner i.op (s.itemDeadline i) none) q

/-- The head item of a queue is rejected. None: what it leaves has no room yet. -/
def Node.rejectHead (s : Node) (i : Item) (code : Nat) : Option Node :=
  if i.fwd && i.op == 0x10 then s.freeCtx.map fun c => (s.dropHead i.q).rejectForwarded i code c
  else
    let room := if i.op = 0x10 then slotsOf (64 + 16 * (s.padOf i).length) else 1
    let cq := (s.qcfg i.q).cq
    if (s.qcfg cq).valid && decide (s.cqRoom cq < room) then none else some ((s.dropHead i.q).reject i code)

/-- QUERY (03 R70): the head of queue q, a QUERY, is checked. -/
def execQuery (q : Fin 8192) (s : State) : Result :=
  let n := s.node
  match (n.queue q).items with
  | i :: rest =>
    if i.op != 0x10 || i.checked || !n.dataUp then s.next n
    else
      let cost := n.itemCost i
      match firstCode [n.checkQuery i, n.burstCode i cost] with
      | 0 =>
        let i := { i with checked := true, cost := cost, reserve := if i.fwd then 0 else queryReserve i.bytes }
        s.next (n.setQueue q { n.queue q with items := i :: rest })
      | code => s.settled ((n.rejectHead i code).getD n)
  | [] => s.next n

/-! ## Admission (13 R413, R423, R426) -/

/-- The references that a query takes on model slots (05 R152). -/
def querySlots (d : Bytes) : List Nat :=
  let fl := getLe d 1 1
  ((if bitAt fl 1 then [getLe d 14 1 % 64] else []) ++ (if bitAt fl 3 then [getLe d 15 1 % 64] else [])).dedup

def Node.addRef (s : Node) (i : Nat) : Node := let x := s.slot i; s.setSlot i { x with refs := x.refs + 1 }

/-- A QUERY is admitted: its pins, its references, its context (02 R61, 05 R152). -/
def Node.admitNew (s : Node) (a : Admitted) (c : Nat) (t : Target) : Node :=
  let d := a.item.bytes
  let gens := t.shards.filterMap fun x => (s.queryPin d x).map fun g => Pin.mk x.id g.inst g.gen
  let s := gens.foldl (fun s p => s.addPin p.inst p.gen) s
  let slots := if t.shards.isEmpty then [] else querySlots d
  let s := slots.foldl Node.addRef s
  let q : Query := { noQuery d with forwarded := a.item.fwd, shards := t.shards.map (·.id), pos := t.pos, plan := t.plan
                                    qtag := if a.item.fwd then getLe d 104 4 % 2 ^ 30 else c + 2 ^ 15 * s.dev.node }
  let x := newCtx (s.qcfg a.item.q).owner 0x10 (s.itemDeadline a.item) (some a)
  s.startQuery c { x with pins := (gens.zipIdx.map fun p => (p.2, p.1)), slotRefs := slots } q

/-- The line that an owner's items of a class wait in (13 R428; 14 Table 14.10). -/
def Node.lineOf (s : Node) (i : Item) : Nat := if s.fixedSlot then 8 + (s.qcfg i.q).owner else (s.qcfg i.q).cls

/-- The head item of a queue is admitted. -/
def Node.admitHead (s : Node) (i : Item) (c : Nat) : Node :=
  let cq := (s.qcfg i.q).cq
  let s := (s.dropHead i.q).charge i i.cost
  let s := s.setQueue cq { s.queue cq with cqReserved := (s.queue cq).cqReserved + i.reserve }
  let r := s.fresh
  let a : Admitted := { item := i, tAdmit := s.now, clkAdmit := s.clk, seq := r.1 }
  let s : Node := { r.2 with mgt := { r.2.mgt with localSeq := (r.2.mgt.localSeq + 1) % 2 ^ 32 } }
  if i.op = 0x10 then s.admitNew a c ((s.target i).getD { shards := [], plan := none, pos := none })
  else if i.op = 0x11 || (0x18 ≤ i.op && i.op ≤ 0x1B) then
    let l := s.lineOf i
    let s := s.setCtx c (newCtx (s.qcfg i.q).owner i.op (s.itemDeadline i) (some a))
    { s with adm := { s.adm with lines := KList.put s.adm.lines l (KList.getD s.adm.lines l [] ++ [a]) } }
  else
    let x := s.queue i.q
    s.setQueue i.q { x with mItems := x.mItems ++ [a] }

/-- 02 R61, 05 R152: the code that the pins and the slot references of a query meet at admission. -/
def Node.pinCode (s : Node) (i : Item) : Nat :=
  if i.op ≠ 0x10 then 0
  else match s.target i with
    | none => 0x0120
    | some t =>
      let b := bitAt (getLe i.bytes 1 1)
      let tid := (s.qcfg i.q).tid
      firstCode (t.shards.flatMap fun x => [match s.queryPin i.bytes x with
        | none => 0x0127
        | some g => codeIf (maxPins ≤ g.pins) 0x0323, if b 1 then s.encoderCode tid x i.bytes else 0, if b 3 then s.rerankerCode tid x i.bytes else 0])

/-- What a visit does to the head of a queue: it admits it (true), or rejects it; none where it must wait. -/
def Node.visit (s : Node) (i : Item) : Option (Bool × Node) :=
  if i.op = 0x10 && !i.checked then none
  else
    let cost := if i.checked then i.cost else s.itemCost i
    let code := if i.checked then firstCode [s.pinCode i, s.burstCode i cost] else firstCode [s.checkItem i, s.burstCode i cost]
    if code ≠ 0 then (s.rejectHead i code).map fun m => (false, m)
    else
      let i := { i with checked := true, cost := cost, reserve := if i.op = 0x10 then i.reserve else 1 }
      let cq := (s.qcfg i.q).cq
      if !s.tokensOk i cost || ((s.qcfg cq).valid && decide (s.cqRoom cq < i.reserve)) then none
      else s.freeCtx.map fun c => (true, s.admitHead i c)

/-- A participant of the rotation: a TID, or 1,024 for operator, installer and system items (13 R426). -/
def Node.participant (s : Node) (q : Nat) : Nat := if (s.qcfg q).role == 0 && !(s.qcfg q).sys then (s.qcfg q).tid else 1024

/-- The queues of a class with an item, in the order of the rotation; those of one participant by number. -/
def Node.visitOrder (s : Node) (cls : Nat) : List Nat :=
  let qs := (s.qsy.queues.filter fun p => !p.2.items.isEmpty && (s.qcfg p.1).cls == cls).map (·.1)
  let last := KList.getD s.adm.lastPart cls 1024
  let key := fun q => ((s.participant q + 1025 - last - 1) % 1025) * 8192 + q
  sortBy (fun (a b : Nat) => decide (key a ≤ key b)) qs

/-- 13 R426: the classes in rotation. -/
def Node.admitScan (s : Node) : List Nat → Option Node
  | [] => none
  | c :: r =>
    match (s.visitOrder c).findSome? fun q => ((s.queue q).items.head?.bind s.visit).map fun m => (q, m) with
    | some (q, ok, m) =>
      some (if ok then { m with adm := { m.adm with lastClass := c, lastPart := KList.put m.adm.lastPart c (s.participant q) } } else m)
    | none => s.admitScan r

/-- ITEM_ADMIT (13 R426). -/
def execItemAdmit (s : State) : Result :=
  let n := s.node
  if !n.dataUp then s.next n
  else s.settled ((n.admitScan ((List.range 8).map fun i => (n.adm.lastClass + 1 + i) % 8)).getD n)

/-! ## Buckets and the maintenance gate (13 R423, R427, R432) -/

/-- BUCKET_REFILL: one microsecond more for every bucket but that of class 7. -/
def execBucketRefill (s : State) : Result :=
  let n := s.node
  let ts := (n.regs.filter fun p => decide (0x200000 ≤ p.1 ∧ p.1 < 0x204000 ∧ p.1 % 16 = 0)).map fun p => (p.1 - 0x200000) / 16
  let n := ts.foldl (fun n t => n.setTenTok t (refill (n.reg .shpCfg t) (n.tenTok t))) n
  s.next ((List.range 7).foldl (fun n c => n.setClsTok c (refill (n.reg .clsCfg c) (n.clsTok c))) n)

/-- The period and the open time of the gate, in ns. -/
def Node.gatePeriod (s : Node) : Nat := 1000 * fld (s.reg .gateCfg) 20 20
def Node.gateSpan (s : Node) : Nat := 1000 * fld (s.reg .gateCfg) 0 20

/-- GATE_OPEN (13 R427, R432). `gateWindow` is the next window's number. -/
def execGateOpen (s : State) : Result :=
  let n := s.node
  let w := n.now / max 1 n.gatePeriod
  let budget := fld (n.reg .gateCfg) 40 24
  if w < n.adm.gateWindow then s.next n
  else
    let n := n.setClsTok 7 (budget * 1024)
    let t := if n.fixedSlot then n.assigned else []
    s.next { n with adm := { n.adm with gateOpen := true, gateWindow := w + 1, fsBudget := t.map fun i => (i, budget * 1024 / max 1 t.length) } }

/-- GATE_CLOSE (13 R427). -/
def execGateClose (s : State) : Result :=
  let n := s.node
  if n.adm.gateOpen && decide ((n.adm.gateWindow - 1) * n.gatePeriod + n.gateSpan ≤ n.now) then
    let n := n.setClsTok 7 0
    s.next { n with adm := { n.adm with gateOpen := false, fsBudget := [] } }
  else s.next n

/-! ## Synchronisation items (13 R419-R421) -/

/-- SYNC_CREATE. -/
def execSyncCreate (q : Fin 8192) (s : State) : Result :=
  s.runM q 0x30 fun a =>
    let n := s.node
    let ty := a.item.iflags % 4
    let v := a.item.arg 0
    let o := (n.qcfg q).owner
    if syncBad a.item then n.doneM q a (done 0x0177)
    else match KList.firstFree n.qsy.syncs 4096 0 with
      | none => n.doneM q a (done 0x0371)
      | some i =>
        if n.fsFull o 14 12 (n.syncCount o) then n.doneM q a (done 0x0371)
        else (n.setSync i { type := ty, owner := o, value := if ty == 2 then 0 else v, parts := if ty == 2 then v else 0, waiters := [] }).doneM q a (done 0 i)

/-- The object that a tenant's or the operator's item names. -/
def Node.itemSync (s : Node) (q : Nat) (a : Admitted) : Option (Nat × Sync) :=
  let i := a.item.arg 0 % 4096
  match s.sync i with
  | some x => if (s.qcfg q).role != 0 || x.usable (s.qcfg q).owner then some (i, x) else none
  | none => none

/-- SYNC_DESTROY. -/
def execSyncDestroy (q : Fin 8192) (s : State) : Result :=
  s.runM q 0x31 fun a =>
    let n := s.node
    match n.itemSync q a with
    | none => n.doneM q a (done 0x0177)
    | some (i, x) =>
      let n := n.endWaiters x.waiters 0x0405
      ({ n with qsy := { n.qsy with syncs := KList.del n.qsy.syncs i } }).doneM q a (done 0)

/-- SYNC_SIGNAL. -/
def execSyncSignal (q : Fin 8192) (s : State) : Result :=
  s.runM q 0x32 fun a =>
    let n := s.node
    let k := a.item.arg 1
    match n.itemSync q a with
    | none => n.doneM q a (done 0x0177)
    | some (i, x) =>
      if x.type == 2 || !x.postOk k then n.doneM q a (done 0x0177)
      else if x.type == 1 then (n.setEvent i x (bitAt k 0)).doneM q a (done 0)
      else (n.settleSem i x ((x.value + k) % 2 ^ 64)).doneM q a (done 0)

end Sys2Proof.Machine
end

