-- ==== Sys2Proof/Machine/Place.lean ====
section
/-! DEFINITION. The dispatcher (03 R72-R74, 06 R165-R168, 07 R204, 13 R428, R431, R432). -/

namespace Sys2Proof.Machine

/-! ## Hubs and threads (03 R74, 06 R166, R172) -/

/-- The hubs in dispatch for an owner, as a mask: in fixed-slot mode those assigned to it (13 R431, R432). -/
def Node.ownerHubs (s : Node) (owner : Nat) : Nat :=
  if !s.fixedSlot then 2 ^ 32 - 1
  else if owner == sysOwner then fld (s.reg .fsSys) 32 32 else fld (s.reg .fsTen owner) 32 32

/-- A hub that a reset, a retirement or a withdrawal keeps out of dispatch is no candidate (01 R27, 16 R514). -/
def Node.mayDispatch (s : Node) (h : Nat) : Bool :=
  !bitAt s.power.hubRet h && !bitAt s.power.hubWd h && !bitAt s.power.tileRet (h / 4)
  && !s.mgt.resets.any fun r => r.level == 3 && r.tile == h / 4

/-- Local pages that a spoke has free. -/
def Node.freePages (s : Node) (h sp : Nat) : Nat :=
  16 - sumN ((s.spokes.threads.filter fun p => decide (p.1 / 4 = 64 * h + sp)).map fun p => p.2.lsize)
    - sumN (((s.spokes.ctxs.flatMap (·.2.held)).filter fun p => decide (p.1 / 4 = 64 * h + sp)).map (·.2))

/-- 03 R73: a gang holds the threads that have ended until its query's stage 8 has. -/
def Node.heldThread (s : Node) (n : Nat) : Bool := s.spokes.ctxs.any fun c => c.2.held.any fun p => p.1 == n

/-- 06 R166: the free threads of a spoke for a program of `k` pages. -/
def Node.freeThreads (s : Node) (h sp k : Nat) : List Nat :=
  if bitAt (s.spokeRet h) sp || decide (s.freePages h sp < k) then []
  else ((List.range 4).map fun t => 256 * h + 4 * sp + t).filter fun n => (s.thread n).isNone && !s.heldThread n

/-- The spokes of a hub that have a free thread: for each, its threads that are free. -/
def Node.freeSpokes (s : Node) (h k : Nat) : List (List Nat) := ((List.range 64).map fun sp => s.freeThreads h sp k).filter fun l => l != []

/-- 03 R74: the running hub with the most free threads, the lowest on equal counts. -/
def bestHub (l : List (Nat × Nat)) : Option Nat :=
  (l.foldl (fun (b : Option (Nat × Nat)) p => match b with
    | none => some p
    | some q => if q.2 < p.2 then some p else some q) none).map (·.1)

/-- 03 R74: the hub for a gang of `g`. -/
def Node.pickHub (s : Node) (owner g k : Nat) : Option Nat :=
  let cs := (List.range 32).filter fun h => bitAt (s.ownerHubs owner) h && s.mayDispatch h && decide (g ≤ (s.freeSpokes h k).length)
  match bestHub ((cs.filter fun h => !bitAt s.power.freewheel h).map fun h => (h, sumN ((s.freeSpokes h k).map (·.length)))) with
  | some h => some h
  | none => cs.find? fun h => bitAt s.power.freewheel h

/-! ## Binding (06 R168, 07 R204) -/

/-- 03 R73: the size of an item's gang; an item other than QUERY takes one thread (notes/assumptions/48.md). -/
def Node.gangOf (s : Node) (i : Item) : Nat :=
  if i.op = 0x10 then
    let g := getLe i.bytes 17 1 % 8
    2 ^ ((if g = 0 then max 1 (fld (s.reg .scnCfg) 0 3) else g) - 1)
  else 1

/-- The vector of a query in the shard's format, or its encoder input, as the dispatcher reads it (03 R72). -/
def Node.readInput (s : Node) (x : Ctx) (q : Query) : Except Nat Query × Node :=
  let d := q.desc
  let enc := bitAt (getLe d 1 1) 1
  match (q.shards.head?).bind s.shard with
  | none => (.ok q, s)
  | some sh =>
    match s.tierRead x.reader (getLe d 24 8) (if enc then getLe d 20 4 else ceilDiv (sh.params.d * vfBits (getLe d 16 1)) 8) with
    | (.ok b, s) => (.ok (if enc then { q with encInput := b }
        else { q with queryVec := (convQuery (getLe d 16 1) sh.params.vfEx sh.params.d b).getD [] }), s)
    | (.error c, s) => (.error c, s)

/-- The filter block of a query as the dispatcher reads it (03 R72); its predicates are held to R89 as they then are
(notes/assumptions/87.md). -/
def Node.queryFilter (s : Node) (x : Ctx) (q : Query) : Except Nat Bytes × Node :=
  let np := getLe q.desc 18 1 % 32
  let a := getLe q.desc 32 8
  if np = 0 || q.shards.isEmpty then (.ok [], s)
  else match s.tierRead x.reader a (32 * np) with
    | (.error c, s) => (.error c, s)
    | (.ok p, s) => match s.tierRead x.reader (a + 32 * np) (filterBytes np p - 32 * np) with
      | (.error c, s) => (.error c, s)
      | (.ok r, s) =>
        let b := p ++ r
        if (List.range np).all fun i => (q.shards.filterMap s.shard).all fun y => predOk y.params.ablk (slice b (32 * i) 32) then (.ok b, s)
        else (.error 0x0132, s)

/-- What the dispatcher reads for a query, once (03 R72); or the code of the read. -/
def Node.readQuery (s : Node) (x : Ctx) (q : Query) : Except Nat Query × Node :=
  match s.readInput x q with
  | (.error c, s) => (.error c, s)
  | (.ok q, s) => match s.queryFilter x q with
    | (.error c, s) => (.error c, s)
    | (.ok b, s) => (.ok { q with filter := b }, s)

/-- A thread as it is bound (06 R168): the item's descriptor is its first 128 bytes. -/
def Node.newThread (s : Node) (c : Nat) (x : Ctx) (p : Program) (member : Nat) (desc : Bytes) : Thread :=
  { ctx := c, member := member, lo := p.lo, hi := p.hi, lsize := p.lsize, pc := p.entry, s := [], v := [], k := [], h := [], sPoison := []
    vPoison := [], lstat := 0, job := x.job, boundAt := s.clk, sram := cellWrite [] 0 desc, filterAt := none, wait := none, waitRd := 0
    captures := [], lutHigh := [] }

/-- 07 R204: the local state of a query's thread: q_ex, and the filter state behind it. -/
def Node.queryThread (s : Node) (q : Query) (t : Thread) : Thread :=
  match (q.shards.head?).bind s.shard with
  | none => t
  | some sh =>
    let np := getLe q.desc 18 1 % 32
    let t := if bitAt (getLe q.desc 1 1) 1 then t else t.localWrite 0x80 q.queryVec
    let off := 0x80 + sh.params.exact
    if np = 0 then t
    else { t.localWrite off (filterImage np (getLe q.desc 19 1 % 16) q.filter (slice q.desc 72 32)) with filterAt := some off }

/-- 16 Table 16.2: a gang enters its hub's ring of 4,096 entries. -/
def Node.logGang (s : Node) (hub : Nat) (e : GangEntry) : Node :=
  let r := KList.getD s.log.gangRings hub [] ++ [e]
  { s with log := { s.log with
      gangRings := KList.put s.log.gangRings hub (if 4096 < r.length then r.drop 1 else r)
      gangWrote := KList.put s.log.gangWrote hub (KList.getD s.log.gangWrote hub 0 + 1) } }

/-- The gang of a context is bound on a hub, one thread on each of its first free spokes. -/
def Node.bindGang (s : Node) (c : Nat) (x : Ctx) (a : Admitted) (p : Program) (hub g : Nat) : Node :=
  let ns := ((s.freeSpokes hub p.lsize).take g).filterMap (·.head?)
  let s := { s with power := { s.power with freewheel := s.power.freewheel - (s.power.freewheel &&& 2 ^ hub) } }
  let s := ns.zipIdx.foldl (fun s e =>
    let t := s.newThread c x p e.2 (slice a.item.bytes 0 128)
    s.setThread e.1 (match x.query with
      | some q => s.queryThread q t
      | none => t)) s
  let s := s.setCtx c { x with hub := hub, threads := ns, gangSize := g, gangStart := s.now }
  s.logGang hub { tStart := s.now, tEnd := 0, spokes := sumN (ns.map fun n => 2 ^ thrSpoke n), cookie := a.item.cookie % 2 ^ 32, ctx := c, owner := x.owner }

/-! ## Dispatch (13 R428) -/

/-- The context of an admitted item. -/
def Node.ctxOf (s : Node) (a : Admitted) : Option (Nat × Ctx) := List.find? (fun (p : Nat × Ctx) => p.2.adm == some a) s.spokes.ctxs

/-- A line without its head. -/
def Node.popLine (s : Node) (l : Nat) : Node := { s with adm := { s.adm with lastLine := l, lines := KList.put s.adm.lines l ((KList.getD s.adm.lines l []).drop 1) } }

/-- The head of a line placed; none where it cannot be. An item whose context has ended, or whose query cannot be read,
leaves its line. -/
def Node.placeHead (s : Node) (l : Nat) (a : Admitted) : Option Node :=
  match s.ctxOf a with
  | none => some (s.popLine l)
  | some (c, x) =>
    match KList.find? s.spokes.progs a.item.op with
    | none => none
    | some p => (s.pickHub x.owner (s.gangOf a.item) p.lsize).map fun hub =>
      let s := s.popLine l
      match x.query with
      | none => s.bindGang c x a p hub (s.gangOf a.item)
      | some q => match s.readQuery x q with
        | (.error code, s) => s.endCtx c code
        | (.ok q, s) => s.bindGang c { x with query := some q } a p hub (s.gangOf a.item)

/-- The lines that hold an item, in rotation. -/
def Node.lineOrder (s : Node) : List (Nat × Admitted) :=
  let ls := s.adm.lines.filterMap fun (p : Nat × List Admitted) => p.2.head?.map fun a => (p.1, a)
  (ls.filter fun p => decide (s.adm.lastLine < p.1)) ++ ls.filter fun p => decide (p.1 ≤ s.adm.lastLine)

/-- ITEM_DISPATCH (13 R428). -/
def execItemDispatch (s : State) : Result :=
  let n := s.node
  if !n.dataUp then s.next n else s.settled ((n.lineOrder.findSome? fun p => n.placeHead p.1 p.2).getD n)

end Sys2Proof.Machine
end

