-- ==== Sys2Proof/Machine/Cassettes.lean ====
section
/-! DEFINITION. Cassettes (05 R148-R163): loading and unloading models, shifts, batches, the fixed-slot rotation; CAS.SHIFT
and CAS.RUN (07 R227-R229). -/

namespace Sys2Proof.Machine

/-! ## Loading (05 R149, R152) -/

/-- Who submits a model item: the tenant, or the system context for the operator. -/
def Node.modelOwner (s : Node) (a : Admitted) : Nat := if s.roleOfItem a == 0 then (s.qcfg a.item.q).owner else sysOwner

/-- Units of 64 KiB of each tile's weight area (05 R149). -/
def areaOf (pay : Nat) : Nat := ceilDiv pay 65536

def Node.areaUsed (s : Node) : Nat := sumN (s.cas.slots.map fun p => p.2.area)

/-- 05 R147: header and layer records of an image, as far as its check reads them; or a code. -/
def Node.readImage (s : Node) (owner a : Nat) : Except Nat Bytes :=
  match s.rangeCode owner a 64 with
  | 0 =>
    let h := s.read owner a 64
    if !headOk h then .error 0x0150
    else match s.rangeCode owner (a + 64) (64 * getLe h 4 2) with
      | 0 => .ok (h ++ s.read owner (a + 64) (64 * getLe h 4 2))
      | c => .error c
  | c => .error c

/-- 05 R149: what MODEL_LOAD meets before the slot becomes LOADING: its code, or the image's header and records. -/
def Node.loadCheck (s : Node) (owner i a : Nat) : Except Nat Bytes :=
  if s.slotOwner i != some owner || a % 64 != 0 || decide (2 ^ 48 ≤ a) then .error 0x0153
  else if (s.slot i).state != 0 then .error 0x0A02
  else match s.readImage owner a with
    | .error c => .error c
    | .ok b =>
      if !imageOk b then .error 0x0150
      else if 16 * fld (s.reg .casCfg) 0 6 < s.areaUsed + areaOf (readModel b).payBytes then .error 0x0330
      else .ok b

/-- MODEL_LOAD. -/
def execModelLoad (q : Fin 8192) (s : State) : Result :=
  s.runM q 0x20 fun a =>
    let n := s.node
    let i := a.item.arg 0 % 64
    match n.loadCheck (n.modelOwner a) i (a.item.arg 1) with
    | .error c => n.doneM q a (done c)
    | .ok b => (n.popM q).setSlot i
      { state := 1, refs := 0, area := areaOf (readModel b).payBytes, addr := a.item.arg 1, image := b, item := some a }

/-- The tiles whose cassettes serve. -/
def Node.casTiles (s : Node) : List Nat := (List.range 8).filter fun t => !bitAt s.power.tileRet t

/-- 05 R143, R149: a slot's image read and decrypted under its owner's model key; or the code of the key, of the read, of the
tag. -/
def Node.openImage (s : Node) (i : Nat) : Except Nat ModelCopy × Node :=
  let x := s.slot i
  let o := (s.slotOwner i).getD sysOwner
  let n := x.image.length
  match s.keyUse o with
  | 0 => match s.tierRead { owner := o, tile := 0, due := false } x.addr (n + (readModel x.image).payBytes) with
    | (.ok b, s) =>
      let key := deriveKey (natLe 32 (s.kslot o).key) [0x4D, 0x4F, 0x44, 0x4C] []
      match gcmOpen key (slice b 32 12) (b.take 32 ++ (b.take n).drop 64) (b.drop n) (slice b 48 16) with
      | some p => (.ok { image := b.take n, payload := p }, s)
      | none => (.error 0x0A01, s)
    | (.error c, s) => (.error c, s)
  | c => (.error c, s)

/-- A code with which a tier can fail the reading of an image (09 R290): of classes 0x05 to 0x0B, and no time-out, for the
reading has no deadline. -/
def imageFailure (code : Nat) : Bool := decide (0x500 ≤ code ∧ code < 0xC00) && code != 0x0B01

/-- A slot's image opened, or the code with which a tier fails its reading. -/
def Node.takeImage (s : Node) (i : Nat) (fail : Option Nat) : Except Nat ModelCopy × Node :=
  match fail.filter imageFailure with
  | some c => (.error c, s)
  | none => s.openImage i

/-- A cassette takes its copy of a slot. -/
def Node.putCopy (s : Node) (i : Nat) (k : ModelCopy) (t : Nat) : Node :=
  let c := s.tile t
  s.setTile t { c with copies := KList.put c.copies i k }

/-- MODEL_LOAD_DONE (05 R149, R153): every cassette has read the image, and no tile is in reset. `okay`: the tiers served the
reading; otherwise `code` is the failure (notes/assumptions/74.md). -/
def execModelLoadDone (slot : Fin 64) (okay : Bool) (code : Nat) (s : State) : Result :=
  let n := s.node
  let i := slot.val
  let x := n.slot i
  if x.state != 1 || !n.dataUp || (n.mgt.resets.any fun r => r.begun) then s.next n
  else
    let r := n.takeImage i (if okay then none else some code)
    let n := match r.1 with
      | .ok k => r.2.casTiles.foldl (fun n t => n.putCopy i k t) (r.2.setSlot i { x with state := 2, item := none })
      | .error _ => (r.2.setSlot i emptySlot).dropCopies i
    s.settled (match x.item with
      | some a => n.finish a (done (match r.1 with
        | .ok _ => 0
        | .error c => c))
      | none => n)

/-- 05 R153: after a reset, every READY slot is decrypted into a tile's cassette again. One whose image does not open is FAILED
on every cassette, and is logged. `lost`: the slots whose reading a tier fails, with the code. -/
def Node.reloadTile (s : Node) (lost : List (Nat × Nat)) (t : Nat) : Node :=
  ((s.cas.slots.filter fun p => p.2.state == 2).map (·.1)).foldl (fun s i => match s.takeImage i (KList.find? lost i) with
    | (.ok k, s) => s.putCopy i k t
    | (.error c, s) => ((s.setSlot i { s.slot i with state := 4 }).dropCopies i).logUnit c (unitOf 4 t)) s

/-- MODEL_UNLOAD (05 R152): a slot that is not READY or FAILED has no model to unload. -/
def execModelUnload (q : Fin 8192) (s : State) : Result :=
  s.runM q 0x21 fun a =>
    let n := s.node
    let i := a.item.arg 0 % 64
    let x := n.slot i
    if n.slotOwner i != some (n.modelOwner a) then n.doneM q a (done 0x0153)
    else if x.state != 2 && x.state != 4 then n.doneM q a (done 0x0A07)
    else (n.popM q).startUnload i (some a)

/-! ## The array (05 R154, R155) -/

/-- What waits at a cassette and may be served now, oldest first: in fixed-slot mode what comes from the window's hub, once the
cassette has passed into the window that node time is in (05 R161). -/
def Node.casLine (s : Node) (tile : Nat) : KList CasReq :=
  let c := s.tile tile
  let l := c.rest ++ c.queue
  if !s.fixedSlot then l
  else if c.window == s.now / s.casSpan then l.filter fun p => p.2.hub == 4 * tile + c.window % 4 else []

/-- 05 R155: while a batch runs, the slot of the oldest waiting request that names another one is staged. -/
def Node.stageWaiting (s : Node) (tile : Nat) : Node :=
  let c := s.tile tile
  match c.batch with
  | none => s
  | some b => match List.find? (fun (p : Nat × CasReq) => p.2.slot != b.slot) (s.casLine tile) with
    | none => s
    | some p => match KList.find? c.copies p.2.slot with
      | some k => if (c.staged.map (·.slot)) == some p.2.slot then s else s.setTile tile { c with staged := some (k.side p.2.slot) }
      | none => s

/-! ## Requests (07 R227-R229) -/

/-- A request enters its tile's queue, and its thread waits; none where the queue is full. -/
def Node.casRequest (s : Node) (n : Nat) (t : Thread) (r : CasReq) : Option Node :=
  let c := s.tile (tileOfThr n)
  if 256 ≤ c.queue.length then none
  else
    let f := s.fresh
    let s := f.2.setTile (tileOfThr n) { c with queue := KList.put c.queue f.1 r }
    let s := { s with power := { s.power with idleSince := KList.put s.power.idleSince (32 + tileOfThr n) s.clk } }
    some ((s.hold n t 0 .cas).stageWaiting (tileOfThr n))

/-- CAS.SHIFT (07 R227). -/
def execCasShift (t : Thr) (f : F4) (s : State) : Result :=
  s.f4 t 0x64 0 f 0 true [] fun n t x =>
    let m := s.node
    let i := f.imm.toNat % 64
    let st := (m.slot i).state
    if m.slotOwner i != some x.owner then .fault 0x0153 0
    else if st == 4 then m.retCode n t 0 0x0A06
    else if st != 2 then m.retCode n t 0 0x0A07
    else
      let r : CasReq := { slot := i, thr := n, ctx := t.ctx, hub := thrHub n, inputs := 0, done := 0, inAddr := 0, inLocal := false,
                          outAddr := 0, outLocal := false, staged := false, took := !x.slotRefs.contains i }
      let m := if x.slotRefs.contains i then m else (m.addRef i).setCtx t.ctx { x with slotRefs := x.slotRefs ++ [i] }
      match m.casRequest n t r with
      | some m => .done m
      | none => .stall

/-- The alignment of a record's elements (notes/assumptions/46.md). -/
def elemAlign (cf : Nat) : Nat := max 1 (cfBits cf / 8)

/-- The context has staged an encoder input (07 R204). -/
def Ctx.staged (x : Ctx) : Bool := match x.query with
  | some q => bitAt (getLe q.desc 1 1) 1
  | none => false

/-- 03 R78, 05 R158: the fp32 output of a query's encoder, converted as `VF_Q` F32, is the query's vector. -/
def Node.encoded (s : Node) (r : CasReq) (x : Ctx) (b : Bytes) : Node :=
  match x.query with
  | none => s
  | some q =>
    if !r.staged || r.slot != getLe q.desc 14 1 % 64 then s
    else match (q.shards.head?).bind s.shard with
      | none => s
      | some sh => s.setCtx r.ctx { x with query := some { q with queryVec := (convQuery 0 sh.params.vfEx sh.params.d b).getD [] } }

/-- Output `i` of a request written. The output of a query's encoder is its query vector (03 R78). -/
def Node.casOutput (s : Node) (m : Model) (r : CasReq) (i : Nat) (y : List Nat) : Except Nat Node :=
  let a := r.outAddr + i * round64 (4 * m.outElems)
  let b := y.flatMap (natLe 4)
  match s.thread r.thr, s.ctx r.ctx with
  | some t, some x =>
    let s := s.encoded r x b
    if r.outLocal then .ok (s.setThread r.thr (t.localWrite a b)) else s.uniWrite r.thr t x a b
  | _, _ => .ok s

/-- Outputs from `i` on are zero (07 R229). -/
def Node.zeroOutputs (s : Node) (m : Model) (r : CasReq) (i : Nat) : Node :=
  (List.range (r.inputs - i)).foldl (fun s j => match s.casOutput m { r with staged := false } (i + j) (List.replicate m.outElems 0) with
    | .ok s => s
    | .error _ => s) s

/-- 05 R160: a run that fails ends its query on this node. -/
def Node.runFailed (s : Node) (c code : Nat) : Node := if ((s.ctx c).bind (·.query)).isSome then s.endCtx c code else s

/-- CAS.RUN (07 R228, R229). -/
def execCasRun (t : Thr) (f : F4) (s : State) : Result :=
  s.f4 t 0x64 1 f 7 true [f.ra.toNat, f.rb.toNat, f.rc.toNat] fun n t x =>
    let m := s.node
    let i := f.imm.toNat % 64
    let md := readModel (m.slot i).image
    let k := t.reg f.rc
    let fl := f.fl.toNat
    let staged := bitAt fl 2
    let ins := (t.reg f.ra, if staged || bitAt fl 0 then 0 else k * md.inStride)
    let outs := (t.reg f.rb, if bitAt fl 1 then 0 else k * round64 (4 * md.outElems))
    if !x.slotRefs.contains i || k < 1 || 4096 < k || (staged && (!x.staged || k != 1)) then .fault 0x0178 0
    else
      .check (if staged then 0 else t.operandCode (bitAt fl 0) (t.reg f.ra) (if bitAt fl 0 then k * md.inStride else 1) (elemAlign md.inFmt)) (t.reg f.ra) <|
      .check (t.operandCode (bitAt fl 1) (t.reg f.rb) (if bitAt fl 1 then k * round64 (4 * md.outElems) else 1) 4) (t.reg f.rb) <|
      .await (m.mustWait n ins || m.mustWait n outs) <|
        let r : CasReq := { slot := i, thr := n, ctx := t.ctx, hub := thrHub n, inputs := k, done := 0, inAddr := t.reg f.ra, inLocal := bitAt fl 0
                            outAddr := t.reg f.rb, outLocal := bitAt fl 1, staged := staged, took := false }
        if (m.slot i).state == 4 then
          let m := m.zeroOutputs md r 0
          .done ((m.setThread n (((m.thread n).getD t).retire 0 0 0x0A06)).runFailed t.ctx 0x0A06)
        else match m.casRequest n t r with
          | some m => .done m
          | none => .stall

/-! ## Batches (05 R154, R155) -/

/-- Requests of one slot taken whole, in arrival order, while they fit. -/
def takeBatch : KList CasReq → Nat → List CasPart
  | [], _ => []
  | (k, r) :: l, room =>
    if r.inputs = 0 then takeBatch l room
    else if r.inputs - r.done ≤ room then ⟨k, r, r.inputs - r.done⟩ :: takeBatch l (room - (r.inputs - r.done)) else []

/-- 05 R154: the batch that the oldest request starts: a request above B_max runs alone, in consecutive batches. -/
def formBatch (q : KList CasReq) (bMax : Nat) : List CasPart :=
  match q with
  | [] => []
  | (k, r) :: l =>
    let n := r.inputs - r.done
    if bMax < r.inputs then [⟨k, r, min bMax n⟩] else ⟨k, r, n⟩ :: takeBatch (l.filter fun p => p.2.slot == r.slot) (bMax - n)

/-- The bytes of input i of a request, or the code of their read. -/
def Node.casInput (s : Node) (m : Model) (r : CasReq) (i : Nat) : Except Nat (List Nat) × Node :=
  match s.thread r.thr, s.ctx r.ctx with
  | some t, some x =>
    if r.staged then
      let b := ((x.query.map (·.encInput)).getD [])
      let n := if m.inFmt == 7 then b.length / 4 else m.inElems
      (.ok ((List.range n).map (cfElem m.inFmt b)), s)
    else match s.operand t x r.inLocal (r.inAddr + i * m.inStride) m.inStride with
      | (.ok b, s) => (.ok (m.readInput b), s)
      | (.error c, s) => (.error c, s)
  | _, _ => (.ok [], s)

/-- The elements that the inputs of a batch hold: bytes, and for an embedding the rows read (05 Table 5.7). -/
def Node.batchSize (s : Node) (m : Model) (parts : List CasPart) : Nat × Nat :=
  parts.foldl (fun (a : Nat × Nat) p => (List.range p.n).foldl (fun (a : Nat × Nat) i => match (s.casInput m p.req (p.req.done + i)).1 with
    | .ok l => (a.1 + cfBytes m.inFmt l.length, a.2 + (if m.inFmt == 7 then l.length else 0))
    | .error _ => a) a) (0, 0)

/-- 05 R161: what runs for some cycles at 1.10 GHz ends inside the window. -/
def Node.inWindow (s : Node) (cycles : Nat) : Bool :=
  !s.fixedSlot || decide (10 * cycles ≤ 11 * (s.casSpan - s.now % s.casSpan))

/-- Requests leave a cassette's queue. -/
def Cassette.take (c : Cassette) (ids : List Nat) : Cassette :=
  { c with queue := ids.foldl KList.del c.queue, rest := ids.foldl KList.del c.rest }

/-- A request ends: its thread goes on with a code; the code of a run ends a query on this node (05 R160). -/
def Node.endCas (s : Node) (tile : Nat) (r : CasReq) (code : Nat) : Node :=
  let s := { s with power := { s.power with idleSince := KList.put s.power.idleSince (32 + tile) s.clk } }
  match s.thread r.thr with
  | none => s
  | some t =>
    if t.wait != some .cas || t.ctx != r.ctx then s
    else if code ≠ 0 && decide (code < 0x500) then s.threadFault r.thr t.pc code (s.instrAt t.pc) r.inAddr
    else
      let s := s.setThread r.thr (t.retire 0 0 code)
      if code ≠ 0 && r.inputs ≠ 0 then s.runFailed r.ctx code else s

/-- 07 R227: a CAS.SHIFT that finds its slot FAILED keeps no reference that it took. -/
def Node.untake (s : Node) (r : CasReq) : Node :=
  match s.ctx r.ctx with
  | some x =>
    if r.took && x.slotRefs.contains r.slot then (s.setCtx r.ctx { x with slotRefs := x.slotRefs.filter (· != r.slot) }).dropRef r.slot else s
  | none => s

/-- A cassette serves its oldest request. -/
def Node.casStart (s : Node) (tile : Nat) : Node :=
  let c := s.tile tile
  match s.casLine tile with
  | [] => s
  | (k, r) :: l =>
    let x := s.slot r.slot
    if x.state == 4 then
      let s := s.setTile tile (c.take [k])
      (if r.inputs = 0 then s.untake r else s.zeroOutputs (readModel x.image) r r.done).endCas tile r 0x0A06
    else match KList.find? c.copies r.slot with
      | none => s
      | some y =>
        if r.inputs = 0 then
          (if s.inWindow (c.shiftCycles r.slot) then (s.setTile tile ((c.take [k]).shiftTo r.slot)).endCas tile r 0 else s)
        else
          let m := readModel y.image
          let parts := formBatch ((k, r) :: l) m.bMax
          let size := s.batchSize m parts
          if !s.inWindow (c.shiftCycles r.slot + m.cycles (sumN (parts.map (·.n))) size.1 size.2) then s
          else (s.setTile tile { ((c.take (parts.map (·.id))).shiftTo r.slot) with batch := some { slot := r.slot, parts := parts } }).stageWaiting tile

/-- CASSETTE_BATCH_START (05 R154, R155). -/
def execCassetteBatchStart (tile : Fin 8) (s : State) : Result :=
  let n := s.node
  let t := tile.val
  s.settled (if (n.tile t).batch.isSome || !n.dataUp || !bitAt n.power.pllOn t || bitAt n.power.tileRet t then n else n.casStart t)

/-! ## Runs (05 R156-R160) -/

/-- Inputs of a request run from `i` on, `n` of them: the inputs that ran, and the code that ended it. -/
def Node.runInputs (s : Node) (tile : Nat) (y : ModelCopy) (r : CasReq) : Nat → Nat → Nat × Nat × Node
  | _, 0 => (0, 0, s)
  | i, n + 1 => match s.casInput (readModel y.image) r i with
    | (.error c, s) => (0, c, s)
    | (.ok l, s) =>
      let c := s.tile tile
      let z := (readModel y.image).run y.payload l c.scales
      let s := s.setTile tile { c with scales := z.2 }
      match z.1 with
      | none => (0, 0x0A03, s)
      | some o => match s.casOutput (readModel y.image) r i o with
        | .error c => (0, c, s)
        | .ok s =>
          let s := s.setTile tile { (s.tile tile) with runs := (s.tile tile).runs + 1 }
          let z := s.runInputs tile y r (i + 1) n
          (z.1 + 1, z.2.1, z.2.2)

/-- The part of a request that a batch ran. What is left of it goes on in the next batch (05 R154). -/
def Node.endPart (s : Node) (tile : Nat) (y : ModelCopy) (p : CasPart) : Node :=
  let z := s.runInputs tile y p.req p.req.done p.n
  let r := { p.req with done := p.req.done + z.1 }
  if z.2.1 ≠ 0 then (z.2.2.zeroOutputs (readModel y.image) r r.done).endCas tile r z.2.1
  else if r.done = r.inputs then z.2.2.endCas tile r 0
  else
    let c := z.2.2.tile tile
    z.2.2.setTile tile { c with rest := KList.put c.rest p.id r }

/-- CASSETTE_BATCH_DONE (05 R156). -/
def execCassetteBatchDone (tile : Fin 8) (s : State) : Result :=
  let n := s.node
  let c := n.tile tile
  match c.batch with
  | none => s.next n
  | some b =>
    if !n.dataUp then s.next n
    else
      let n := n.setTile tile.val { c with batch := none }
      s.settled (match KList.find? c.copies b.slot with
        | some y => b.parts.foldl (fun n p => n.endPart tile.val y p) n
        | none => n)

/-- CASSETTE_WINDOW (05 R161): the window that node time has reached. -/
def execCassetteWindow (tile : Fin 8) (s : State) : Result :=
  let n := s.node
  let c := n.tile tile
  s.next (if n.fixedSlot then (n.setTile tile.val { c with window := n.now / n.casSpan }).stageWaiting tile.val else n)

end Sys2Proof.Machine
end

