-- ==== Sys2Proof/Machine/Store.lean ====
section
/-! DEFINITION. Embedding tables and their row engines (07 R224-R226; 08 R241-R257), the store function: leases, locks,
bandwidth, CXL.mem and the peer window (08 R258-R267, 17 R531). -/

namespace Sys2Proof.Machine

/-! ## Stretches over regions -/

/-- The code of a write to a stretch. -/
def Node.writeCode (s : Node) (owner a n : Nat) : Nat := firstCode ((regionParts a n).map fun p => s.memCode owner p.1 p.2 true)

/-- A stretch written; the journal has room for it. Replicas get it whole where one range holds it (08 R257). -/
def Node.storeOver (s : Node) (owner a : Nat) (b : Bytes) : Node :=
  let ps := regionParts a b.length
  let put := fun (f : Node → Nat → Nat → Bytes → Nat → Node) => ps.foldl (fun s p => f s owner p.1 (slice b (p.1 - a) p.2) (allBytes p.2)) s
  if ps.all fun p => s.replOf owner (regionOf p.1) == s.replOf owner (regionOf a) then (put Node.storeHere).replicate owner a b
  else put Node.storeAt

def Node.roomOver (s : Node) (owner a n : Nat) : Bool := (regionParts a n).all fun p => s.storeRoom owner p.1 n

/-! ## Table operations (07 R224, 08 R241, R253) -/

/-- A table descriptor (08 R241), or its code. -/
def Node.tabDesc (s : Node) (r : Reader) (a : Nat) : Except Nat TabDesc × Node :=
  if bitAt a 63 then (.error 0x0174, s)
  else match s.tierRead r a 64 with
    | (.ok b, s) => (if tabDescOk b then .ok (readTabDesc b) else .error 0x0174, s)
    | (.error c, s) => (.error c, s)

/-- 07 R224: whether a destination can hold n bytes: 0, or its code. -/
def Node.tabDst (s : Node) (t : Thread) (x : Ctx) (isLocal : Bool) (a n : Nat) : Nat :=
  if isLocal then codeIf (t.localSize < a + n) 0x0174
  else if bitAt a 63 then 0
  else if 2 ^ 48 < a + n then 0x0174
  else match s.writeCode x.owner a n with
    | 0 => 0
    | c => if c < 0x300 then 0x0174 else c

/-- A count of 8-byte words. -/
def words8 (n : Nat) (b : Bytes) : List Nat := (List.range n).map fun i => getLe b (8 * i) 8

/-- An operation with its indices, weights and records. -/
def Node.tabFill (s : Node) (t : Thread) (x : Ctx) (o : TabOp) (rb : Nat) : Except Nat TabOp × Node :=
  let n := o.count
  if o.kind < 2 then
    match s.uniRead t x rb (8 * n) with
    | (.error c, s) => (.error c, s)
    | (.ok b, s) =>
      let o := { o with indices := words8 n b }
      if o.kind == 1 && o.mode == 2 then
        match s.uniRead t x (rb + round64 (8 * n)) (4 * n) with
        | (.error c, s) => (.error c, s)
        | (.ok w, s) => (.ok { o with weights := (List.range n).map fun j => getLe w (4 * j) 4 }, s)
      else (.ok o, s)
  else
    let size := if o.kind == 2 then o.desc.updSize else o.desc.replSize
    match s.uniRead t x rb (size * n) with
    | (.error c, s) => (.error c, s)
    | (.ok b, s) =>
      let rs := (List.range n).map fun j => slice b (size * j) size
      if o.kind == 3 && !rs.all replOk then (.error 0x0101, s)
      else (.ok { o with indices := rs.map fun r => getLe r 0 8, recs := rs }, s)

/-- 07 R224: a table operation of thread n with what its descriptor gives, or its code. `kind` 0 GATHER, 1 POOL, 2 UPDATE,
3 REPLACE. -/
def Node.tabHead (s : Node) (n : Nat) (t : Thread) (x : Ctx) (kind fl count ra rb rc : Nat) (item : Option Admitted) : Except Nat TabOp × Node :=
  let isLocal := kind < 2 && bitAt fl 0
  match firstCode [t.addrCode true false ra 64, t.addrCode true false rb 8, codeIf (count < 1 || 4096 < count) 0x0174,
      if 2 ≤ kind then codeIf (rc != 0) 0x0174 else if isLocal then 0 else t.addrCode true false rc 1] with
  | 0 => match s.tabDesc x.reader ra with
    | (.error c, s) => (.error c, s)
    | (.ok d, s) =>
      let o : TabOp :=
        { ctx := t.ctx, thr := some n, kind := kind, desc := d, owner := x.owner, count := count, indices := [], recs := [], weights := []
          fmt := fld fl 1 2, mode := fld fl 3 2, dst := rc, dstLocal := isLocal, async := item.isNone && 2 ≤ kind && bitAt fl 5, item := item
          access := none, issued := s.clk, rows := [] }
      match (if kind < 2 then s.tabDst t x isLocal rc o.outSize else 0) with
      | 0 => (.ok o, s)
      | c => (.error c, s)
  | c => (.error c, s)

/-- The stretches of unified memory that an operation of a thread reads and writes as it runs (06 R182). -/
def TabOp.spans (o : TabOp) (rb : Nat) : List (Nat × Nat) :=
  (if o.kind < 2 then
    [(rb, 8 * o.count), (rb + round64 (8 * o.count), if o.kind == 1 && o.mode == 2 then 4 * o.count else 0), (o.dst, if o.dstLocal then 0 else o.outSize)]
  else [(rb, (if o.kind == 2 then o.desc.updSize else o.desc.replSize) * o.count)])

/-! ## Row engines (08 R244-R248) -/

/-- An operation goes on: its thread is inside it, or it is asynchronous (07 R203, R225). -/
def TabOp.alive (o : TabOp) : Bool := o.async || o.thr.isSome

/-- The operations that have ended leave the engines (07 R203). -/
def Node.sweepRows (s : Node) : Node :=
  let ops := s.store.ops.filter fun p => p.2.alive
  let keep := fun (r : RowOp) => (KList.find? ops r.op).isSome
  { s with store := { s.store with
      ops := ops, engines := KList.mapVals (fun _ l => l.filter keep) s.store.engines, held := s.store.held.filter keep } }

/-- 08 R244: the channel whose engine owns a row. -/
def Node.engineOf (s : Node) (o : TabOp) (idx : Nat) : Nat :=
  let ch := s.liveChannels
  ch.getD (rowOwner o.desc.base (o.indices.getD idx 0) ch.length) 0

/-- A row goes to its owner, or waits for the owners to be found again (08 R248). -/
def Node.sendRow (s : Node) (r : RowOp) : Node :=
  if s.store.remap then { s with store := { s.store with held := s.store.held ++ [r] } }
  else match KList.find? s.store.ops r.op with
    | none => s
    | some o =>
      let e := s.engineOf o r.idx
      { s with store := { s.store with engines := KList.put s.store.engines e (KList.getD s.store.engines e [] ++ [r]) } }

/-- An operation's rows go to their owners in record order (08 R245). -/
def Node.startOp (s : Node) (o : TabOp) : Nat × Node :=
  let f := s.fresh
  let s := { f.2 with store := { f.2.store with ops := KList.put f.2.store.ops f.1 o } }
  (f.1, (List.range o.count).foldl (fun s i => s.sendRow ⟨f.1, i⟩) s)

/-- 07 R225: an asynchronous operation counts as a store of its thread. -/
def Node.startAsync (s : Node) (n : Nat) (t : Thread) (o : TabOp) : Node :=
  let f := s.fresh
  let a : Access :=
    { thr := n, owner := o.owner, job := t.job, kind := 3, fn := 0, addr := o.desc.base, size := 0, dst := .none, data := [], cmp := 0, mask := 0
      x := false, acquire := false, after := [], tag := none, pc := t.pc, word := s.instrAt t.pc, issued := s.clk, begun := true
      hold := false }
  let s := { f.2 with spokes := { f.2.spokes with accesses := KList.put f.2.spokes.accesses f.1 a } }
  let r := s.startOp { o with access := some f.1 }
  if r.2.store.remap then r.2.hold n t 0 (.tab r.1) else r.2.setThread n (t.retire 0 0 0)

/-- A TAB instruction (07 R224, 08 R258). -/
def State.tab (s : State) (th : Thr) (kind : Nat) (f : F4) (fl : Nat) (legal : Bool) : Result :=
  s.f4 th 0x60 kind f fl legal [f.ra.toNat, f.rb.toNat, f.rc.toNat] fun n t x =>
    let m := s.node
    if m.dev.func == 3 then .fault 0x0341 0
    else .await (m.mustWait n (t.reg f.ra, 64)) <|
      match m.tabHead n t x kind f.fl.toNat f.imm.toNat (t.reg f.ra) (t.reg f.rb) (t.reg f.rc) none with
      | (.error c, m) => m.tierCode n t 0 c (t.reg f.ra)
      | (.ok o, m) => .await ((o.spans (t.reg f.rb)).any (m.mustWait n)) <|
        match m.tabFill t x o (t.reg f.rb) with
        | (.error c, m) => m.tierCode n t 0 c (t.reg f.rb)
        | (.ok o, m) =>
          if o.async then (if m.accessRoom n 0 then .done (m.startAsync n t o) else .stall)
          else let r := m.startOp o; .done (r.2.hold n t 0 (.tab r.1))

/-- TAB.GATHER (08 R254). -/
def execTabGather (t : Thr) (f : F4) (s : State) : Result := s.tab t 0 f 7 (fld f.fl.toNat 1 2 != 3)
/-- TAB.POOL (08 R255). -/
def execTabPool (t : Thr) (f : F4) (s : State) : Result := s.tab t 1 f 25 (fld f.fl.toNat 3 2 != 3)
/-- TAB.UPDATE (08 R249, R250). -/
def execTabUpdate (t : Thr) (f : F4) (s : State) : Result := s.tab t 2 f 32 true
/-- TAB.REPLACE (08 R256). -/
def execTabReplace (t : Thr) (f : F4) (s : State) : Result := s.tab t 3 f 32 true

/-! ## The end of rows and operations (07 R226) -/

/-- Bytes for an operation's destination, or the code of the write. -/
def Node.tabWrite (s : Node) (o : TabOp) (a : Nat) (b : Bytes) : Except Nat Node :=
  match o.thr with
  | none => .ok s
  | some n => match s.thread n with
    | none => .ok s
    | some t => match s.ctx t.ctx with
      | none => .ok s
      | some x => if o.dstLocal then .ok (s.setThread n (t.localWrite a b)) else s.uniWrite n t x a b

/-- Whether an operation's destination has room in the journal, where it needs it (09 R293). -/
def Node.tabRoom (s : Node) (o : TabOp) (a n : Nat) : Bool := o.dstLocal || bitAt o.dst 63 || s.roomOver o.owner a n

/-- The operation is over. -/
def Node.endOp (s : Node) (id : Nat) (o : TabOp) (code : Nat) : Node :=
  let s := match o.item with
    | some a => match s.ctxOf a with
      | some (c, _) =>
        let d := s.rowsDone a
        (s.dropCtx c).finish a (done code d.1 d.2)
      | none => s
    | none => match o.access with
      | some k => s.endAccess k
      | none => match o.thr with
        | some n => match s.thread n with
          | some t => s.setThread n (t.retire 0 0 code)
          | none => s
        | none => s
  { s with store := { s.store with ops := KList.del s.store.ops id } }

/-- The rows of a bag in ascending position with their weights. -/
def TabOp.bag (o : TabOp) : List (Option Bytes × Nat) :=
  (List.range o.count).map fun i => (((KList.find? o.rows i).bind (·.1)), o.weights.getD i 0)

/-- A row has ended; when it is the last, so has the operation. A row that fails with a code that its instruction does not
return faults it (07 R200). -/
def Node.endRow (s : Node) (id idx : Nat) (o : TabOp) (b : Option Bytes) (code : Nat) : Node :=
  let r := if o.kind ≠ 0 then (s, code) else
    match s.tabWrite o (o.dst + idx * o.desc.outStride o.fmt) (match b with
      | some b => gatherRow o.desc o.fmt b
      | none => List.replicate (gatherRow o.desc o.fmt []).length 0) with
    | .ok s => (s, code)
    | .error c => (s, if code = 0 then c else code)
  let o := { o with rows := KList.put o.rows idx (if o.kind == 1 then b else none, r.2) }
  let s := { r.1 with store := { r.1.store with ops := KList.put r.1.store.ops id o } }
  if r.2 ≠ 0 && r.2 < 0x300 && !o.async then
    match o.thr with
    | some n => s.threadFault n (((s.thread n).map (·.pc)).getD 0) r.2
        (s.instrAt (((s.thread n).map (·.pc)).getD 0)) (o.desc.base + o.indices.getD idx 0 * o.desc.rstride)
    | none => s
  else if o.rows.length < o.count then s
  else
    let first := ((List.find? (fun (r : Nat × (Option Bytes × Nat)) => r.2.2 != 0) o.rows).map (·.2.2)).getD 0
    if o.kind == 1 then
      match s.tabWrite o o.dst (poolRows o.desc o.mode o.count o.bag) with
      | .ok s => s.endOp id o first
      | .error c => s.endOp id o (if first = 0 then c else first)
    else s.endOp id o first

/-- The row operation that an engine does next of those of some kinds: the oldest of the 64 rows in progress that no
earlier one on the same row holds back, and that has what it waits for (08 R245, R247). -/
def Node.pickRow (s : Node) (kinds : List Nat) : List RowOp → List (Nat × Nat) → Option (RowOp × TabOp)
  | [], _ => none
  | r :: l, seen => match KList.find? s.store.ops r.op with
    | none => s.pickRow kinds l seen
    | some o =>
      let a := o.desc.base + o.indices.getD r.idx 0 * o.desc.rstride
      let room := match o.kind with
        | 0 => s.tabRoom o (o.dst + r.idx * o.desc.outStride o.fmt) (o.desc.outStride o.fmt)
        | 1 => s.tabRoom o o.dst (4 * o.desc.elems)
        | _ => s.roomOver o.owner a o.desc.rstride
      if kinds.contains o.kind && !seen.contains (o.owner, a) && room then some (r, o) else s.pickRow kinds l ((o.owner, a) :: seen)

/-- 08 R257: what a replica that is behind serves of a row record is no older than what it holds and what it served before. -/
def Node.rowServed (s : Node) (o : TabOp) (a : Nat) (b : Bytes) : Bytes × Node :=
  match s.region o.owner (regionOf a), s.replOf o.owner (regionOf a) with
  | some r, some x =>
    if bitAt r.rfl 4 && s.isReplica o.owner (regionOf a) then
      let rep := s.replica o.owner x.first
      let newer := fun (new old : Bytes) => if rverNewer (getLe new 4 4) (getLe old 4 4) then new else old
      let b := newer b (newer (s.read o.owner a o.desc.rstride) (KList.getD rep.rows a (s.read o.owner a o.desc.rstride)))
      (b, s.setReplica { rep with rows := KList.put rep.rows a b })
    else (b, s)
  | _, _ => (b, s)

/-- The reader of an operation's rows: a stall ends a row only where its context has a deadline (08 R247). -/
def Node.rowReader (s : Node) (o : TabOp) : Reader :=
  { owner := o.owner, tile := (o.thr.map fun n => tileOfThr (n % orphan)).getD 0, due := ((s.ctx o.ctx).bind (·.deadline)).isSome }

/-- A row record read by its engine, or the code with which its row ends. -/
def Node.rowRead (s : Node) (o : TabOp) (a : Nat) : Except Nat Bytes × Node :=
  match s.tierRead (s.rowReader o) a o.desc.rstride with
  | (.ok b, s) =>
    let r := s.rowServed o a b
    match if 2 ≤ o.kind then r.2.writeCode o.owner a o.desc.rstride else 0 with
    | 0 => (.ok r.1, r.2)
    | c => (.error c, r.2)
  | e => e

/-- A row engine does one row: its record's bytes go to `f`, which gives the new record, where it writes one, and the code. -/
def Node.runRow (s : Node) (e : Nat) (kinds : List Nat) (f : TabOp → Nat → Bytes → Option Bytes × Nat) : Node :=
  let s := s.sweepRows
  let l := KList.getD s.store.engines e []
  match s.pickRow kinds (l.take 64) [] with
  | none => s
  | some (r, o) =>
    let s := { s with store := { s.store with engines := KList.put s.store.engines e (l.erase r) } }
    let i := o.indices.getD r.idx 0
    let a := o.desc.base + i * o.desc.rstride
    if o.desc.rows ≤ i then s.endRow r.op r.idx o none 0x0340
    else match s.rowRead o a with
      | (.ok old, s) => match f o r.idx old with
        | (some b, c) => (s.storeOver o.owner a b).endRow r.op r.idx o (some old) c
        | (none, c) => s.endRow r.op r.idx o (if c = 0 then some old else none) c
      | (.error c, s) => s.endRow r.op r.idx o none c

/-- A row engine works while the node does. -/
def State.rowStep (s : State) (e : Fin 128) (kinds : List Nat) (f : TabOp → Nat → Bytes → Option Bytes × Nat) : Result :=
  let n := s.node
  s.settled (if n.dataUp && (n.liveChannels.contains e.val || (KList.getD n.store.engines e.val []) != []) then n.runRow e.val kinds f else n)

/-- What a record leaves of a row: the row, or `QUANT_NONFINITE` (08 R251). -/
def quantRow (r : Option Bytes) : Option Bytes × Nat :=
  match r with
  | some b => (some b, 0)
  | none => (none, 0x0A04)

/-- ROW_UPDATE_APPLY (08 R250, R251). -/
def execRowUpdateApply (eng : Fin 128) (s : State) : Result :=
  s.rowStep eng [2] fun o i old => quantRow (rowUpdate o.desc old ((o.recs.getD i []).drop 8))

/-- ROW_REPLACE_APPLY (08 R256). -/
def execRowReplaceApply (eng : Fin 128) (s : State) : Result :=
  s.rowStep eng [3] fun o i old => quantRow (rowReplace o.desc old (o.recs.getD i []))

/-- ROW_GATHER_READ (08 R245). -/
def execRowGatherRead (eng : Fin 128) (s : State) : Result := s.rowStep eng [0, 1] fun _ _ _ => (none, 0)

/-- 08 R248: the threads whose asynchronous operations have now been accepted go on. -/
def Node.acceptAsync (s : Node) : Node :=
  s.store.ops.foldl (fun s p => match p.2.thr with
    | some n => match s.thread n with
      | some t => if p.2.async && t.wait == some (.tab p.1) then s.setThread n (t.retire 0 0 0) else s
      | none => s
    | none => s) s

/-- ROW_OWNER_RECOMPUTE (08 R248). -/
def execRowOwnerRecompute (s : State) : Result :=
  let n := s.node.sweepRows
  if n.store.remap && n.dataUp && n.store.engines.all fun e => e.2.isEmpty then
    let held := n.store.held
    let n := { n with store := { n.store with held := [], remap := false } }
    s.settled ((held.foldl Node.sendRow n).acceptAsync)
  else s.next s.node

/-- REPLICA_ROW_APPLY (08 R257): the primary's next write is an owner's row record, which takes effect where its version is
newer. -/
def execReplicaRowApply (owner addr : Nat) (rcd : RowRecord) (s : State) : Result :=
  s.next (s.node.replicaApply owner addr rcd.seq rcd.bytes
    (decide (rcd.bytes.length < 8) || !rverNewer (getLe rcd.bytes 4 4) (s.node.readLe owner (addr + 4) 4)))

/-! ## Bandwidth (08 R263) -/

/-- A client's bucket filled up to now. -/
def Node.fillClient (s : Node) (c : Nat) : Node :=
  let x := s.client c
  s.setClient c { x with tokens := s.tokensOf c, filledAt := x.filledAt + s.fillTime c }

/-- Whether a client has a bandwidth limit. -/
def Node.limited (s : Node) (c : Nat) : Bool := fld (s.reg .cliBw c) 0 16 != 0

/-- A request of a client draws its size; none where it must wait. -/
def Node.draw (s : Node) (c size : Nat) : Option Node :=
  let x := s.client c
  if !x.waiting.isEmpty then none
  else if !s.limited c then some s
  else if size ≤ x.tokens then some (s.setClient c { x with tokens := x.tokens - size })
  else none

/-- A request goes to the end of its client's line. -/
def Node.queueAt (s : Node) (c size : Nat) : Nat × Node :=
  let f := s.fresh
  let x := f.2.client c
  (f.1, f.2.setClient c { x with waiting := x.waiting ++ [(f.1, size)] })

/-- An item waits for its client's bandwidth. -/
def Node.itemWaits (s : Node) (c size : Nat) (a : Admitted) : Node :=
  let r := s.queueAt c size
  { r.2 with store := { r.2.store with bwItems := KList.put r.2.store.bwItems r.1 a } }

def Node.inLine (s : Node) (a : Admitted) : Bool := s.store.bwItems.any fun p => p.2 == a

/-- A store item runs: `f`, or it waits for its client's bandwidth. -/
def Node.runItem (s : Node) (a : Admitted) (size : Nat) (f : Node → Node) : Node :=
  if s.inLine a then s
  else match s.itemClient a.item with
    | none => f s
    | some c =>
      let s := s.fillClient c
      match s.draw c size with
      | some s => f s
      | none => s.itemWaits c size a

/-! ## Table items (13 Table 13.2) -/

/-- A table item's operation, or its code: its arguments are those of its gang's first thread. -/
def Node.itemTab (s : Node) (a : Admitted) : Except Nat (TabOp × Node) :=
  match s.ctxOf a with
  | none => .error 0
  | some (_, x) => match x.threads with
    | [] => .error 0
    | n :: _ => match s.thread n with
      | none => .error 0
      | some t => match s.tabHead n t x (a.item.op - 0x18) (a.item.iflags % 64) a.item.count (a.item.arg 0) (a.item.arg 1) (a.item.arg 2) (some a) with
        | (.ok o, s) => match s.tabFill t x o (a.item.arg 1) with
          | (.ok o, s) => .ok (o, s)
          | (.error c, _) => .error c
        | (.error c, _) => .error c

/-- A table item begins. One whose operands fail faults its program, or ends with the code of its tier (07 R200). -/
def Node.beginTab (s : Node) (a : Admitted) : Node :=
  match s.itemTab a with
  | .ok (o, s) => (s.startOp o).2
  | .error 0 => s
  | .error c => match s.ctxOf a with
    | some (k, x) =>
      if 0x500 ≤ c ∧ c < 0xC00 then s.endCtx k c
      else match x.threads with
        | n :: _ => s.threadFault n (((s.thread n).map (·.pc)).getD 0) c 0 (a.item.arg 0)
        | [] => s
    | none => s

/-- The bytes of the row records that a table item moves (notes/assumptions/49.md). -/
def Node.tabSize (s : Node) (a : Admitted) : Nat :=
  match s.itemTab a with
  | .ok (o, _) => o.count * o.desc.rstride
  | .error _ => 0

/-- A table item of an OP, which its context's gang runs. -/
def State.tabItem (s : State) (ctx op : Nat) : Result :=
  let n := s.node
  match n.ctx ctx with
  | none => s.next n
  | some x => match x.adm with
    | none => s.next n
    | some a =>
      if a.item.op != op || x.threads.isEmpty || !n.dataUp || n.store.ops.any fun p => p.2.item == some a then s.next n
      else s.settled (n.runItem a (n.tabSize a) fun n => n.beginTab a)

/-- TAB_GATHER. -/
def execTabGatherItem (ctx : Nat) (s : State) : Result := s.tabItem ctx 0x18
/-- TAB_POOL. -/
def execTabPoolItem (ctx : Nat) (s : State) : Result := s.tabItem ctx 0x19
/-- TAB_UPDATE. -/
def execTabUpdateItem (ctx : Nat) (s : State) : Result := s.tabItem ctx 0x1A
/-- TAB_REPLACE. -/
def execTabReplaceItem (ctx : Nat) (s : State) : Result := s.tabItem ctx 0x1B

/-! ## Locks and atomics (08 R262, 06 R191) -/

/-- A word of a client's memory, which a lock or an atomic reads and writes: 0, or its code. -/
def Node.wordCode (s : Node) (owner a n : Nat) : Nat :=
  firstCode [codeIf (bitAt a 63) 0x0166, codeIf (2 ^ 48 ≤ a) 0x0163, s.amoCode owner a n]

/-- 08 R262: the value of a held lock. -/
def lockWord (c now : Nat) : Nat := 2 ^ 63 + c % 1024 * 2 ^ 48 + now % 2 ^ 48

/-- An item on the management cores that writes one word of a client: it completes with a code, or, when the journal has
no room, waits. -/
def Node.acquire (s : Node) (q c : Nat) (a : Admitted) : Node :=
  let o := (s.qcfg q).owner
  let w := a.item.arg 0
  let old := s.readLe o w 8
  if w % 8 ≠ 0 then s.doneM q a (done 0x0182)
  else match s.wordCode o w 8 with
    | 0 =>
      if a.item.arg 1 % 65536 ≠ (s.client c).epoch then s.doneM q a (done 0x0240 (s.client c).epoch)
      else if old ≠ 0 then s.doneM q a (done 0x0342 old)
      else if 65536 ≤ s.store.locks.length then s.doneM q a (done 0x0343)
      else
        let v := lockWord c s.now
        let s := (s.storeAt o w (natLe 8 v) (allBytes 8)).served o w s.clk 0
        let k : Lock := { owner := o, addr := w, client := c, value := v }
        let s : Node := { s with store := { s.store with locks := s.store.locks ++ [k] } }
        s.doneM q a (done 0)
    | code => s.doneM q a (done code)

def Node.release (s : Node) (q c : Nat) (a : Admitted) : Node :=
  let o := (s.qcfg q).owner
  let w := a.item.arg 0
  if w % 8 ≠ 0 then s.doneM q a (done 0x0182)
  else match s.store.locks.find? fun l => l.owner == o && l.addr == w && l.client == c with
    | none => s.doneM q a (done 0x0182)
    | some l => match s.wordCode o w 8 with
      | 0 =>
        let old := s.readLe o w 8
        let s := (s.storeAt o w (natLe 8 0) (allBytes 8)).served o w s.clk 0
        let s : Node := { s with store := { s.store with locks := s.store.locks.erase l } }
        s.doneM q a (done 0 old)
      | code => s.doneM q a (done code)

/-- STORE_AMO of an item: its result is the old word. -/
def Node.itemAmo (s : Node) (q : Nat) (a : Admitted) : Node :=
  let o := (s.qcfg q).owner
  let w := a.item.arg 0
  let fn := a.item.iflags % 32
  match firstCode [codeIf (w % amoWidth fn ≠ 0) 0x0162, s.wordCode o w (amoWidth fn)] with
  | 0 =>
    let r := s.amoAt o w fn (a.item.arg 1) (a.item.arg 2)
    (r.2.served o w s.clk 0).doneM q a (done 0 (amoResult fn r.1).toNat)
  | code => s.doneM q a (done code)

/-- What a LOCK or STORE_AMO item does once it may. -/
def Node.wordItem (s : Node) (a : Admitted) : Node :=
  let q := a.item.q
  match s.itemClient a.item with
  | none => s.doneM q a (done 0x0341)
  | some c => if a.item.op == 0x1D then s.itemAmo q a else if bitAt a.item.iflags 0 then s.release q c a else s.acquire q c a

/-- A LOCK or STORE_AMO item at the head of its queue's line. -/
def State.wordStep (s : State) (q op : Nat) (p : Admitted → Bool) : Result :=
  let n := s.node
  match n.mHead q op with
  | none => s.next n
  | some a =>
    if !p a || !n.roomOver (n.qcfg q).owner (a.item.arg 0 % 2 ^ 48) 8 then s.next n
    else s.settled (n.runItem a 8 fun n => n.wordItem a)

/-- LOCK, acquire (08 R262). -/
def execLockAcquire (q : Fin 8192) (s : State) : Result := s.wordStep q 0x1C fun a => !bitAt a.item.iflags 0
/-- LOCK, release (08 R262). -/
def execLockRelease (q : Fin 8192) (s : State) : Result := s.wordStep q 0x1C fun a => bitAt a.item.iflags 0
/-- STORE_AMO. -/
def execStoreAmo (q : Fin 8192) (s : State) : Result := s.wordStep q 0x1D fun _ => true

/-- LEASE_LAPSE (08 R260, R261). -/
def execLeaseLapse (client : Fin 1024) (s : State) : Result :=
  let n := s.node
  let x := n.client client
  s.settled (if x.live && decide (x.lastReq + 1000000 * x.term ≤ n.clk) then n.lapse client else n)

/-! ## CXL.mem and the peer window (08 R265-R267, 17 R531) -/

/-- A piece of a request: where it falls (TID and tenant-local address), where it lies in the request, and its length. -/
structure DpaPart where
  place : Option (Nat × Nat)
  off : Nat
  len : Nat
  deriving DecidableEq, Repr

/-- 08 R265: a request split at the ends of exports. -/
def dpaParts (ex : List (Nat × Nat × Nat × Nat)) : Nat → Nat → Nat → Nat → List DpaPart
  | 0, _, _, _ => []
  | fuel + 1, a, off, n =>
    if n = 0 then []
    else match locateDpa ex a with
      | none => [{ place := none, off := off, len := n }]
      | some (tid, addr, left) =>
        let k := min n left
        { place := some (tid, addr), off := off, len := k } :: dpaParts ex fuel (a + k) (off + k) (n - k)

/-- Why a piece is outside every export: its code and owner, and the client that it is a request of all the same. -/
structure Outside where
  code : Nat
  owner : Nat
  client : Option Nat
  deriving DecidableEq, Repr

/-- 08 R265: why a piece is outside every export; or its client. -/
def Node.cxlPlace (s : Node) (p : DpaPart) : Except Outside (Nat × Nat × Nat) :=
  match p.place with
  | none => .error { code := 0x0190, owner := noTid, client := none }
  | some (tid, addr) => match s.cliMatch false 0 0 tid with
    | none => .error { code := 0x0341, owner := tid, client := none }
    | some c =>
      if !s.acceptsStore then .error { code := 0x0341, owner := tid, client := none }
      else if s.keyUse tid ≠ 0 then .error { code := s.keyUse tid, owner := tid, client := some c }
      else if !((regionParts addr p.len).all fun r => (s.region tid (regionOf r.1)).isSome) then
        .error { code := 0x0190, owner := tid, client := some c }
      else .ok (c, tid, addr)

/-- A read that a CXL.mem host waits for: the deadline of R267 bounds it. -/
def CxlWait.reader (w : CxlWait) : Reader := { owner := w.owner, tile := 0, due := true }

/-- A piece is served at its tier. Its data are read, or written; a read that fails is answered with poison. -/
def Node.cxlServe (s : Node) (w : CxlWait) : Node :=
  match w.data with
  | none => match s.tierRead w.reader w.addr w.len with
    | (.ok b, s) => s.cxlAnswer (some w.client) 0 b
    | (.error c, s) => s.cxlAnswer (some w.client) c (List.replicate w.len 0)
  | some b => match s.writeCode w.owner w.addr w.len with
    | 0 => ((s.storeOver w.owner w.addr b).served w.owner w.addr w.issued 0).cxlAnswer (some w.client) 0 []
    | c => (s.logFor c w.owner).cxlAnswer (some w.client) c []

/-- A read of a FLASH region waits for its media, but for a unit that is unmapped (10 R307). -/
def Node.cxlAtTier (s : Node) (w : CxlWait) : Node :=
  let unit := fun (a : Nat) => match s.region w.owner (regionOf a) with
    | some r => r.loc * 128 + a % 2097152 / unitSize
    | none => 0
  if w.data.isNone && (regionParts w.addr w.len).any fun p => s.tierAt w.owner p.1 == 4 && (KList.find? s.flash.map (unit p.1)).isSome then
    let f := s.fresh
    { f.2 with store := { f.2.store with cxlWaits := KList.put f.2.store.cxlWaits f.1 w } }
  else s.cxlServe w

/-- One piece of a request. A request of a client restarts its lease (08 R265). -/
def Node.cxlPart (s : Node) (bar4 : Bool) (data : Option Bytes) (p : DpaPart) : Node :=
  match s.cxlPlace p with
  | .error e => ((e.client.elim s s.touchLease).logEvent (logEv e.code 0 e.owner)).cxlAnswer e.client (if data.isNone then e.code else 0)
      (if data.isNone then List.replicate p.len 0 else [])
  | .ok (c, tid, addr) =>
    let s := (s.touchLease c).fillClient c
    let w : CxlWait := { client := c, owner := tid, addr := addr, len := p.len, issued := s.clk, bar4 := bar4, data := data.map fun b => slice b p.off p.len }
    match s.draw c p.len with
    | some s => s.cxlAtTier w
    | none =>
      let r := s.queueAt c p.len
      { r.2 with store := { r.2.store with bwWaits := KList.put r.2.store.bwWaits r.1 w } }

/-- A request of a host at a device physical address. A write for which the journal has no room stays with the host. -/
def Node.cxlRequest (s : Node) (bar4 : Bool) (dpa len : Nat) (data : Option Bytes) : Node :=
  let ps := dpaParts s.exports 66 dpa 0 len
  let room := data.isNone || ps.all fun p => match s.cxlPlace p with
    | .ok (_, tid, addr) => s.roomOver tid addr p.len
    | .error _ => true
  if s.dataUp && room then ps.foldl (fun s p => s.cxlPart bar4 data p) s else s

/-- CXL.mem is up: R539's link runs it and `CAP_GB` gives it capacity. -/
def State.cxlMem (s : State) (dpa len : Nat) (nload : Nat) (data : Option Bytes) : Result :=
  let n := s.node
  if n.hif.capGb = 0 then s.next n
  else
    let n := { n with store := { n.store with nload := nload } }
    s.settled (n.cxlRequest false dpa len data)

/-- CXL_MEM_READ (08 R265). -/
def execCxlMemRead (dpa len : Nat) (nload : Fin 16) (s : State) : Result := s.cxlMem dpa len nload none
/-- CXL_MEM_WRITE (08 R265). -/
def execCxlMemWrite (dpa : Nat) (data : Bytes) (nload : Fin 16) (s : State) : Result := s.cxlMem dpa data.length nload (some data)

/-- PEER_WINDOW_ACCESS (17 R531). -/
def execPeerWindowAccess (off len : Nat) (data : Option Bytes) (s : State) : Result :=
  let n := s.node
  if 2 ^ 36 ≤ off then s.next n
  else s.settled (n.cxlRequest true (fld (n.reg .p2pBase) 0 27 * 2097152 + off) ((data.map (·.length)).getD len) data)

/-- CXL_READ_DEADLINE (08 R267). -/
def execCxlReadDeadline (id : Nat) (s : State) : Result :=
  let n := s.node
  match KList.find? n.store.cxlWaits id with
  | none => s.next n
  | some w =>
    if w.data.isNone && n.passed w.issued (fld (n.reg .stoCfg) 0 16) then
      let n := { n with store := { n.store with cxlWaits := KList.del n.store.cxlWaits id } }
      s.settled ((n.tmo w.owner).cxlLater w.client 0x0B01 (List.replicate w.len 0))
    else s.next n

/-- Requests at the head of a client's line that have ended. -/
def Node.dropEnded (s : Node) (c : Nat) : Node :=
  let x := s.client c
  let there := fun (w : Nat × Nat) => (KList.find? s.store.bwWaits w.1).isSome || (match KList.find? s.store.bwItems w.1 with
    | some a => (s.ctxOf a).isSome || (s.queue a.item.q).mItems.contains a
    | none => false)
  let gone := x.waiting.filter fun w => !there w
  let s := s.setClient c { x with waiting := x.waiting.filter there }
  { s with store := { s.store with bwItems := s.store.bwItems.filter fun p => !gone.any fun w => w.1 == p.1 } }

/-- A waiting request has what it needs besides bandwidth. -/
def Node.grantRoom (s : Node) (id : Nat) : Bool :=
  match KList.find? s.store.bwWaits id, KList.find? s.store.bwItems id with
  | some w, _ => w.data.isNone || s.roomOver w.owner w.addr w.len
  | _, some a => a.item.op < 0x1C || s.roomOver (s.qcfg a.item.q).owner (a.item.arg 0 % 2 ^ 48) 8
  | _, _ => true

/-- STORE_BANDWIDTH_GRANT (08 R263). -/
def execStoreBandwidthGrant (client : Fin 1024) (s : State) : Result :=
  let c := client.val
  let n := (s.node.fillClient c).dropEnded c
  let x := n.client c
  match x.waiting with
  | [] => s.next n
  | (id, size) :: rest =>
    if !n.dataUp || (n.limited c && decide (x.tokens < size)) || !n.grantRoom id then s.next n
    else
      let w := KList.find? n.store.bwWaits id
      let a := KList.find? n.store.bwItems id
      let n := n.setClient c { x with tokens := if n.limited c then x.tokens - size else x.tokens, waiting := rest }
      let n := { n with store := { n.store with bwWaits := KList.del n.store.bwWaits id, bwItems := KList.del n.store.bwItems id } }
      s.settled (match w, a with
        | some w, _ => n.cxlAtTier w
        | _, some a => if a.item.op < 0x1C then n.beginTab a else n.wordItem a
        | _, _ => n)

end Sys2Proof.Machine
end

