-- ==== Sys2Proof/Machine/FlashCmd.lean ====
section
/-! DEFINITION. What the media does (10 R299-R325): reads and their outcome, programs, write-backs, the flash map,
collection, folding, levelling, refresh, patrol, retirement; staging of requests that waited; the fixed-slot windows. -/

namespace Sys2Proof.Machine

/-! ## Windows (10 R301; 13 R431) -/

/-- The slot that a channel's frame is in. -/
def Node.channelSlot (s : Node) (ch : Nat) : Nat := KList.getD s.adm.flashSlot ch 0

/-- Whether background work may start on a die: in fixed-slot mode, in its channel's system window only. -/
def Node.sysWindow (s : Node) (die : Nat) : Bool := !s.fixedSlot || s.channelSlot (die % 16) == 0

/-- Whether an owner's operations may start on a die. -/
def Node.ownWindow (s : Node) (owner die : Nat) : Bool :=
  !s.fixedSlot || s.channelSlot (die % 16) == (if owner < 1024 then fld (s.reg .fsTen owner) 28 4 else 0)

/-- FLASH_SERVICE_SLOT (13 R431). -/
def execFlashServiceSlot (channel : Fin 16) (s : State) : Result :=
  let n := s.node
  let slots := fld (n.reg .isoCfg) 12 4 + 1
  s.next (if n.fixedSlot then
      { n with adm := { n.adm with flashSlot := KList.put n.adm.flashSlot channel.val ((n.channelSlot channel.val + 1) % slots) } }
    else n)

/-- FLS works: its population is acceptable, and no save or start holds it. -/
def Node.flsOn (s : Node) : Bool := s.flash.popOk && s.mgt.pfPhase == .idle && !s.dev.pewter

/-! ## Reads (10 R304, R316; 14 R447) -/

/-- A codeword decoded: counts, and the last 2^20 codewords. -/
def Node.countCodeword (s : Node) (iters : Nat) (retried : Bool) : Node :=
  let h := s.flash.health
  { s with flash := { s.flash with health := { h with
    cwRead := h.cwRead + 1, cwRetry := h.cwRetry + (if retried then 1 else 0), recent := ((iters, retried) :: h.recent).take (2 ^ 20) } } }

/-- Reads beyond every `RD_LIMIT`: a block that needs a refresh for another reason (10 R316). -/
def needsRefresh : Nat := 1000000

/-- A block is read; `hard`: a codeword of it took too much to decode. -/
def Node.readBlk (s : Node) (die b reads : Nat) (hard : Bool) : Node :=
  let x := s.blk die b
  s.setBlk die b { x with reads := if hard then max needsRefresh x.reads else x.reads + reads }

/-- 10 R316: the effort that asks for a refresh. -/
def Node.tooHard (s : Node) (iters retries : Nat) : Bool :=
  let v := s.reg .flsRdCfg
  decide (fld v 16 8 ≤ iters) || decide (fld v 8 8 ≤ retries)

/-- The unit's data are lost: its lines read as poison, but for those that staged lines cover whole. -/
def Node.poisonUnit (s : Node) (unit code : Nat) : Node :=
  match s.unitHome unit with
  | none => s
  | some (o, r) =>
    let full := (s.flash.data.filter fun x => x.jtype == 2 && x.key % 2 ^ 32 == unit && getLe x.payload 0 8 == 2 ^ 64 - 1).map fun x => x.key / 2 ^ 32
    let ls := (List.range 256).filter fun l => !full.contains l
    let s := { s with mem := { s.mem with poison := ls.foldl (fun m l => KList.put m (unitKey o r unit / 64 + l) code) s.mem.poison } }
    s.logEvent (logEv code (unitOf 6 0) (ltid o))

/-- Reads of a host that waited for a codeword of a unit are served. -/
def Node.serveCxl (s : Node) (unit cw : Nat) : Node :=
  match s.unitHome unit with
  | none => s
  | some (o, r) =>
    let lo := r * 2097152 + unit % 128 * unitSize + 4096 * cw
    let l := s.store.cxlWaits.filter fun p => p.2.owner == o && decide (lo ≤ p.2.addr ∧ p.2.addr < lo + 4096)
    l.foldl (fun s p => ({ s with store := { s.store with cxlWaits := KList.del s.store.cxlWaits p.1 } }).cxlServe p.2) s

/-- FLASH_READ_DONE (10 R304): codeword `codeword` of a unit. -/
def execFlashReadDone (unit codeword : Nat) (res : ReadOutcome) (s : State) : Result :=
  let n := s.node
  match KList.find? n.flash.map unit with
  | none => s.next n
  | some pua =>
    if !n.flsOn || 4 ≤ codeword then s.next n
    else
      let die := pua / 2 ^ 24
      let b := pua % 2 ^ 24 / max 1 n.pop.pagesPerBlock
      let page := pua % 2 ^ 24 % max 1 n.pop.pagesPerBlock
      let max' := fld (n.reg .flsRdCfg) 4 4
      let n := match res with
        | .hard i => (n.countCodeword i false).readBlk die b 1 (n.tooHard i 0)
        | .soft r i => (n.countCodeword i true).readBlk die b 1 (n.tooHard i r)
        | .rebuilt =>
          let n := (n.countCodeword 40 true).readBlk die b 1 (n.tooHard 40 max')
          let h := n.flash.health
          ({ n with flash := { n.flash with health := { h with rebuilds := h.rebuilds + 1 } } }).copyUnit die b (page, KList.getD (n.blk die b).units page outside)
        | .uncorrectable =>
          let n := (n.countCodeword 40 true).readBlk die b 1 (n.tooHard 40 max')
          let h := n.flash.health
          ({ n with flash := { n.flash with health := { h with uncorr := h.uncorr + 1 } } }).poisonUnit unit 0x0702
        | .tagFail => ((n.countCodeword 0 false).readBlk die b 1 false).poisonUnit unit 0x0907
      s.settled (n.serveCxl unit codeword)

/-- PATROL_READ (10 R317): one codeword of every page of a block; the most that one of them took. -/
def execPatrolRead (die : Fin 256) (block : Nat) (iters retries : Nat) (s : State) : Result :=
  let n := s.node
  let k := (n.blk die block).filled
  if !n.flsOn || k == 0 || (n.blk die block).pool == 0 || (n.blk die block).pool == 4 then s.next n
  else s.next (((List.range k).foldl (fun n _ => n.countCodeword iters (decide (0 < retries))) n).readBlk die block k (n.tooHard iters retries))

/-! ## Programs and retirement (10 R319) -/

/-- FLASH_PROGRAM_DONE: a failed program or erase retires its block. -/
def execFlashProgramDone (die block : Nat) (okay erase : Bool) (s : State) : Result :=
  let n := s.node
  let x := n.blk die block
  let there := decide (die < n.flash.dies) && !bitAt n.flash.dieRet die && decide (n.pop.staticBlocks ≤ block ∧ block < n.pop.blocksPerDie)
  s.settled (if okay || !n.flsOn || !there || x.pool == 4 || (erase && x.pool != 0) || (!erase && x.pool == 0) then n else n.retireBlk die block)

/-- DIE_RETIRE: a die that does not respond, or that is worn. -/
def execDieRetire (die : DieEnd) (s : State) : Result :=
  s.settled (if s.node.flsOn && (die.silent || s.node.dieWorn die.die) then s.node.retireDie die.die else s.node)

/-! ## Collection and folding (10 R313, R314) -/

/-- Whether block a goes before block b: fewer valid units, then fewer erases, then the lower number. -/
def gcBefore (a b : Nat × Nat × Nat) : Bool :=
  decide (a.2.1 < b.2.1) || (a.2.1 == b.2.1 && (decide (a.2.2 < b.2.2) || (a.2.2 == b.2.2 && decide (a.1 ≤ b.1))))

/-- 10 R314: the closed NATIVE block of a die to collect. -/
def Node.gcVictim (s : Node) (die : Nat) : Option Nat :=
  let l := ((s.dieBlocks die).filter fun b => b.2.pool == 2 && !b.2.isOpen).map fun b => (b.1, (s.validUnits die b.1).length, b.2.erases)
  ((sortBy gcBefore l).head?).map (·.1)

/-- One block collected; collection of the die goes on until `GC_HIGH`. -/
def Node.collectOne (s : Node) (die : Nat) : Node :=
  match s.gcVictim die with
  | none => s
  | some b =>
    let s := s.recycle die b
    let on := s.flash.gcOn.filter (· != die)
    { s with flash := { s.flash with gcOn := if s.dieFreePct die < fld (s.reg .flsCfg) 8 8 then die :: on else on } }

/-- GARBAGE_COLLECTION (10 R314). -/
def execGarbageCollection (die : Fin 256) (s : State) : Result :=
  let n := s.node
  let free := n.dieFreePct die
  let v := n.reg .flsCfg
  if !n.flsOn || n.flash.dies ≤ die.val || bitAt n.flash.dieRet die || !n.sysWindow die then s.next n
  else if free < fld v 8 8 && (decide (free < fld v 16 8) || n.flash.gcOn.contains die.val) then s.settled (n.collectOne die)
  else s.next n

/-- The oldest BUFFER block of a die. -/
def Node.oldestBuffer (s : Node) (die : Nat) : Option Nat :=
  ((sortBy (fun (a b : Nat × FBlock) => decide (a.2.next ≤ b.2.next)) ((s.dieBlocks die).filter fun b => b.2.pool == 1)).head?).map (·.1)

/-- SLC_FOLD (10 R313). -/
def execSlcFold (die : Fin 256) (idle : Bool) (s : State) : Result :=
  let n := s.node
  let held := (n.flash.blocks.filter fun b => b.2.pool == 1).length
  match n.oldestBuffer die with
  | some b => s.settled (if n.flsOn && n.sysWindow die && (idle || decide (n.bufLimit / 2 < held)) then n.recycle die b else n)
  | none => s.next n

/-! ## Levelling, refresh, calibration (10 R299, R315, R316) -/

/-- The units of a block programmed into a given FREE block. -/
def Node.moveInto (s : Node) (die b to' : Nat) : Node :=
  let s := s.setBlk die b { s.blk die b with isOpen := false }
  let s := s.setBlk die to' { s.blk die to' with pool := 2, isOpen := true, units := [], filled := 0, reads := 0, next := s.flash.fillSeq }
  let keep := s.flash.nextDie
  let s := (s.validUnits die b).foldl (fun s p =>
    let pua := die * 2 ^ 24 + b * s.pop.pagesPerBlock + p.1
    let r := s.programIn die to' (s.blk die to') p.2 (cellsIn s.flash.media (pua * unitSize) unitSize)
    r.2.mapDelta p.2.unit (some r.1)) s
  ({ s with flash := { s.flash with nextDie := keep } }).eraseBlk die b

/-- The programmed block of a die with the lowest erase count, and the FREE one with the highest. -/
def Node.wearPair (s : Node) (die : Nat) : Option ((Nat × FBlock) × (Nat × FBlock)) :=
  let used := (s.dieBlocks die).filter fun b => (b.2.pool == 1 || b.2.pool == 2) && !b.2.isOpen
  let free := ((List.range (s.pop.blocksPerDie - s.pop.staticBlocks)).map fun i => (s.pop.staticBlocks + i, s.blk die (s.pop.staticBlocks + i))).filter
    fun b => b.2.pool == 0
  match (sortBy (fun (a b : Nat × FBlock) => decide (a.2.erases ≤ b.2.erases)) used).head?,
      (sortBy (fun (a b : Nat × FBlock) => decide (b.2.erases ≤ a.2.erases)) free).head? with
  | some a, some b => some (a, b)
  | _, _ => none

/-- The highest erase count of a die (10 R315). -/
def Node.topErases (s : Node) (die : Nat) : Nat := ((s.dieBlocks die).map fun b => b.2.erases).foldl max 0

/-- WEAR_LEVEL_MOVE (10 R315). -/
def execWearLevelMove (die : Fin 256) (s : State) : Result :=
  let n := s.node
  let due := match KList.find? n.flash.lastMove die.val with
    | some t => n.passed t 1000000
    | none => true
  match n.wearPair die with
  | some (a, b) =>
    if n.flsOn && n.sysWindow die && due && !bitAt n.flash.dieRet die && decide (fld (n.reg .flsWlCfg) 16 16 < n.topErases die - a.2.erases)
        && decide (n.mapBytes + 64 * (n.validUnits die a.1).length ≤ mapShare) then
      let n := n.moveInto die a.1 b.1
      let h := n.flash.health
      s.settled { n with flash := { n.flash with lastMove := KList.put n.flash.lastMove die.val n.clk, health := { h with wlMoves := h.wlMoves + 1 } } }
    else s.next n
  | none => s.next n

/-- BLOCK_REFRESH (10 R316); a second one within a patrol period retires the block (10 R319). -/
def execBlockRefresh (die : Fin 256) (block : Nat) (s : State) : Result :=
  let n := s.node
  let x := n.blk die block
  let limit := 1000 * fld (n.reg .flsWlCfg) 0 16
  let period := fld (n.reg .flsRdCfg) 24 8 * 3600000000
  if !n.flsOn || !n.sysWindow die || (x.pool != 1 && x.pool != 2) || x.reads < limit then s.next n
  else
    let again := match x.refreshed with
      | some t => !n.passed t period
      | none => false
    if again then s.settled (n.retireBlk die block)
    else
      let n := n.recycle die block
      let h := n.flash.health
      s.settled (({ n with flash := { n.flash with health := { h with refreshed := h.refreshed + 1 } } }).setBlk die block
        { n.blk die block with refreshed := some n.clk })

/-- ZQ_CALIBRATION (10 R299): 250 ms after the last, on an idle die. -/
def execZqCalibration (die : Fin 256) (s : State) : Result :=
  let n := s.node
  let due := match KList.find? n.flash.zqAt die.val with
    | some t => n.passed t 250000
    | none => true
  s.next (if n.flsOn && due && decide (die.val < n.flash.dies) && !bitAt n.flash.dieRet die then
    { n with flash := { n.flash with zqAt := KList.put n.flash.zqAt die.val n.clk } } else n)

/-! ## Write-backs and the map (10 R308, R309) -/

/-- The unit that a write-back takes, where one is due: that of the oldest line. -/
def Node.writeBackDue (s : Node) : Option Nat :=
  match s.flash.data.find? fun r => r.jtype == 2 with
  | some r => if 3 * dataShare ≤ 4 * s.dataBytes || s.passed r.since 10000 then some (r.key % 2 ^ 32) else none
  | none => none

/-- 10 R314: while FREE is low on the die that comes next, a write-back follows the collection of one block. -/
def Node.collectFirst (s : Node) : Node :=
  match s.nextDie with
  | some d => if s.dieFreePct d < fld (s.reg .flsCfg) 16 8 && s.sysWindow d then s.collectOne d else s
  | none => s

/-- WRITE_BACK (10 R309). -/
def execWriteBack (s : State) : Result :=
  let n := s.node
  match n.writeBackDue with
  | some u =>
    let open' := match n.unitHome u, n.nextDie with
      | some (o, _), some d => n.ownWindow o d
      | _, _ => true
    s.settled (if n.flsOn && open' then (n.collectFirst.writeBackUnit u).serveHeld else n)
  | none => s.next n

/-- 10 R308: whether a cached map page is due. -/
def Node.pageDue (s : Node) (page : Nat) : Bool :=
  match KList.find? s.flash.dirty page with
  | none => false
  | some (k, since) =>
    decide (256 ≤ k) || s.passed since 1000000
    || (decide (3 * mapShare ≤ 4 * s.mapBytes) && ((s.flash.maps.head?).map fun r => getLe r.payload 0 4 / 1024) == some page)

/-- MAP_PAGE_WRITEBACK (10 R308). -/
def execMapPageWriteback (page : Nat) (s : State) : Result :=
  s.next (if s.node.flsOn && s.node.pageDue page then s.node.writeMapPage page else s.node)

/-! ## Requests that waited for the journal (10 R325) -/

/-- A staged line's request is acknowledged. -/
def Node.ackLine (s : Node) (k : JAck) : Node :=
  match k with
  | .none => s
  | .access id => match s.acc id with
    | none => s
    | some a => match s.localOf a with
      | .ok (o, addr) => (((s.replicate o addr (s.read o addr a.size)).served o addr a.issued (tileOfThr a.thr))).endAccess id
      | .error _ => s.endAccess id

/-- JOURNAL_STAGE (10 R325): the oldest line that waits for a share with room is staged (14 Table 14.10: a store waits only on
its own part); with none, what arrived from other nodes and waits. -/
def execJournalStage (s : State) : Result :=
  let n := s.node
  if n.flash.waits.isEmpty then s.settled n.serveHeld
  else match (if n.flsOn then n.flash.waits.find? fun w => n.dataRoom w.rcd else none) with
    | some w =>
      let n := { n with flash := { n.flash with waits := n.flash.waits.erase w } }
      s.settled (((n.stage w.rcd).applyLine w.rcd).ackLine w.ack)
    | none => s.next n

end Sys2Proof.Machine
end

