-- ==== Sys2Proof/Machine/Peloton.lean ====
section
/-! DEFINITION. The peloton (12 R382-R401): heartbeats, suspicion, votes, decisions and their consequences, beacons and
fencing; shard pairs, shard copies, swaps and replicated ranges. -/

namespace Sys2Proof.Machine

/-! ## The council and its leader (12 R384) -/

def Node.pelOn (s : Node) : Bool := bitAt (s.reg .pelCfg) 0 && s.linksUp
def Node.nCouncil (s : Node) : Nat := fld (s.reg .pelCfg) 4 3
def Node.hbUs (s : Node) : Nat := fld (s.reg .pelCfg) 13 9
def Node.missN (s : Node) : Nat := fld (s.reg .pelCfg) 9 4
def Node.council (s : Node) : List Nat := (List.range s.nCouncil).map fun i => s.reg .pelCncl i

/-- A message from a node within the last 1,000 µs; the node always has its own. -/
def Node.heardFrom (s : Node) (x : Nat) : Bool :=
  x == s.dev.node || (match KList.find? s.peloton.heard x with
    | some t => decide (s.clk ≤ t + 1000000)
    | none => false)

/-- The leader that a council member takes. -/
def Node.leaderNow (s : Node) : Option Nat := (sortBy (fun a b => decide (a ≤ b)) s.council).find? s.heardFrom
def Node.leads (s : Node) : Bool := s.council.contains s.dev.node && s.leaderNow == some s.dev.node

def Node.hear (s : Node) (x : Nat) : Node := { s with peloton := { s.peloton with heard := KList.put s.peloton.heard x s.clk } }

/-! ## Messages (12 R383, Table 12.6): PEL packets of job 0. Kinds: 1 HEARTBEAT, 2 SUSPECT, 3 VOTE, 4 DECIDE, 5 BEACON, 6
REQUEST (their layout: notes/assumptions/100.md) -/

/-- A PEL packet for a node: a word with the kind, then its fields, 8 B each but for a digest. -/
def Node.pelPacket (s : Node) (dst kind : Nat) (data : Bytes) : Packet := s.packet 10 dst 0 0 2 0 (natLe 8 kind ++ data)

def pelFields (f : List Nat) : Bytes := f.flatMap (natLe 8)

/-- A message for one node, by the route table. -/
def Node.tellPel (s : Node) (dst kind : Nat) (f : List Nat) : Node :=
  (s.sendPacket (s.pelPacket dst kind (pelFields f))).getD s

/-- A message for the neighbour at a port. -/
def Node.tellPort (s : Node) (p kind : Nat) (data : Bytes) : Node := s.sendOn p (s.pelPacket (s.port p).nbr kind data)

/-- 12 R383: a flooded message, on every UP port but the one it came by. -/
def Node.floodPel (s : Node) (kind : Nat) (f : List Nat) (but : Option Nat) : Node :=
  (s.upPorts.filter fun p => but != some p).foldl (fun s p => s.tellPort p kind (pelFields f)) s

def kindCode : DecisionKind → Nat
  | .nodeFailed => 0
  | .join => 1
  | .jobFault => 2
  | .function => 3
  | .leaving => 4
  | .absent => 5

/-! ## Decisions (12 R384-R386) -/

/-- A decision is held until its time, in sequence order. -/
def Node.holdDecision (s : Node) (h : Held) : Node :=
  { s with peloton := { s.peloton with
      pending := insertBy (fun a b => decide (a.dseq ≤ b.dseq)) h s.peloton.pending, nextDseq := max s.peloton.nextDseq (h.dseq + 1) } }

/-- The leader issues a decision. -/
def Node.issue (s : Node) (kind : DecisionKind) (subject incarn te arg : Nat) : Node :=
  let h : Held := { dseq := s.peloton.nextDseq, kind := kind, subject := subject, incarn := incarn, te := te, arg := arg }
  (s.holdDecision h).floodPel 4 [h.dseq, kindCode kind, subject, incarn, te, arg] none

/-- Votes of distinct members for one decision. -/
def Node.votesFor (s : Node) (kind : DecisionKind) (subject incarn : Nat) : List VoteMsg :=
  s.peloton.votes.filter fun v => v.kind == kind && v.subject == subject && v.incarn == incarn

/-- 12 R384: the leader decides once more than half of the council has voted. -/
def Node.tally (s : Node) (kind : DecisionKind) (subject incarn : Nat) : Node :=
  let vs := s.votesFor kind subject incarn
  if !s.leads || decide (2 * vs.length ≤ s.nCouncil) then s
  else
    let clear := fun (s : Node) => { s with peloton := { s.peloton with
      votes := s.peloton.votes.filter fun v => !(v.kind == kind && v.subject == subject && v.incarn == incarn)
      asked := s.peloton.asked.filter fun h => !(h.kind == kind && h.subject == subject && h.incarn == incarn) } }
    if kind == .nodeFailed then
      if s.peloton.pending.any (fun h => h.kind == kind && h.subject == subject && h.incarn == incarn) || (s.member subject).state == 7 then s
      else (clear s).issue kind subject incarn ((vs.map (·.tf)).foldl min (2 ^ 64 - 1) + 2000000) 0
    else match s.peloton.asked.find? fun h => h.kind == kind && h.subject == subject && h.incarn == incarn with
      | some h => (clear s).issue kind subject incarn (max h.te (s.now + 1000000)) h.arg
      | none => s

/-- A vote reaches the leader: one of each member for each subject and incarnation. -/
def Node.takeVote (s : Node) (v : VoteMsg) : Node :=
  if !s.council.contains v.member || (s.votesFor v.kind v.subject v.incarn).any fun x => x.member == v.member then s
  else ({ s with peloton := { s.peloton with votes := v :: s.peloton.votes } }).tally v.kind v.subject v.incarn

/-- This member's vote goes to the leader. -/
def Node.castVote (s : Node) (kind : DecisionKind) (subject incarn tf : Nat) : Node :=
  if s.leads then s.takeVote { member := s.dev.node, subject := subject, incarn := incarn, kind := kind, tf := tf }
  else match s.leaderNow with
    | some l => s.tellPel l 3 [s.dev.node, kindCode kind, subject, incarn, tf]
    | none => s

/-- A request at a council member: it votes, and the leader decides. -/
def Node.ask (s : Node) (h : Held) : Node :=
  let known := s.peloton.asked.any fun x => x.kind == h.kind && x.subject == h.subject && x.incarn == h.incarn
  if !s.council.contains s.dev.node || known then s
  else
    let s := if s.leads then { s with peloton := { s.peloton with asked := s.peloton.asked ++ [h] } } else s
    s.castVote h.kind h.subject h.incarn 0

/-! ## Suspicion (12 R385) -/

/-- A SUSPECT at a council member: enough distinct watchers make its vote. -/
def Node.takeSuspect (s : Node) (m : SuspectMsg) : Node :=
  let x := s.member m.subject
  let dup := s.peloton.suspects.any fun y => y.subject == m.subject && y.incarn == m.incarn && y.watcher == m.watcher
  if !s.council.contains s.dev.node || x.incarn != m.incarn || x.state == 7 then s
  else
    let s := if dup then s else { s with peloton := { s.peloton with suspects := m :: s.peloton.suspects } }
    let all := s.peloton.suspects.filter fun y => y.subject == m.subject && y.incarn == m.incarn
    if s.peloton.cast.contains (m.subject, m.incarn) || decide (2 * all.length ≤ x.nwatch) then s
    else ({ s with peloton := { s.peloton with cast := (m.subject, m.incarn) :: s.peloton.cast } }).castVote .nodeFailed m.subject m.incarn
      ((all.map fun (y : SuspectMsg) => y.tf).foldl min (2 ^ 64 - 1))

/-- The ports whose far end is a node. -/
def Node.portsTo (s : Node) (x : Nat) : List Port := (s.links.ports.filter fun p => p.2.nv && p.2.nbr == x).map (·.2)

/-- When the last heartbeat of a neighbour arrived (`clk`); since its port came UP where none has. -/
def Node.lastBeat (s : Node) (x : Nat) : Nat :=
  match s.peloton.watched.find? fun w => w.node == x with
  | some w => w.last
  | none => ((s.portsTo x).map (·.since)).foldl max 0

/-- 12 R385: a watcher's suspicion, told to each council member, once for a subject and incarnation. -/
def execHeartbeatMiss (node : Nat) (s : State) : Result :=
  let n := s.node
  let m := n.member node
  let ports := n.portsTo node
  let up := ports.any fun p => p.state == 5
  let last := n.lastBeat node
  let missed := decide (last + n.missN * n.hbUs * 1000 + 50000 ≤ n.clk)
  if !n.pelOn || ports.isEmpty || m.state == 0 || m.state == 7 || n.peloton.reported.contains (node, m.incarn) || !(missed || !up) then s.next n
  else
    let first := last + n.hbUs * 1000
    let left := (ports.map (·.since)).foldl max 0
    let t := if up then first else min first left
    let tf := n.now - (n.clk - t)
    let n := { n with peloton := { n.peloton with reported := (node, m.incarn) :: n.peloton.reported } }
    s.settled (n.council.foldl (fun n c =>
      if c == n.dev.node then n.takeSuspect ⟨node, m.incarn, n.dev.node, tf⟩ else n.tellPel c 2 [node, m.incarn, n.dev.node, tf]) n)

/-- 12 R385. -/
def execSuspect (subject incarn watcher tf : Nat) (s : State) : Result :=
  s.settled (if s.node.pelOn then (s.node.hear watcher).takeSuspect ⟨subject, incarn, watcher, tf⟩ else s.node)

/-- 12 R384. -/
def execVote (member subject incarn tf : Nat) (kind : DecisionKind) (s : State) : Result :=
  let n := s.node
  if !n.pelOn then s.next n
  else
    let n := n.hear member
    s.settled (if n.leads then n.takeVote { member := member, subject := subject, incarn := incarn, kind := kind, tf := tf } else n)

/-- 12 R383, R386: a DECIDE arrives: known ones are dropped, others are held and sent on. -/
def execDecide (d : Decision) (s : State) : Result :=
  let n := s.node
  if !n.pelOn || (n.port d.port).state != 5 || decide (d.dseq < n.peloton.dseq) || n.peloton.pending.any fun h => h.dseq == d.dseq then s.next n
  else
    let n := n.holdDecision { dseq := d.dseq, kind := d.kind, subject := d.subject, incarn := d.incarn, te := d.te, arg := d.arg }
    s.settled (n.floodPel 4 [d.dseq, (kindCode d.kind), d.subject, d.incarn, d.te, d.arg] (some d.port.val))

/-! ## Heartbeats and seal rounds (12 R383, R385, R395) -/

/-- The distinct neighbours on UP ports. -/
def Node.neighbours (s : Node) : List Nat := ((s.links.ports.filter fun p => p.2.state == 5 && p.2.nv).map fun p => p.2.nbr).dedup

/-- 12 R383: every `HB_US`, a HEARTBEAT to each UP neighbour. -/
def execHeartbeatSend (s : State) : Result :=
  let n := s.node
  if !n.pelOn || decide (n.clk < n.peloton.lastHb + n.hbUs * 1000) then s.next n
  else
    let b := pelFields [n.dev.node, n.peloton.incarn, n.peloton.state, n.dev.func] ++ natLe 16 n.digest
      ++ pelFields [n.neighbours.length, n.peloton.round, n.peloton.p50]
    let n := n.upPorts.foldl (fun n p => n.tellPort p 1 b) n
    s.next { n with peloton := { n.peloton with lastHb := n.clk } }

/-- 12 R395, R396: the spare that takes a node's roles: the lowest-numbered SPARE whose digest is the leader's. -/
def Node.spareFor (s : Node) : Option Nat :=
  (List.find? (fun (m : Nat × Member) => m.2.state == 5 && !m.2.diverged) s.peloton.members).map (·.1)

/-! ## Shard copies (12 R392) -/

/-- A partition of a sealed generation as its copy streams it. -/
def Node.partCopy (s : Node) (x : Shard) (part : Nat) (e : PartEntry) : PartCopy :=
  let o := shOwner x.id
  { part := part, sideFirst := e.sideFirst, sideBits := e.sideBits
    segs := e.segs.map fun g => { image := s.read o g.addr (((s.seg o g.addr).map (·.bytes)).getD 64), tomb := g.tomb }
    entries := (List.range (e.sideEnd - e.sideFirst)).map fun i => s.entryBytes x e.st (e.sideFirst + i) }

/-- What a receiver needs that a generation does not reference (notes/assumptions/41.md). -/
def Shard.head (x : Shard) : ShardHead :=
  { params := x.params, centroids := x.centroids, codebook := x.codebook, segSerial := x.segSerial
    plan := x.plan.map fun p => (p.topo, p.fanin, p.nlist) }

/-- The appends of a side list from one ordinal to another, as they are forwarded. -/
def Node.sendEntries (s : Node) (x : Shard) (peer part lo hi : Nat) : Node :=
  match KList.find? x.sides part with
  | none => s
  | some l => (List.range (hi - lo)).foldl (fun s i => s.emit (.shard peer (.append x.id part (lo + i) (s.entryBytes x l.st (lo + i))))) s

/-- 12 R392: the source pins its newest sealed generation, and streams what it references; then come the entries that have
been appended since, and a seal that has closed. -/
def Node.startCopy (s : Node) (sh : ShardId) (peer : Nat) (primary : Bool) : Node :=
  match s.shard sh with
  | none => { s with peloton := { s.peloton with
      copies := s.peloton.copies ++ [{ id := sh, peer := peer, sending := true, pin := none, becomesPrimary := primary }] } }
  | some x =>
    let g := s.newest sh
    let c : ShardCopy := { id := sh, peer := peer, sending := true, pin := g.map fun g => ⟨sh, x.inst, g.gen⟩, becomesPrimary := primary }
    let s := { s with peloton := { s.peloton with copies := s.peloton.copies ++ [c] } }
    let s := s.emit (.shard peer (.copyHead sh x.head))
    let s := match g with
      | some g => (s.updGen x.inst g.gen fun r => { r with pins := r.pins + 1 }).emit
          (.shard peer (.copySealed sh g.gen (g.map.map fun (e : Nat × PartEntry) => s.partCopy x e.1 e.2)))
      | none => s
    let ends := fun (g : Option GenRec) (p : Nat) => ((g.bind fun g => KList.find? g.map p).map (·.sideEnd)).getD 0
    match s.closedSeal sh with
    | some q =>
      let k := s.genOf x.inst q.gen
      let s := x.sides.foldl (fun (s : Node) (l : Nat × SideList) => s.sendEntries x peer l.1 (ends g l.1) (ends k l.1)) s
      let s := s.emit (.shard peer (.seal sh q.gen (s.sentCompactions x (s.compactionsOf q))))
      x.sides.foldl (fun (s : Node) (l : Nat × SideList) => s.sendEntries x peer l.1 (max (ends g l.1) (ends k l.1)) l.2.next) s
    | none => x.sides.foldl (fun (s : Node) (l : Nat × SideList) => s.sendEntries x peer l.1 (ends g l.1) l.2.next) s

/-- A copy is no more: its pin is released. -/
def Node.dropCopy (s : Node) (c : ShardCopy) : Node :=
  let s := { s with peloton := { s.peloton with copies := s.peloton.copies.filter (· != c) } }
  match c.pin with
  | some p => s.unpin p
  | none => s

/-- 12 R393: a copy that ends before it is valid: a receiver discards what it holds of it. -/
def Node.discardCopy (s : Node) (c : ShardCopy) : Node := if c.sending then s.dropCopy c else (s.dropCopy c).dropShard c.id

/-- The row of the shard map that names a shard's primary and standby (12 R394). -/
def Node.putRole (s : Node) (r : ShardRole) : Node :=
  { s with peloton := { s.peloton with shardMap := r :: s.peloton.shardMap.filter fun x => x.id != r.id } }

/-- A shard's roles; appends that waited for a standby that it has no more are acknowledged. -/
def Node.setRole (s : Node) (r : ShardRole) : Node :=
  let s := s.putRole r
  if s.paired r.id then s else s.tellHeld r.id fun _ => true

def Node.roleIn (s : Node) (sh : ShardId) : Option ShardRole := s.peloton.shardMap.find? fun r => r.id == sh

/-- 12 R394: a primary has moved away: its generations drain (02 R50). -/
def Node.startDrain (s : Node) (sh : ShardId) : Node :=
  { s with
    index := { s.index with gens := s.index.gens.map fun (g : GenRec) => if g.shard == sh then { g with draining := true } else g }
    peloton := { s.peloton with drains := { id := sh, since := s.clk } :: s.peloton.drains.filter fun d => d.id != sh } }

/-- The shard map names the receiver of a copy. -/
def Node.nameReceiver (s : Node) (sh : ShardId) (receiver : Nat) (primary : Bool) : Node :=
  match s.roleIn sh with
  | none => s
  | some r =>
    if primary then
      let s := s.setRole { r with primary := receiver, standby := if r.standby == some receiver then none else r.standby }
      if r.primary == s.dev.node then s.startDrain sh else s
    else s.setRole { r with standby := some receiver }

/-- Whether a node has any role here: primary, standby, or a side of a copy. -/
def Node.hasRole (s : Node) (x : Nat) : Bool :=
  (s.peloton.shardMap.any fun r => r.primary == x || r.standby == some x) || (s.peloton.repls.any fun r => r.primary == x || r.replicas.contains x)
  || (s.peloton.copies.any fun c => c.peer == x || x == s.dev.node)

/-- 12 R396: every role of a node that is swapped out has moved: its function becomes IDLE. -/
def Node.swapDone (s : Node) : Node :=
  match s.peloton.swapOut with
  | some (x, _) =>
    if s.hasRole x then s
    else
      let s := { s with peloton := { s.peloton with swapOut := none } }
      if s.leads then s.issue .function x (s.member x).incarn (s.now + 1000000) 3 else s
  | none => s

/-- 12 R392: the copy to a node is valid. A swap's copies are named at the first round seal after all of them are (R395). -/
def Node.copyValidTo (s : Node) (sh : ShardId) (peer : Nat) : Node :=
  match s.peloton.copies.find? fun c => c.id == sh && c.sending && c.peer == peer with
  | some c =>
    if !c.swap then ((s.dropCopy c).nameReceiver sh peer c.becomesPrimary).swapDone
    else if !c.valid then { s with peloton := { s.peloton with copies := s.peloton.copies.map fun x => if x == c then { c with valid := true } else x } }
    else if s.peloton.copies.all fun x => !x.swap || x.valid then
      ((s.peloton.copies.filter (·.swap)).foldl (fun s c => (s.dropCopy c).nameReceiver c.id c.peer c.becomesPrimary) s).swapDone
    else s
  | none => s

/-- 12 R394, R395: copies of this node's roles to another node. -/
def Node.moveRolesTo (s : Node) (spare : Nat) : Node :=
  let s := (s.peloton.shardMap.filter fun r => r.primary == s.dev.node).foldl (fun s r => s.startCopy r.id spare true) s
  { s with peloton := { s.peloton with copies := s.peloton.copies.map fun c => if c.sending && c.peer == spare then { c with swap := true } else c } }

/-- 12 R395, R396: a swap begins. A node that holds no filled role moves its roles without copy. -/
def Node.startSwap (s : Node) (x spare : Nat) : Node :=
  let st := (s.member x).state
  let s := { s with peloton := { s.peloton with swapOut := some (x, spare) } }
  if decide (1 ≤ st ∧ st ≤ 3) then
    let f := fun (r : ShardRole) => ({ r with
      primary := if r.primary == x then spare else r.primary
      standby := if r.standby == some x then some spare else r.standby } : ShardRole)
    ({ s with peloton := { s.peloton with shardMap := s.peloton.shardMap.map f } }).swapDone
  else if x == s.dev.node then (s.moveRolesTo spare).swapDone
  else s.swapDone

/-- The key of a report: its round and node. -/
def reportKey (round node : Nat) : Nat := round * 32768 + node

/-- 12 R395: a node has ended a round: its report is compared with the median of that round. -/
def Node.judge (s : Node) (node round p50 : Nat) : Node :=
  let all := (s.peloton.reports.filter fun p => p.1 / 32768 == round).map fun p => p.2.headD 0
  let k := if 2 * median all < p50 then KList.getD s.peloton.slow node 0 + 1 else 0
  let s := { s with peloton := { s.peloton with slow := KList.put s.peloton.slow node k } }
  if 8 ≤ k && s.leads && s.peloton.swapOut.isNone && (s.member node).state == 4 then
    match s.spareFor with
    | some x => ({ s with peloton := { s.peloton with slow := KList.del s.peloton.slow node } }).startSwap node x
    | none => s
  else s

/-- 12 R395: a report arrives; the node's last round before it is complete. -/
def Node.report395 (s : Node) (m : Heartbeat) : Node :=
  let old := s.peloton.reports.filter fun p => p.1 % 32768 == m.node && p.1 / 32768 != m.round
  if m.round == 0 || (KList.find? s.peloton.reports (reportKey m.round m.node)).isSome then s
  else
    let s := match old.getLast? with
      | some p => s.judge m.node (p.1 / 32768) (p.2.headD 0)
      | none => s
    { s with peloton := { s.peloton with
        reports := KList.put (s.peloton.reports.filter fun p => decide (m.round ≤ p.1 / 32768 + 8)) (reportKey m.round m.node) [m.p50] } }

/-- 12 R389: whether a message's incarnation is older than the entry's; or its sender has been decided FAILED under it. -/
def Node.oldMessage (s : Node) (node incarn : Nat) : Bool :=
  let m := s.member node
  (m.state == 7 && m.incarn == incarn) || decide (32767 < (incarn + 65536 - m.incarn % 65536) % 65536)

/-- 12 R385, R395, R401: a HEARTBEAT arrives. -/
def execHeartbeat (m : Heartbeat) (s : State) : Result :=
  let n := s.node
  if !n.pelOn || (n.port m.port).state != 5 then s.next n
  else if n.oldMessage m.node m.incarn then s.next { n with fabric := { n.fabric with stale := n.fabric.stale + 1 } }
  else
    let n := (n.hear m.node).seeDigest m.port m.node m.digest
    let x := n.member m.node
    let w : Watched := { node := m.node, last := n.clk, missed := 0, tf := none }
    let n := { n with peloton := { n.peloton with
      members := KList.put n.peloton.members m.node { x with nwatch := min 16 m.nwatch }
      watched := w :: n.peloton.watched.filter (fun y => y.node != m.node)
      reported := n.peloton.reported.filter fun y => y.1 != m.node } }
    s.settled (n.report395 m)

/-! ## Beacons and fencing (12 R384, R388) -/

/-- 12 R384: a leader that hears more than half of the council. -/
def execBeaconSend (s : State) : Result :=
  let n := s.node
  if !n.pelOn || !n.leads || decide (2 * (n.council.filter n.heardFrom).length ≤ n.nCouncil)
      || decide (n.clk < n.peloton.lastBeaconSent + 250000) then s.next n
  else
    let q := n.peloton.beaconSeq + 1
    let n := { n with peloton := { n.peloton with beaconSeq := q, lastBeaconSent := n.clk, beaconAt := some n.clk, leader := some n.dev.node } }
    s.next (n.floodPel 5 [n.dev.node, q, n.peloton.dseq] none)

/-- The state that this node's entry gives it. -/
def Node.ownState (s : Node) : Nat := (s.member s.dev.node).state

/-- 12 R388: a BEACON: the node is not cut off; one that was decided FAILED resets. -/
def execBeacon (leader bseq lastDecision : Nat) (port : Fin 16) (s : State) : Result :=
  let n := s.node
  if !n.pelOn || (n.port port).state != 5 || (n.peloton.leader == some leader && decide (bseq ≤ n.peloton.beaconSeq)) then s.next n
  else
    let n := n.hear leader
    let n := { n with peloton := { n.peloton with
      leader := some leader, beaconAt := some n.clk, beaconSeq := bseq, nextDseq := max n.peloton.nextDseq (lastDecision + 1) } }
    let n := n.floodPel 5 [leader, bseq, lastDecision] (some port.val)
    s.settled (if n.peloton.fenced && n.ownState == 7 then n.requestReset 6 none
      else if n.peloton.fenced then { n with peloton := { n.peloton with fenced := false, state := n.ownState } } else n)

/-- 12 R388: no valid BEACON for 1,500 µs. -/
def execFenceTimeout (s : State) : Result :=
  let n := s.node
  let st := n.peloton.state
  if !n.pelOn || n.peloton.fenced || !(decide (4 ≤ st ∧ st ≤ 6)) || decide (n.clk < n.peloton.beaconAt.getD 0 + 1500000) then s.next n
  else
    let n := (n.fabric.jobs.map (·.1)).foldl Node.faultJob n
    s.settled { n with peloton := { n.peloton with fenced := true, state := 8 } }

/-! ## The consequences of decisions (12 R375, R386, R387) -/

/-- A decision has been applied. -/
def Node.popDecision (s : Node) (h : Held) : Node :=
  { s with peloton := { s.peloton with pending := s.peloton.pending.filter (· != h), dseq := h.dseq + 1 } }

/-- 12 R394: a LEAVING decision that is due. -/
def Node.applyLeaving (s : Node) (h : Held) : Node :=
  let m := s.member h.subject
  let s := { s with peloton := { s.peloton with members := KList.put s.peloton.members h.subject { m with state := 6 },
                                                state := if h.subject == s.dev.node && !s.peloton.fenced then 6 else s.peloton.state } }
  s.popDecision h

/-- LEAVING decisions at the head that are due are applied: they have no command of their own. -/
def Node.leavingDue (s : Node) : Nat → Node
  | 0 => s
  | fuel + 1 => match s.peloton.pending with
    | h :: _ => if h.kind == .leaving && decide (h.te ≤ s.now) then (s.applyLeaving h).leavingDue fuel else s
    | [] => s

/-- 12 R386: the decision of a kind that is first in sequence and due, and its effect. -/
def State.decision (s : State) (kind : DecisionKind) (f : Held → Node → Node) : Result :=
  let n := s.node
  if !n.pelOn then s.next n
  else
    let n := n.leavingDue (n.peloton.pending.length + 1)
    match n.peloton.pending with
    | h :: _ => if h.kind == kind && decide (h.te ≤ n.now) then s.settled (f h (n.popDecision h)) else s.next n
    | [] => s.next n

/-- 12 R392: the standby is promoted: what it has persisted is committed. -/
def Node.promoteStandby (s : Node) (r : ShardRole) : Node :=
  let s := s.setRole { r with primary := s.dev.node, standby := none }
  match s.closedSeal r.id, s.shard r.id with
  | some q, some x => match s.genOf x.inst q.gen with
    | some g => if q.persisted then s.commitGen x q g else s
    | none => s
  | _, _ => s

/-- 12 Tables 12.7 and 12.9: NODE_FAILED for X at another node. -/
def Node.nodeFailed (s : Node) (x : Nat) : Node :=
  let s := (s.fabric.jobs.filter fun j => j.2.members.contains x).foldl (fun s j => s.faultJob j.1) s
  let s := (s.fabric.reqs.filter fun r => r.2.dst == x).foldl (fun s r => s.failReq r.1 0x0603 1) s
  let peer := fun (w : Window) => bitAt w.flags 5 && w.peer == x
  let lends := (s.fabric.windows.filter fun w => peer w.2 && w.2.sys && w.2.job == 0).map (·.2)
  let s := lends.foldl (fun s w => s.zero sysOwner w.lbase (w.len * 2097152)) (s.dropWindows peer)
  let s := s.giveUpOn x
  let s := (s.ctxsWhere fun _ c => match c.query with
    | some q => q.forwarded && qtagNode q.qtag == x
    | none => false).foldl Node.dropCtx s
  let s := s.lapseAll (s.cliEntries.filter fun c => (s.cliId c).remote && (s.cliId c).node == x)
  let again := fun (s : Node) (c : ShardCopy) => match (s.roleIn c.id).bind (·.standby) with
    | some b => if c.sending || b == s.dev.node then s else { s with peloton := { s.peloton with copies := s.peloton.copies ++ [{ c with peer := b, pin := none }] } }
    | none => s
  let s := (s.peloton.copies.filter fun c => c.peer == x).foldl (fun s c => again (s.discardCopy c) c) s
  let s := s.peloton.shardMap.foldl (fun s r =>
    if r.primary == x then
      if r.standby == some s.dev.node then s.promoteStandby r
      else match r.standby with
        | some b => s.setRole { r with primary := b, standby := none }
        | none => s
    else if r.standby == some x then s.setRole { r with standby := none } else s) s
  let lost := s.allRegions.filter fun r => r.2.2.tier == 3 && fld r.2.2.loc 48 15 == x
  let s := (lost.foldl (fun s r => s.loseRegion r.1 r.2.1) s).dropGrants fun g => g.node == x
  { s with
    peloton := { s.peloton with
      suspects := s.peloton.suspects.filter (fun m => m.subject != x), heard := KList.del s.peloton.heard x
      swapOut := match s.peloton.swapOut with
        | some (a, b) => if a == x || b == x then none else some (a, b)
        | none => none } }

/-- NODE_FAILED at TE (12 R387, R388). A decision about another incarnation has no effect. -/
def execNodeFailedDecision (s : State) : Result :=
  s.decision .nodeFailed fun h n =>
    let m := n.member h.subject
    if m.incarn != h.incarn then n
    else
      let n := { n with peloton := { n.peloton with members := KList.put n.peloton.members h.subject { m with state := 7 } } }
      if h.subject == n.dev.node then n.requestReset 6 none else n.nodeFailed h.subject

/-- JOIN at TE (12 R389): `arg` [0] SPARE, [2:1] the node function. -/
def execJoinDecision (s : State) : Result :=
  s.decision .join fun h n =>
    let m := n.member h.subject
    let func := fld h.arg 1 2
    let st := if func == 3 && bitAt h.arg 0 then 5 else 4
    let n := { n with peloton := { n.peloton with members := KList.put n.peloton.members h.subject { m with state := st, incarn := h.incarn, func := func } } }
    if h.subject == n.dev.node then
      { n with qspi := { n.qspi with incarn := h.incarn },
               peloton := { n.peloton with incarn := h.incarn, state := st, fenced := false, beaconAt := some n.clk } }
    else n

/-- JOB_FAULT at TE (12 R375). -/
def execJobFaultDecision (s : State) : Result := s.decision .jobFault fun h n => n.faultJob h.subject

/-- 12 R397, Table 12.10: the function changes; leases of clients that are accepted no more lapse. -/
def Node.changeFunction (s : Node) (f : Nat) : Node :=
  let s := { s with dev := { s.dev with func := f } }
  if s.acceptsStore then s else s.lapseAll s.cliEntries

/-- FUNCTION at TE (12 R397). -/
def execFunctionDecision (s : State) : Result :=
  s.decision .function fun h n =>
    let m := n.member h.subject
    let n := { n with peloton := { n.peloton with members := KList.put n.peloton.members h.subject { m with func := h.arg % 4 } } }
    if h.subject == n.dev.node then n.changeFunction (h.arg % 4) else n

/-- ABSENT (12 R394): applied at TE; the leader issues it for a LEAVING node that holds no role and no pin. -/
def execAbsentDecision (node : Nat) (s : State) : Result :=
  let n := s.node
  match n.peloton.pending with
  | h :: _ =>
    if h.kind == .absent && h.subject == node then
      s.decision .absent fun h n =>
        let m := n.member h.subject
        { n with peloton := { n.peloton with members := KList.put n.peloton.members h.subject { m with state := 0 },
                                             state := if h.subject == n.dev.node then 0 else n.peloton.state } }
    else s.next n
  | [] =>
    let pins := node == n.dev.node && n.index.gens.any fun g => g.pins != 0
    s.next (if n.pelOn && n.leads && (n.member node).state == 6 && !n.hasRole node && !pins then
      n.issue .absent node (n.member node).incarn (n.now + 1000000) 0 else n)

/-! ## Requests to the leader (12 R389, R394-R397) -/

/-- A request made: at the leader decided, otherwise sent to it. -/
def held (kind : DecisionKind) (subject incarn te arg : Nat) : Held :=
  { dseq := 0, kind := kind, subject := subject, incarn := incarn, te := te, arg := arg }

/-- 12 R389: the incarnation that a JOIN is decided under. -/
def Node.joinIncarn (s : Node) (node r : Nat) : Nat :=
  match KList.find? s.peloton.members node with
  | some m =>
    let d := (r + 65536 - m.incarn % 65536) % 65536
    if 1 ≤ d ∧ d ≤ 32767 then r else (m.incarn + 1) % 65536
  | none => r

def Node.askJoin (s : Node) (node incarn func : Nat) (spare : Bool) : Node :=
  s.ask (held .join node (s.joinIncarn node incarn) 0 (b2n spare + 2 * (func % 4)))

def execJoinRequest (node incarn func : Nat) (spare : Bool) (s : State) : Result :=
  s.settled (if s.node.pelOn then s.node.askJoin node incarn func spare else s.node)

def execJobFaultRequest (job te : Nat) (s : State) : Result :=
  s.settled (if s.node.pelOn then s.node.ask (held .jobFault job 0 te 0) else s.node)

/-- 12 R397: 0, or the refusal's code; whether the node lends and whether it serves a shard is the requester's to know. -/
def functionCode (func : Nat) (lends serves : Bool) : Nat :=
  if (lends && (func == 0 || func == 3)) || (serves && (func == 1 || func == 3)) then 0x0362 else 0

def execFunctionRequest (node func te : Nat) (lends serves : Bool) (s : State) : Result :=
  let n := s.node
  s.settled (if n.pelOn && functionCode (func % 4) lends serves == 0 then n.ask (held .function node (n.member node).incarn te (func % 4)) else n)

def execLeaveRequest (node te : Nat) (s : State) : Result :=
  s.settled (if s.node.pelOn then s.node.ask (held .leaving node (s.node.member node).incarn te 0) else s.node)

/-- 12 R396. -/
def Node.swapCode (s : Node) (x : Nat) (lends replPrimary : Bool) : Nat :=
  let st := (s.member x).state
  if !(decide (1 ≤ st ∧ st ≤ 4)) then 0x01D1
  else if lends || replPrimary || s.council.contains x then 0x0362
  else if s.spareFor.isNone then 0x0363 else 0

def Node.swapNode (s : Node) (x : Nat) : Node :=
  match s.spareFor with
  | some sp => s.startSwap x sp
  | none => s

def execSwapOutRequest (node : Nat) (lends replPrimary : Bool) (s : State) : Result :=
  let n := s.node
  s.settled (if n.pelOn && n.leads && n.swapCode node lends replPrimary == 0 then n.swapNode node else n)

/-- 12 R394: `DRAIN_MS` have passed. -/
def execDrainTimeout (sh : ShardId) (s : State) : Result :=
  let n := s.node
  match n.peloton.drains.find? fun d => d.id == sh with
  | none => s.next n
  | some d =>
    if n.passed d.since (1000 * fld (n.reg .pelCfg) 22 10) then
      let pins := n.ctxsWhere fun _ c => c.pins.any fun p => p.2.shard == sh && ((n.genOf p.2.inst p.2.gen).map (·.draining)) == some true
      s.settled ({ (n.endCtxs pins 3) with peloton := { (n.endCtxs pins 3).peloton with drains := n.peloton.drains.filter (· != d) } })
    else s.next n

/-! ## Shard-pair traffic (12 R391, R392) -/

/-- The last generation that a source has sealed is on the receiver. -/
def Node.peerPersisted (s : Node) (sh : ShardId) (gen src : Nat) : Node :=
  let isStandby := (s.roleIn sh).map (fun r => r.primary == s.dev.node && r.standby == some src) == some true
  let s := if isStandby then
      (match s.closedSeal sh with
      | some q => if q.gen == gen then s.updSeal q fun q => { q with standbyOk := true } else s
      | none => s)
    else s
  if ((s.newest sh).map (·.gen)) == some gen && (s.closedSeal sh).isNone then s.copyValidTo sh src else s

/-- 12 R392: a partition that a source has streamed is written to the receiver's own memory: its entry. -/
def Node.takePart (s : Node) (x : Shard) (c : PartCopy) : PartEntry × SideList × Node :=
  let o := shOwner x.id
  let segs := c.segs.foldl (fun (a : List SegRef × Node) g =>
    let w := a.2.putObj o x.inst g.image
    (a.1 ++ [{ addr := w.1, tombAddr := 0, tomb := g.tomb }], w.2)) ([], s)
  let t := segs.2.newStreams x c.sideFirst
  let l : SideList := { st := t.1, next := c.sideFirst + c.entries.length }
  let s := (c.entries.zip ((List.range c.entries.length).map (c.sideFirst + ·))).foldl (fun s e => s.placeEntry x l e.2 e.1) t.2
  ({ emptyEntry with st := t.1, segs := segs.1, sideFirst := c.sideFirst, sideEnd := l.next, sideBits := c.sideBits }, l, s)

/-- A sealed generation formed from what a source has streamed; generations that are pinned here stay until they retire. -/
def Node.formCopy (s : Node) (x : Shard) (gen : Nat) (parts : List PartCopy) (src : Nat) : Node :=
  if noGen ≤ gen + 1 then s
  else
    let o := shOwner x.id
    let r := parts.foldl (fun (a : KList PartEntry × KList SideList × Node) c =>
      let t := a.2.2.takePart x c
      let w := t.2.2.writeEntry o x.inst none t.1
      (KList.put a.1 c.part w.1, KList.put a.2.1 c.part t.2.1, w.2)) ([], [], s)
    let runs := r.1.flatMap fun e => e.2.st.ranges x.params e.2.sideFirst e.2.sideEnd
    let pm := r.2.2.writeMap o x.inst x.params.p [] [] r.1
    let s := pm.2.2
    let live := sumN (r.1.map fun e => s.liveOf o e.2)
    let g : GenRec := { inst := x.inst, parts := x.params.p, leaves := pm.2.1, gen := gen, state := 2, compaction := false, draining := false,
                        shard := x.id, sealTime := s.now, pmap := pm.1, pins := 0, live := live, entries := 0, map := r.1 }
    let runObjs := runs.map fun (p : Nat × Nat) =>
      ({ owner := o, inst := x.inst, addr := p.1, size := p.2, space := false, birth := none, death := none } : StoredObj)
    let objs := (s.index.objs ++ runObjs).map fun (b : StoredObj) =>
      if b.inst == x.inst && !b.space && b.birth.isNone && g.refers x.params b then { b with birth := some gen } else b
    let old := (s.index.gens.filter fun (r : GenRec) => r.inst != x.inst || (r.pins != 0 && r.gen != gen)).map fun (r : GenRec) =>
      if r.inst == x.inst then { r with state := 3 } else r
    let x := { x with openGen := gen + 1, sides := r.2.1 }
    let s := ({ s with index := { s.index with gens := old ++ [g], objs := objs } }).setShard x
    let s := (s.persistGen x g).markDead x g
    let copy : SavedRec := { inst := x.inst, gen := gen, image := g.image true }
    let s := { s with index := { s.index with saved := s.index.saved ++ [copy] } }
    s.dropSaved.freeStorage.emit (.shard src (.persisted x.id gen s.dev.node))

/-- A compaction that a seal of the primary commits: its segments written here. -/
def Node.takeCompaction (s : Node) (x : Shard) (c : CompactCopy) : Node :=
  let r := c.segs.foldl (fun (a : List Nat × Node) b => let w := a.2.putObj (shOwner x.id) x.inst b; (a.1 ++ [w.1], w.2)) ([], s)
  let s := r.2
  let serial := (c.segs.map fun b => (readSeg b).serial + 1).foldl max x.segSerial
  let k : Compaction := { shard := x.id, part := c.part, gen := c.gen, pinned := false, carried := true, sideEnd := c.sideEnd, segs := r.1,
                          origin := c.origin }
  let s := { s with index := { s.index with
    compactions := (s.index.compactions.filter fun (k : Compaction) => !(k.shard == x.id && k.part == c.part)) ++ [k] } }
  match s.shard x.id with
  | some y => s.setShard { y with segSerial := serial }
  | none => s

/-- A seal that the primary has closed closes here with the same number; one of that number that closed before was abandoned
there, and is here. -/
def Node.followSeal (s : Node) (sh : ShardId) (gen : Nat) (comps : List CompactCopy) : Node :=
  let s := match s.closedSeal sh, s.shard sh with
    | some q, some x => if q.gen == gen then s.abandonGen x q 0x0701 else s
    | _, _ => s
  match s.shard sh with
  | none => s
  | some x =>
    if x.openGen != gen || (s.closedSeal sh).isSome then s
    else
      let s := comps.foldl (fun s c => match s.shard sh with
        | some x => s.takeCompaction x c
        | none => s) s
      match s.shard sh with
      | none => s
      | some x =>
        let q : SealReq := { shard := sh, waiters := [], closed := false, gen := gen, part := comps.head?.map (·.part), since := s.clk,
                             persisted := false, standbyOk := false }
        ({ s with index := { s.index with seals := s.index.seals ++ [q] } }).closeGen x q

/-- A shard that a receiver of a copy did not have yet. -/
def Node.takeHead (s : Node) (sh : ShardId) (h : ShardHead) : Node :=
  match s.shard sh with
  | some x => s.setShard { x with segSerial := max x.segSerial h.segSerial, plan := h.plan.map fun p => ⟨p.1, p.2.1, p.2.2⟩ }
  | none => s.addShard { id := sh, inst := s.index.nextInst, params := h.params, centroids := h.centroids, codebook := h.codebook,
                         plan := h.plan.map fun p => ⟨p.1, p.2.1, p.2.2⟩, openGen := 0, sides := [], segSerial := h.segSerial }

/-- What a message of the shard stream does, at the standby, the receiver of a copy, or the primary. An append for which the
journal has no room is not taken: its sender sends it again. -/
def Node.shardMsg (s : Node) : ShardMsg → Node
  | .append sh part ordinal entry => match s.shard sh, s.follows sh with
    | some x, some p =>
      if ordinal < x.nextOrd part then s.emit (.shard p (.held sh part (x.nextOrd part) s.dev.node))
      else if ordinal == x.nextOrd part && s.appendRoom x then
        (s.pushEntry x part entry).emit (.shard p (.held sh part (ordinal + 1) s.dev.node))
      else s
    | _, _ => s
  | .held sh part next src =>
    if (s.roleIn sh).map (fun r => r.primary == s.dev.node && r.standby == some src) == some true then s.standbyHolds sh part next else s
  | .seal sh gen comps => if (s.follows sh).isSome then s.followSeal sh gen comps else s
  | .persisted sh gen src => s.peerPersisted sh gen src
  | .commit sh gen => match s.closedSeal sh, s.shard sh, s.follows sh with
    | some q, some x, some _ => match s.genOf x.inst gen with
      | some g => if q.gen == gen && q.persisted then s.commitGen x q g else s
      | none => s
    | _, _, _ => s
  | .copyHead sh h => if (s.follows sh).isSome then s.takeHead sh h else s
  | .copySealed sh gen parts => match s.shard sh, s.follows sh with
    | some x, some p => s.formCopy x gen parts p
    | _, _ => s

/-- The receiver's part of a copy ends when it has committed what the source has sealed. -/
def Node.receiverDone (s : Node) (sh : ShardId) (gen : Nat) : Node :=
  match s.peloton.copies.find? fun c => c.id == sh && !c.sending with
  | some c => if ((s.newest sh).map (·.gen)) == some gen then (s.dropCopy c).nameReceiver sh s.dev.node c.becomesPrimary else s
  | none => s

/-- SHARD_STREAM (12 R391, R392). -/
def execShardStream (m : ShardMsg) (s : State) : Result :=
  let n := s.node
  s.settled (if !n.sealUp then n else match m with
    | .copySealed sh gen _ => (n.shardMsg m).receiverDone sh gen
    | .commit sh gen => (n.shardMsg m).receiverDone sh gen
    | _ => n.shardMsg m)

/-! ## Items (13 Table 13.2) -/

/-- 12 R390, R392: the map's entry is set where the shard had none; a node that is new to it becomes a receiver of a copy,
and is named when the copy is valid (notes/assumptions/41.md). -/
def Node.pairShard (s : Node) (sh : ShardId) (primary : Nat) (standby : Option Nat) : Node :=
  let self := s.dev.node
  match s.roleIn sh with
  | none => s.setRole ⟨sh, primary, standby⟩
  | some r =>
    let newStandby := standby.filter fun b => r.standby != some b && b != r.primary
    let recv := fun (b : Bool) => ({ id := sh, peer := r.primary, sending := false, pin := none, becomesPrimary := b } : ShardCopy)
    if r.primary == self then
      let s := if standby.isNone || newStandby.isSome then s.setRole { r with standby := none } else s
      let s := if primary != self then s.startCopy sh primary true else s
      match newStandby with
      | some b => s.startCopy sh b false
      | none => s
    else if primary == self && r.standby == some self then s.setRole ⟨sh, self, standby⟩
    else if primary == self then { s with peloton := { s.peloton with copies := s.peloton.copies ++ [recv true] } }
    else if newStandby == some self then { s with peloton := { s.peloton with copies := s.peloton.copies ++ [recv false] } }
    else s.setRole ⟨sh, primary, standby⟩

/-- SHARD_PAIR (12 R390). -/
def execShardPair (q : Fin 8192) (s : State) : Result :=
  s.runM q 0x3D fun a =>
    let n := s.node
    let sh := shardOfKey (fld (a.item.arg 0) 28 10) (a.item.arg 0)
    let v := a.item.arg 1
    let sb := if bitAt v 31 then some (fld v 16 15) else none
    if sb == some (fld v 0 15) then n.doneM q a (done 0x01D1)
    else (n.pairShard sh (fld v 0 15) sb).doneM q a (done 0)

/-- REPL_SET (12 R398): eight list entries; one with bit 31 set names a replica (notes/assumptions/42.md). -/
def execReplSet (q : Fin 8192) (s : State) : Result :=
  s.runM q 0x3E fun a =>
    let n := s.node
    let o := fld (a.item.arg 0) 27 10
    let first := a.item.arg 0 % 2 ^ 27
    let l := ((List.range 8).map fun i => n.readLe (n.qcfg q).owner (a.item.arg 2 + 4 * i) 4).filter fun e => bitAt e 31
    let r : Repl := { owner := o, first := first, count := a.item.count, primary := a.item.arg 1 % 32768, replicas := l.map (· % 32768), seq := 0 }
    let old := n.peloton.repls.filter fun x => !(x.owner == o && decide (x.first < first + a.item.count) && decide (first < x.first + x.count))
    ({ n with
      peloton := { n.peloton with repls := r :: old }
      mem := { n.mem with replicas := n.mem.replicas.filter fun x => !(x.owner == o && decide (first ≤ x.region ∧ x.region < first + a.item.count)) } }).doneM q a
      (done 0)

/-- A PEL_REQUEST of a kind: done here where this node leads, sent to the leader otherwise. -/
def State.pelRequest (s : State) (q kind : Nat) (f : Node → Admitted → Nat × Node) : Result :=
  s.runM q 0x3F fun a =>
    let n := s.node
    if a.item.arg 0 != kind then n
    else if !n.pelOn then n.doneM q a (done 0)
    else if n.leads then
      let r := f n a
      r.2.doneM q a (done r.1)
    else match (if n.council.contains n.dev.node then n.leaderNow else n.peloton.leader) with
      | some l => (n.tellPel l 6 [kind, a.item.arg 1 % 32768, a.item.arg 2 % 4, a.item.arg 3]).doneM q a (done 0)
      | none => n.doneM q a (done 0)

/-- What this node knows of a node's lending and shards. -/
def Node.lendsAny (s : Node) (x : Nat) : Bool :=
  x == s.dev.node && s.fabric.windows.any fun w => bitAt w.2.flags 0 && w.2.sys && w.2.job == 0 && bitAt w.2.flags 5
def Node.servesAny (s : Node) (x : Nat) : Bool := s.peloton.shardMap.any fun r => r.primary == x || r.standby == some x

/-- PEL_REQUEST JOIN (12 R389). -/
def execPelRequestJoin (q : Fin 8192) (s : State) : Result :=
  s.pelRequest q 1 fun n a =>
    let x := a.item.arg 1 % 32768
    let inc := if x == n.dev.node then n.peloton.incarn else ((n.member x).incarn + 1) % 65536
    (0, n.askJoin x inc (a.item.arg 2 % 4) (x == n.dev.node && bitAt (n.reg .pelCfg) 7))

/-- PEL_REQUEST FUNCTION (12 R397). -/
def execPelRequestFunction (q : Fin 8192) (s : State) : Result :=
  s.pelRequest q 3 fun n a =>
    let x := a.item.arg 1 % 32768
    let f := a.item.arg 2 % 4
    match functionCode f (n.lendsAny x) (n.servesAny x) with
    | 0 => (0, n.ask (held .function x (n.member x).incarn (a.item.arg 3) f))
    | c => (c, n)

/-- PEL_REQUEST LEAVE (12 R394). -/
def execPelRequestLeave (q : Fin 8192) (s : State) : Result :=
  s.pelRequest q 4 fun n a =>
    let x := a.item.arg 1 % 32768
    (0, n.ask (held .leaving x (n.member x).incarn (a.item.arg 3) 0))

/-- PEL_REQUEST SWAP_OUT (12 R396). -/
def execPelRequestSwapOut (q : Fin 8192) (s : State) : Result :=
  s.pelRequest q 5 fun n a =>
    let x := a.item.arg 1 % 32768
    match n.swapCode x (n.lendsAny x) (n.peloton.repls.any fun r => r.primary == x) with
    | 0 => (0, n.swapNode x)
    | c => (c, n)

/-- JOB_FAULT (12 R375): asked of the leader; with the peloton off the job faults here. -/
def execJobFault (q : Fin 8192) (s : State) : Result :=
  s.runM q 0x3B fun a =>
    let n := s.node
    let j := a.item.arg 0 % 65536
    if (n.job j).isNone then n.doneM q a (done 0x01C1)
    else if !n.pelOn then (n.faultJob j).doneM q a (done 0)
    else if n.leads then (n.ask (held .jobFault j 0 0 0)).doneM q a (done 0)
    else match (if n.council.contains n.dev.node then n.leaderNow else n.peloton.leader) with
      | some l => (n.tellPel l 6 [2, j]).doneM q a (done 0)
      | none => n.doneM q a (done 0)

end Sys2Proof.Machine
end

