-- ==== Sys2Proof/Machine/Sec.lean ====
section
/-! DEFINITION. Tenancy and trust (14): the end of a destruction, key slots, SPDM, vendor operations, debug. -/

namespace Sys2Proof.Machine

/-! ## Tenants and key slots (14 R435-R440) -/

/-- The slots of models that a tenant owns and that are not EMPTY. -/
def Node.ownSlots (s : Node) (t : Nat) : List Nat := (List.range 64).filter fun i => s.slotOwner i == some t && (s.slot i).state != 0

/-- 14 R435: the last steps of a destruction, once contexts, model slots and regions are gone. -/
def execTenantDestroyComplete (tid : Fin 1024) (s : State) : Result :=
  let n := s.node
  let t := tid.val
  match KList.find? n.sec.destroying t with
  | none => s.next n
  | some _ =>
    let n := ((n.ownSlots t).filter fun i => (n.slot i).state == 2 || (n.slot i).state == 4).foldl (fun n i => n.startUnload i none) n
    let busy := n.spokes.ctxs.any (fun c => c.2.owner == t) || (n.ownSlots t) != [] || (KList.getD n.mem.regions t []) != []
    if busy then s.settled n
    else
      let n := n.zeroKey t
      s.settled { n with
        sec := { n.sec with destroying := KList.del n.sec.destroying t }
        mem := { n.mem with unmaps := n.mem.unmaps.filter fun u => u.owner != t || u.regions != [] }
        index := { n.index with objs := n.index.objs.filter (fun o => o.owner != t), objRegions := n.index.objRegions.filter fun p => p.1 != t } }

/-- 14 R440: a parity error in one copy of a slot, or in both. -/
def execKeyParityError (slot : Fin 1025) (both : Bool) (s : State) : Result :=
  let n := s.node
  let x := n.kslot slot
  if x.state == 0 then s.next n
  else if both then s.next (n.setKslot slot { x with state := 2, copies := 0 })
  else if x.state == 1 then
    s.next (n.logEvent { code := 7, unit := 0, tid := noTid, all := false, count := 1, detail := natLe 2 slot.val })
  else s.next n

/-! ## SPDM (14 R450-R455). Message codes are those of DSP0274, which the section names (notes/assumptions/43.md). -/

/-- Whether a channel exists. -/
def Node.chanUp (s : Node) : Chan → Bool
  | .pfDoe => s.hif.linkUp
  | .vfDoe _ => s.hif.linkUp && s.hif.vfEnable
  | .mctp => true

def noConn (c : Chan) : SpdmConn := { chan := c, version := false, caps := false, algs := false, request := [], nextChunk := 0, response := [] }

def Node.conn (s : Node) (c : Chan) : SpdmConn := (s.sec.conns.find? fun x => x.chan == c).getD (noConn c)

def Node.setConn (s : Node) (x : SpdmConn) : Node :=
  { s with sec := { s.sec with conns := x :: s.sec.conns.filter fun y => y.chan != x.chan } }

/-- An SPDM ERROR. -/
def Node.spdmError (s : Node) (c : Chan) (e : Nat) : Node := s.emit (.spdm c 0x7F (natLe 1 e))

/-- A response; one longer than a chunk waits for CHUNK_GET. -/
def Node.spdmReply (s : Node) (c : Chan) (code : Nat) (data : Bytes) : Node :=
  if Config.chunkSize < data.length then (s.setConn { s.conn c with response := data }).spdmError c 0x0F else s.emit (.spdm c code data)

/-- A request on a channel: 14 R434 for a VF's, then the order of negotiation. `f` answers it. -/
def State.spdm (s : State) (c : Chan) (need : SpdmConn → Bool) (f : Node → Node) : Result :=
  let n := s.node
  if !n.chanUp c then s.next n
  else
    let code := match c with
      | .vfDoe t => if (n.ten t.val).valid then 0 else 0x0102
      | _ => 0
    if code != 0 then s.next (n.emit (.spdm c 0x7F (natLe 2 code)))
    else if !need (n.conn c) then s.next (n.spdmError c 0x04)
    else s.settled (f n)

/-- `n` free bytes. -/
def Node.freeData (s : Node) (k : Nat) : Bytes × Node := Node.freeBytes k s

/-- A response of free content. -/
def Node.spdmFree (s : Node) (c : Chan) (code k : Nat) : Node :=
  let r := s.freeData k
  r.2.spdmReply c code r.1

def execGetVersion (ch : Chan) (s : State) : Result :=
  s.spdm ch (fun _ => true) fun n => (n.setConn { noConn ch with version := true }).spdmReply ch 0x04 (natLe 2 0x1200 ++ natLe 2 0x1300)

def execGetCapabilities (ch : Chan) (s : State) : Result :=
  s.spdm ch (·.version) fun n => (n.setConn { n.conn ch with caps := true }).spdmFree ch 0x61 16

/-- `offersAll`: the requester offers every algorithm of Table 14.4. -/
def execNegotiateAlgorithms (ch : Chan) (offersAll : Bool) (s : State) : Result :=
  s.spdm ch (·.caps) fun n => if offersAll then (n.setConn { n.conn ch with algs := true }).spdmFree ch 0x63 32 else n.spdmError ch 0x01

/-- Digests of the chains of slots 0 and 1. -/
def execGetDigests (ch : Chan) (s : State) : Result :=
  s.spdm ch (·.algs) fun n =>
    let r := n.freeData 48
    r.2.spdmReply ch 0x01 (r.1 ++ (if n.sec.slot1.isEmpty then [] else Sha.sha384 n.sec.slot1))

/-- A part of a chain: slot 0's content is the device's (free), slot 1's what the installer set. -/
def execGetCertificate (ch : Chan) (slot off len : Nat) (s : State) : Result :=
  s.spdm ch (·.algs) fun n =>
    if slot = 0 then n.spdmFree ch 0x02 (min len 1024)
    else if slot = 1 && !n.sec.slot1.isEmpty && decide (off < n.sec.slot1.length) then
      n.spdmReply ch 0x02 ((n.sec.slot1.drop off).take len)
    else n.spdmError ch 0x01

/-- Signed with the alias key over the requester's nonce: free bytes. -/
def execChallenge (ch : Chan) (slot nonce : Nat) (s : State) : Result :=
  s.spdm ch (·.algs) fun n => if slot ≤ 1 then n.spdmFree ch 0x03 (48 + 32 + 96 + 0 * nonce) else n.spdmError ch 0x01

/-- 14 Table 14.5: a block's digest. Block 5 is given whole; the others digest contents that the table lists. -/
def Node.measureBlock (s : Node) (i tid : Nat) : Bytes :=
  let t := s.ten tid
  let k := s.kslot tid
  match i with
  | 1 => natLe 48 s.dev.measure1
  | 2 => natLe 48 s.dev.measure2
  | 3 => natLe 48 s.dev.measure3
  | 4 => natLe 48 (Config.measured 4 [s.fuses.dbgPol, b2n s.fuses.rma, s.fuses.anchors.length, s.devId])
  | 5 => natLe 48 s.digest
  | 6 => natLe 48 (Config.measured 6 [s.sec.audSeq, leNat (match KList.find? s.sec.audit (s.sec.audSeq - 1) with
      | some r => Sha.sha384 (auditBytes r)
      | none => Sha.sha384 s.deviceKey)])
  | _ => natLe 48 (Config.measured 0x10 [tid, b2n t.valid, b2n t.kpersist, b2n t.ksrc, b2n t.consent, k.keyId, k.state,
      b2n s.fixedSlot, s.reg .fsTen tid])

/-- The blocks that a channel may read: in a session on VF t, that of tenant t too (14 R452). -/
def Node.blocksOf (s : Node) (ch : Chan) : List Nat :=
  [1, 2, 3, 4, 5, 6] ++ (match ch with
    | .vfDoe _ => if s.sec.sessions.any fun x => x.2.chan == ch && x.2.established then [0x10] else []
    | _ => [])

/-- 14 R452: one block, or all of them (index 0xFF), with a signature over the nonce. -/
def execGetMeasurements (ch : Chan) (index nonce : Nat) (s : State) : Result :=
  s.spdm ch (·.algs) fun n =>
    let tid := match ch with
      | .vfDoe t => t.val
      | _ => 0
    let l := if index = 0xFF then n.blocksOf ch else (n.blocksOf ch).filter (· == index)
    if l.isEmpty then n.spdmError ch 0x01
    else
      let sig := n.freeData (96 + 0 * nonce)
      sig.2.spdmReply ch 0x60 ((l.flatMap fun i => natLe 1 i ++ n.measureBlock i tid) ++ sig.1)

/-- 14 R454: the checks of a requester's leaf certificate. -/
def certOk (c : CertInfo) (now : Nat) : Bool :=
  c.ecdsaOk && c.chainOk && c.role.isSome && decide (c.notBefore ≤ now ∧ now ≤ c.notAfter)

/-- The act number of an SPDM message or vendor operation (notes/assumptions/25.md). -/
def spdmAct (ch : Chan) (role op : Nat) (subject target : Nat) (detail : Bytes) : AuditAct :=
  { role := role, chan := (match ch with
      | .pfDoe => 0
      | .mctp => 1
      | .vfDoe _ => 4), act := op, subject := natLe 16 subject, target := target, detail := slice detail 0 32 }

def roleCode (r : Option Role) : Nat := (r.map Role.code).getD 4

/-- 14 R451, R454: KEY_EXCHANGE, with mutual authentication where the requester has a certificate. -/
def execKeyExchange (ch : Chan) (cert : Option CertInfo) (s : State) : Result :=
  s.spdm ch (·.algs) fun n =>
    match KList.firstFree n.sec.sessions 8 0 with
    | none => n.spdmError ch 0x0A
    | some i =>
      let bad := (cert.map fun c => certOk c n.now) == some false
      let sub := (cert.map (·.subject)).getD 0
      if bad then (n.audit (spdmAct ch (roleCode (cert.bind (·.role))) 0xE4 sub 0 []) 0x0203).emit (.vendor i 0x0203)
      else
        let x : Session := { chan := ch, role := cert.bind (·.role), subject := sub, established := false, lastBeat := n.clk, keyGen := 0 }
        ({ n with sec := { n.sec with sessions := KList.put n.sec.sessions i x } }).spdmFree ch 0x64 256

def Node.session (s : Node) (i : Nat) : Option Session := KList.find? s.sec.sessions i

def Node.setSession (s : Node) (i : Nat) (x : Session) : Node := { s with sec := { s.sec with sessions := KList.put s.sec.sessions i x } }

def Node.dropSession (s : Node) (i : Nat) : Node := { s with sec := { s.sec with sessions := KList.del s.sec.sessions i } }

/-- A message inside a session. -/
def State.inSession (s : State) (i : Nat) (est : Bool) (f : Node → Session → Node) : Result :=
  match s.node.session i with
  | some x => if x.established == est && s.node.chanUp x.chan then s.settled (f s.node x) else s.next s.node
  | none => s.next s.node

/-- FINISH; `macOk`: its MAC verifies. -/
def execFinish (session : Nat) (macOk : Bool) (s : State) : Result :=
  s.inSession session false fun n x =>
    if macOk then (n.setSession session { x with established := true, lastBeat := n.clk }).spdmReply x.chan 0x65 []
    else (n.dropSession session).spdmError x.chan 0x06

def execSpdmHeartbeat (session : Nat) (s : State) : Result :=
  s.inSession session true fun n x => (n.setSession session { x with lastBeat := n.clk }).spdmReply x.chan 0x68 []

/-- 14 R451, R455: no heartbeat for its period of 10 s. -/
def execSpdmHeartbeatTimeout (session : Nat) (s : State) : Result :=
  match s.node.session session with
  | some x => s.next (if s.node.passed x.lastBeat 10000000 then s.node.dropSession session else s.node)
  | none => s.next s.node

def execKeyUpdate (session : Nat) (s : State) : Result :=
  s.inSession session true fun n x => (n.setSession session { x with keyGen := x.keyGen + 1 }).spdmReply x.chan 0x69 []

def execEndSession (session : Nat) (s : State) : Result :=
  s.inSession session true fun n x => (n.dropSession session).spdmReply x.chan 0x6C []

/-- A certificate signing request: free bytes. -/
def execGetCsr (ch : Chan) (s : State) : Result := s.spdm ch (·.algs) fun n => n.spdmFree ch 0x6D 256

/-- 14 R450, R457: the installer sets the chain of slot 1. -/
def execSetCertificate (session slot : Nat) (chain : Bytes) (s : State) : Result :=
  s.inSession session true fun n x =>
    let code := if x.role != some .installer then 0x0202 else if slot != 1 then 0x0203 else 0
    let r := n.privileged (spdmAct x.chan (roleCode x.role) 0xEE x.subject slot (Sha.sha384 chain)) code
      fun n => { n with sec := { n.sec with slot1 := chain } }
    if r.1 = 0 then r.2.spdmReply x.chan 0x6E [] else r.2.spdmError x.chan 0x01

/-- A chunk of a large request; the last one completes it, and what the request asks arrives as its own command. -/
def execChunkSend (ch : Chan) (seq : Nat) (data : Bytes) (last : Bool) (s : State) : Result :=
  s.spdm ch (·.algs) fun n =>
    let c := n.conn ch
    if seq != (if c.request.isEmpty then 0 else c.nextChunk) then n.spdmError ch 0x01
    else
      let c := if last then { c with request := [], nextChunk := 0 } else { c with request := c.request ++ data, nextChunk := seq + 1 }
      (n.setConn c).emit (.spdm ch 0x05 (natLe 2 seq))

/-- A chunk of a large response. -/
def execChunkGet (ch : Chan) (seq : Nat) (s : State) : Result :=
  s.spdm ch (·.algs) fun n =>
    let c := n.conn ch
    let off := seq * Config.chunkSize
    if c.response.length ≤ off then n.spdmError ch 0x01
    else n.emit (.spdm ch 0x06 (natLe 2 seq ++ (c.response.drop off).take Config.chunkSize))

/-! ## Vendor-defined operations (14 R453, Table 14.6) -/

/-- An operation in a session: `AUTH_NO_SESSION` outside a session of its kind. -/
def State.vendor (s : State) (i : Nat) (kind : Session → Bool) (f : Node → Session → Nat × Node) : Result :=
  match s.node.session i with
  | some x =>
    if !s.node.chanUp x.chan then s.next s.node
    else if x.established && kind x then
      let r := f s.node x
      s.settled (r.2.emit (.vendor i r.1))
    else s.next (s.node.emit (.vendor i 0x0202))
  | none => s.next (s.node.emit (.vendor i 0x0202))

/-- A TID has no region, model slot or index shard (14 R437). -/
def Node.keyIdle (s : Node) (t : Nat) : Bool :=
  (KList.getD s.mem.regions t []).isEmpty && ((List.range 64).all fun i => s.slotOwner i != some t)
  && s.index.shards.all fun x => x.id.tid.val != t

/-- 14 R434, R437, R440: whether a key may be loaded. -/
def Node.keyLoadCode (s : Node) (t key : Nat) : Nat :=
  let k := s.kslot t
  if !(s.ten t).valid then 0x0102
  else match k.state with
    | 2 => if k.keyId == keyIdOf key then 0 else 0x0906
    | 1 => if k.keyId == keyIdOf key || s.keyIdle t then 0 else 0x0903
    | _ => 0

/-- SET_TENANT_KEY. -/
def execSetTenantKey (session : Nat) (kpersist : Bool) (tid : Fin 1024) (key : Nat) (s : State) : Result :=
  s.vendor session (fun x => x.chan matches .vfDoe _ || x.role == some .operator) fun n x =>
    let t := match x.chan with
      | .vfDoe t => t.val
      | _ => tid.val
    let oper := !(x.chan matches .vfDoe _)
    let key := key % 2 ^ 256
    n.privileged (spdmAct x.chan (if oper then 1 else 4) 1 (if oper then x.subject else t) t (natLe 8 (keyIdOf key)))
      (n.keyLoadCode t key) fun n =>
        let n := n.setKslot t { state := 1, key := key, keyId := keyIdOf key, copies := 3 }
        let n := n.setTen t { n.ten t with kpersist := kpersist, ksrc := oper }
        let ps := if kpersist then KList.put n.sec.persisted t { key := key, measure := n.dev.measure2 } else KList.del n.sec.persisted t
        { n with sec := { n.sec with persisted := ps } }

/-- The halted threads that a test does not name resume. -/
def Node.resume (s : Node) (p : Nat → Bool) : Node := { s with sec := { s.sec with halted := s.sec.halted.filter fun n => !p n } }

def Node.ownerOfThr (s : Node) (n : Nat) : Option Nat := ((s.thread n).bind fun t => s.ctx t.ctx).map (·.owner)

/-- SET_CONSENT (14 R460). -/
def execSetConsent (session : Nat) (consent : Bool) (s : State) : Result :=
  s.vendor session (fun x => x.chan matches .vfDoe _) fun n x =>
    let t := match x.chan with
      | .vfDoe t => t.val
      | _ => 0
    n.privileged (spdmAct x.chan 4 2 t t (natLe 1 (b2n consent))) (if (n.ten t).valid then 0 else 0x0102) fun n =>
      let n := n.setTen t { n.ten t with consent := consent }
      if consent then n else n.resume fun k => n.ownerOfThr k == some t

/-- REG_READ. -/
def execRegRead (session off width : Nat) (s : State) : Result :=
  s.vendor session (fun x => x.chan == .mctp && x.role.isSome) fun n _ => (0, n.readReg (.mctp session) off width)

/-- REG_WRITE. -/
def execRegWrite (session off width value : Nat) (s : State) : Result :=
  s.vendor session (fun x => x.chan == .mctp && x.role.isSome) fun n _ => (0, n.regWrite (.mctp session) off width value false)

/-- SET_ANCHOR (14 R456): in bench mode without a session while every slot is empty; else by the installer, signed. -/
def execSetAnchor (session : Option Nat) (digest : Nat) (sigOk : Bool) (s : State) : Result :=
  let n := s.node
  let x := session.bind n.session
  let inst := (x.map fun x => x.established && x.role == some .installer) == some true
  let first := n.fuses.anchors.isEmpty
  let ch := (x.map (·.chan)).getD .pfDoe
  let i := session.getD 8
  if !(inst || (first && n.dev.bench)) then s.next (n.emit (.vendor i 0x0202))
  else
    let code := if first then (if n.dev.bench then 0 else 0x0203) else if 4 ≤ n.fuses.anchors.length || !sigOk then 0x0203 else 0
    let r := n.privileged (spdmAct ch 2 5 ((x.map (·.subject)).getD 0) n.fuses.anchors.length (natLe 32 digest)) code fun n =>
      { n with fuses := { n.fuses with anchors := n.fuses.anchors ++ [digest % 2 ^ 384] } }
    s.next (r.2.emit (.vendor i r.1))

/-- DEBUG_TOKEN (14 R460). SEC issues another challenge after one is used: a free one. -/
def execDebugToken (session : Nat) (tok : Token) (s : State) : Result :=
  s.vendor session (fun x => x.role == some .installer) fun n x =>
    let ok := tok.serialOk && tok.sigOk && tok.challenge == n.sec.challenge && decide (n.now < tok.expiry)
    n.privileged (spdmAct x.chan 2 6 x.subject 0 (natLe 8 tok.expiry)) (if ok then 0 else 0x0204) fun n =>
      let r := n.free
      { r.2 with sec := { n.sec with token := some { expiry := tok.expiry }, challenge := r.1 % 2 ^ 128 } }

/-- 14 R460: a token's expiry passes. -/
def execDebugTokenExpiry (s : State) : Result :=
  let n := s.node
  match n.sec.token with
  | some t => s.next (if t.expiry ≤ n.now then { n with sec := { n.sec with token := none } } else n)
  | none => s.next n

/-- MAKER_TOKEN (14 R461): strap code 12 is that of return analysis (15 Table 15.7). -/
def execMakerToken (session : Nat) (tok : Token) (s : State) : Result :=
  s.vendor session (fun x => x.role == some .maker) fun n x =>
    let ok := tok.serialOk && tok.sigOk && n.dev.strap == 12
    n.privileged (spdmAct x.chan 3 7 x.subject 0 []) (if ok then 0 else 0x0204) fun n =>
      { n with
        sec := { n.sec with kslots := [], persisted := [] }
        fuses := { n.fuses with rma := true }
        dev := { n.dev with unlocked := true } }

/-! ## JTAG (14 R458-R461, 17 R555) -/

/-- BYPASS: one bit of delay. -/
def execBypass (tdi : List Bool) (s : State) : Result :=
  let n := s.node
  let out := ((false :: tdi).take tdi.length).foldr (fun b a => b2n b + 2 * a) 0
  s.next (({ n with hif := { n.hif with jtagIr := 1 } }).emit (.jtag out))

/-- IDCODE. -/
def execIdcode (s : State) : Result := s.next (({ s.node with hif := { s.node.hif with jtagIr := 2 } }).emit (.jtag 0x10E039E7))

/-- An access that Table 14.8 does not allow: all ones, audited. -/
def Node.jtagDenied (s : Node) (act target : Nat) : Node :=
  (s.audit { role := 5, chan := 2, act := act, subject := natLe 16 0, target := target, detail := [] } 0x0204).emit (.jtag (2 ^ 64 - 1))

/-- Data that the spec does not lay out: free. -/
def Node.jtagData (s : Node) : Node :=
  let r := s.free
  r.2.emit (.jtag r.1)

/-- The node is held in L2. -/
def Node.heldL2 (s : Node) : Bool := s.mgt.resets.any fun r => r.begun && r.level == 2

/-- SAMPLE/PRELOAD: the boundary cells are not laid out. -/
def execSamplePreload (pins : Nat) (s : State) : Result :=
  let n := s.node
  s.next (if n.sec.token.isSome && n.heldL2 then ({ n with hif := { n.hif with jtagIr := 3 } }).jtagData else n.jtagDenied 3 pins)

/-- EXTEST: the board pins driven from the cells (17 Table 17.11). -/
def execExtest (pins : Nat) (s : State) : Result :=
  let n := s.node
  s.next (if n.sec.token.isSome && n.heldL2 then (({ n with hif := { n.hif with jtagIr := 4 } }).emit (.pin 255 (bitAt pins 0))).jtagData
    else n.jtagDenied 4 pins)

/-- System debug. -/
def execJtagSystemDebug (code : Nat) (s : State) : Result :=
  let n := s.node
  s.next (if 1 ≤ n.fuses.dbgPol && n.sec.token.isSome then n.jtagData else n.jtagDenied 5 code)

/-- Tenant debug (14 R459, R460): a thread of the tenant is halted, or goes on. -/
def execJtagTenantDebug (code : Nat) (tid : Fin 1024) (t : Thr) (halt : Bool) (s : State) : Result :=
  let n := s.node
  let k := thrNo t
  if !(2 ≤ n.fuses.dbgPol && n.sec.token.isSome && (n.ten tid.val).consent) || (n.ownerOfThr k).getD tid.val != tid.val then
    s.next (n.jtagDenied 6 (tid.val + 0 * code))
  else if (n.thread k).isNone then s.next n.jtagData
  else
    let n := if halt then { n with sec := { n.sec with halted := k :: n.sec.halted.filter (· != k) } } else n.resume fun j => j == k
    s.next n.jtagData

/-- Maker test. -/
def execJtagMakerTest (code : Nat) (s : State) : Result :=
  let n := s.node
  s.next (if n.fuses.dbgPol == 3 && n.dev.unlocked then n.jtagData else n.jtagDenied 7 code)

end Sys2Proof.Machine
end

