-- ==== Sys2Proof/Machine/Power.lean ====
section
/-! DEFINITION. Power and concurrency (01 R25-R30), rails, clocks, the thermal throttle, the power-fail save (15 R471-R483). -/

namespace Sys2Proof.Machine

/-! ## Concurrency (01 R26-R30) -/

/-- Element `i` of a list of eight counts set. -/
def setCount (l : List Nat) (i v : Nat) : List Nat := (List.range 8).map fun j => if j = i then v else l.getD j 0

/-- The hubs of a tile in dispatch, and those withdrawn. -/
def Node.inDispatch (s : Node) (t : Nat) : List Nat :=
  ((List.range 4).map (4 * t + ·)).filter fun h => !bitAt s.power.hubRet h && !bitAt s.power.hubWd h
/-- The hubs of a tile whose bit of a mask is 1, those that are retired apart. -/
def Node.hubsIn (s : Node) (mask t : Nat) : List Nat :=
  ((List.range 4).map (4 * t + ·)).filter fun h => !bitAt s.power.hubRet h && bitAt mask h

/-- The hubs that R26 withdrew: those of `HUB_WD` that neither the throttle nor fixed-slot entry withdrew. -/
def Node.powerWd (s : Node) : Nat := s.power.hubWd &&& (2 ^ 32 - 1 - (s.power.thermWd ||| s.power.fixedWd))

/-- 01 R27: the highest-numbered hub of a tile in dispatch is withdrawn; the last one stays (01 R31's text, 15 R477,
notes/assumptions/91.md). `therm`: by the throttle. -/
def Node.withdraw (s : Node) (t : Nat) (therm : Bool) : Node :=
  if (s.inDispatch t).length ≤ 1 then s
  else match (s.inDispatch t).getLast? with
    | some h => ({ s with power := { s.power with
        hubWd := s.power.hubWd ||| 2 ^ h, thermWd := s.power.thermWd ||| (if therm then 2 ^ h else 0)
        concRed := s.power.concRed + 1 } }).concEvent
    | none => s

/-- 01 R28: the lowest-numbered hub of a tile that a mask names returns. -/
def Node.giveBack (s : Node) (mask t : Nat) : Node :=
  match (s.hubsIn mask t).head? with
  | some h => ({ s with power := { s.power with
      hubWd := s.power.hubWd - (s.power.hubWd &&& 2 ^ h), thermWd := s.power.thermWd - (s.power.thermWd &&& 2 ^ h) } }).concEvent
  | none => s

/-- 01 R26, R28: one estimate of a tile. The fourth in a row above the limit withdraws a hub, and the count starts again
(notes/assumptions/91.md); the hundredth in a row with room for a hub returns one that R26 withdrew. -/
def execTilePowerEstimate (tile : Fin 8) (milliwatt nodeW : Nat) (s : State) : Result :=
  let n := s.node
  let n := { n with power := { n.power with nodeW := min 1023 nodeW } }
  if n.fixedSlot then s.next n
  else
    let t := tile.val
    let lim := 1000 * fld (n.reg .tpwrLim) 0 8
    let hi := if lim < milliwatt then n.power.overCnt.getD t 0 + 1 else 0
    let room := if milliwatt + 7030 ≤ lim then n.power.roomCnt.getD t 0 + 1 else 0
    let n := { n with power := { n.power with
      overCnt := setCount n.power.overCnt t (if hi = 4 then 0 else hi), roomCnt := setCount n.power.roomCnt t (if room = 100 then 0 else room) } }
    let n := if hi = 4 then n.withdraw t false else n
    s.next (if room = 100 then n.giveBack n.powerWd t else n)

/-! ## Rails (15 R471-R473) -/

/-- Nominal millivolts in the order of 15 Table 15.1. -/
def railNominal : List Nat := [900, 1800, 900, 900, 900, 900, 900, 900, 900, 900, 900, 900, 900, 1100, 1200, 1200, 850]

/-- 15 R472: at a start VOUT_COMMAND goes to every regulator, then OPERATION in the order of the enable steps, which is that of
the table. -/
def Node.enableRails (s : Node) : Node :=
  let rs := (List.range 16).map (· + 1)
  rs.foldl (fun s r => s.emit (.pmbus r none)) (rs.foldl (fun s r => s.emit (.pmbus r (some (railNominal.getD r 0)))) s)

/-- 15 R473: a rail fault. -/
def Node.railFault (s : Node) (r : Nat) : Node :=
  (({ s with power := { s.power with railGood := s.power.railGood - (s.power.railGood &&& 2 ^ r) } }).logUnit 0x0805 (unitOf 9 r)).requestReset 14 none

/-- A rail's on-die monitor, or its regulator's fault. -/
def execRailFault (rail : Fin 17) (millivolt : Nat) (regulatorFault : Bool) (s : State) : Result :=
  let nom := railNominal.getD rail 0
  let bad := regulatorFault || decide (100 * millivolt < 95 * nom) || decide (105 * nom < 100 * millivolt)
  s.next (if bad then s.node.railFault rail else s.node)

/-- STATUS_WORD of every regulator: the rails that report a fault. The always-on rail has no regulator of the node's. -/
def execPmbusStatusPoll (faults : List Nat) (s : State) : Result :=
  s.next ((faults.filter fun r => decide (1 ≤ r ∧ r < 17)).foldl Node.railFault s.node)

/-- 17 R546: a numeric sensor takes a value; crossing a threshold of its PDR is an event. -/
def Node.setSensor (s : Node) (i v : Nat) : Node :=
  let old := KList.getD s.hif.sensors i 0
  let lim := sensorLimit i
  let s := { s with hif := { s.hif with sensors := KList.put s.hif.sensors i v } }
  if decide (old < lim) == decide (v < lim) then s
  else { s with hif := { s.hif with pldmEvents := s.hif.pldmEvents ++ [(i, v)] }, mgt := { s.mgt with smbAlertN := false } }

/-- A run of sensors. -/
def Node.setSensors (s : Node) (first : Nat) (l : List Nat) : Node :=
  (l.zip (List.range l.length)).foldl (fun s p => s.setSensor (first + p.2) p.1) s

/-- READ_VOUT and READ_IOUT of the rails, every 10 ms; no PLDM sensor reports READ_TEMPERATURE_1 (17 Table 17.10). -/
def execPmbusTelemetryPoll (mv ma dc : List Nat) (s : State) : Result :=
  let n := (s.node.setSensors 32 (mv.take 17)).setSensors 64 (ma.take 17)
  s.next (if dc.isEmpty then n else n)

/-! ## Clocks (15 R476) -/

def Node.setFreewheel (s : Node) (h : Nat) (b : Bool) : Node :=
  { s with power := { s.power with freewheel := (s.power.freewheel - (s.power.freewheel &&& 2 ^ h)) + (if b then 2 ^ h else 0) } }

/-- A hub with no thread for `FW_IDLE_US`. -/
def execHubFreewheel (hub : Fin 32) (s : State) : Result :=
  let n := s.node
  let idle := (n.threadsOf hub).isEmpty && n.passed (KList.getD n.power.idleSince hub 0) (fld (n.reg .clkCfg) 0 16)
  s.next (if idle then n.setFreewheel hub true else n)

/-- A tile whose hubs freewheel and whose cassette has no request, for `PLL_IDLE_MS`. -/
def execPllPowerDown (tile : Fin 8) (s : State) : Result :=
  let n := s.node
  let c := n.tile tile
  let since := maxN (((List.range 4).map fun j => KList.getD n.power.idleSince (4 * tile.val + j) 0) ++ [KList.getD n.power.idleSince (32 + tile.val) 0])
  if fld n.power.freewheel (4 * tile.val) 4 == 15 && c.queue == [] && c.batch.isNone && bitAt n.power.pllOn tile
      && n.passed since (1000 * fld (n.reg .clkCfg) 16 16) then
    s.next { n with power := { n.power with pllOn := n.power.pllOn - 2 ^ tile.val } }
  else s.next n

/-- Work has arrived for a tile whose PLL is down. -/
def execPllRelock (tile : Fin 8) (s : State) : Result :=
  let n := s.node
  let work := ((List.range 4).any fun j => (n.threadsOf (4 * tile.val + j)) != []) || (n.tile tile).queue != []
  s.next (if !bitAt n.power.pllOn tile && work then { n with power := { n.power with pllOn := n.power.pllOn + 2 ^ tile.val } } else n)

/-! ## The thermal throttle (15 R477, R478; 17 Table 17.16) -/

def Node.engage (s : Node) : Node :=
  if s.power.throttle then { s with power := { s.power with coolSince := none } }
  else (({ s with power := { s.power with throttle := true, coolSince := none, throttleStep := s.clk } }).logUnit 0x0803).service.seeNode

/-- The hottest sensor of each of the eleven dies and the eight stacks. -/
def execThermalSample (dies hbms : List Nat) (s : State) : Result :=
  let n := (s.node.setSensors 1 (dies.take 11)).setSensors 12 (hbms.take 8)
  let thr := fld (n.reg .therm) 0 8
  let trip := fld (n.reg .therm) 8 8
  let hot := dies.any (fun d => decide (thr ≤ d)) || hbms.any fun d => decide (95 ≤ d)
  let cool := dies.all (fun d => decide (d + 5 < thr)) && hbms.all fun d => decide (d < 90)
  let n := if hot then n.engage
    else if cool then { n with power := { n.power with coolSince := some (n.power.coolSince.getD n.clk) } }
    else { n with power := { n.power with coolSince := none } }
  if dies.any fun d => decide (trip ≤ d) then
    let was := n.mgt.thermTripN
    let n := { n with mgt := { n.mgt with thermTripN := false } }
    s.next (if was then n.requestReset 7 none else n)
  else if dies.all fun d => decide (d + 10 < trip) then s.next { n with mgt := { n.mgt with thermTripN := true } }
  else s.next n

/-- Every 1 ms while engaged: one hub of each tile; one stays. -/
def execThrottleWithdraw (s : State) : Result :=
  let n := s.node
  if n.power.throttle && n.passed n.power.throttleStep 1000 then
    let n := (List.range 8).foldl (fun n t => n.withdraw t true) n
    s.next { n with power := { n.power with throttleStep := n.clk } }
  else s.next n

/-- Every die has been cool for 10 ms. -/
def execThrottleRelease (s : State) : Result :=
  let n := s.node
  match n.power.coolSince with
  | some t =>
    if n.power.throttle && n.passed t 10000 then
      s.next ((({ n with power := { n.power with throttle := false, throttleStep := n.clk } }).logUnit 0x0803).service.seeNode)
    else s.next n
  | none => s.next n

/-- Every 10 ms after a release: one hub of each tile. -/
def execThrottleReturn (s : State) : Result :=
  let n := s.node
  if !n.power.throttle && n.passed n.power.throttleStep 10000 then
    let n := (List.range 8).foldl (fun n t => n.giveBack n.power.thermWd t) n
    s.next { n with power := { n.power with throttleStep := n.clk } }
  else s.next n

/-! ## Power-fail save (15 R479-R483) -/

def Node.setPf (s : Node) (p : PfPhase) : Node := { s with mgt := { s.mgt with pfPhase := p } }

/-- The bus below `TRIP` for 2 µs. -/
def execPfSenseTrip (decivolt lowNs : Nat) (s : State) : Result :=
  let n := s.node
  if n.mgt.pfPhase == .idle && decide (decivolt < fld (n.reg .pfCfg) 0 8) && decide (2000 ≤ lowNs) then
    let n := { n with mgt := { n.mgt with pfPhase := .tripped, pfActive := true, pfSince := n.clk, nodeBusyN := false, incomplete := false } }
    s.next { n.seeNode with dev := { n.dev with pfLogged := true } }
  else s.next n

/-- 5 µs: hubs and cassettes are frozen. -/
def execPfFreeze (s : State) : Result :=
  let n := s.node
  s.next (if n.mgt.pfPhase == .tripped && n.passed n.mgt.pfSince 3 then n.setPf .frozen else n)

/-- 10 µs: optics, SerDes and PCIe are off. -/
def execPfPowerGate (s : State) : Result :=
  let n := s.node
  if n.mgt.pfPhase == .frozen && n.passed n.mgt.pfSince 8 then
    s.next { n with links := { n.links with ports := [] }, hif := { n.hif with linkUp := false }, power := { n.power with pllOn := 0 } }
  else s.next n

/-- 20 µs: the save command (10 R327): the journal goes to the media; its end header comes last. -/
def execJournalSave (s : State) : Result :=
  let n := s.node
  if n.mgt.pfPhase == .frozen && n.passed n.mgt.pfSince 18 then
    let n := n.writeSave false
    s.next { n.setPf .saving with flash := { n.flash with state := if n.flash.popOk then 5 else n.flash.state } }
  else s.next n

/-- The save that was begun is complete on the media (10 R326). -/
def Node.endHeader (s : Node) : Node :=
  match s.lastSave with
  | none => s
  | some v =>
    let mark := fun (w : JSave) => if w.seq == v.seq then { w with stop := some (saveHead 2 (getLe v.start 6 2) v.seq (getLe v.start 16 8) s.staged) } else w
    { s with flash := { s.flash with areaA := s.flash.areaA.map mark, areaB := s.flash.areaB.map mark } }

/-- 10 R326, 15 R479: the save ends. -/
def execJournalSaveComplete (s : State) : Result :=
  let n := s.node
  if n.mgt.pfPhase == .saving then
    let us := (n.clk - n.mgt.pfSince) / 1000
    let n := n.endHeader.countSave us true
    s.next { n with mgt := { n.mgt with pfPhase := .done, pfActive := false, saves := (n.mgt.saves + 1) % 2 ^ 32, saveUs := us % 65536 } }
  else s.next n

/-- 15 R482: the bus falls below 9.0 V before the save is complete. -/
def execBusUndervoltage (decivolt : Nat) (s : State) : Result :=
  let n := s.node
  if decivolt < 90 && n.mgt.pfPhase != .idle && n.mgt.pfPhase != .done then
    let us := (n.clk - n.mgt.pfSince) / 1000
    let n := n.countSave us false
    s.next { n with mgt := { n.mgt with pfPhase := .done, pfActive := false, incomplete := true, saves := (n.mgt.saves + 1) % 2 ^ 32, saveUs := us % 65536 } }
  else s.next n

/-- 15 R483: the bus has recovered after the save: an L0 with source brown-out, which absorbs what waited. -/
def execBusRecovery (decivolt goodMs : Nat) (s : State) : Result :=
  let n := s.node
  if n.mgt.pfPhase == .done && decide (fld (n.reg .pfCfg) 0 8 + 4 < decivolt) && decide (10 ≤ goodMs) then
    let n := { n with mgt := { n.mgt with pfPhase := .idle, waitReset := none, resets := [] } }
    s.next (n.requestLevel 0 0 1)
  else s.next n

end Sys2Proof.Machine
end

