-- ==== Sys2Proof/Machine/Reset.lean ====
section
/-! DEFINITION. Resets and the start (15 R484-R499). -/

namespace Sys2Proof.Machine

/-! ## Sources (15 R484) -/

def execPowerOn (s : State) : Result := s.next (({ s.node with mgt := { s.node.mgt with saves := 0 } }).requestReset 0 none)

/-- VDD_AO below its threshold while PF_SENSE has not tripped. -/
def execBrownOut (s : State) : Result := s.next (if s.node.mgt.pfPhase == .idle then s.node.requestReset 1 none else s.node)

def execNodeRstN (lowUs : Nat) (s : State) : Result := s.next (if 10 ≤ lowUs then s.node.requestReset 2 none else s.node)

/-- The PCIe and CXL controller is reset (15 R484, 17 R540; 08 R260; 14 R455). -/
def Node.pcieReset (s : Node) : Node :=
  let s := s.functionReset fun _ => true
  { s with hif := { s.hif with linkUp := false, vfEnable := false } }

def execPerstN (s : State) : Result := s.settled (s.node.pcieReset.requestReset 3 none)
def execPcieHotReset (s : State) : Result := s.settled (s.node.pcieReset.requestReset 4 none)

/-- The link goes down: role sessions end, the leases of local clients lapse (08 R260, 14 R455). -/
def Node.pcieDown (s : Node) : Node :=
  let n := (s.lapseAll (s.localClients none)).endSessions fun x => x.role.isSome || x.chan != .mctp
  { n with hif := { n.hif with linkUp := false } }

def execPcieLinkDown (s : State) : Result := s.settled s.node.pcieDown

/-- 16 R510: a lost reference or PLL lock. 0-7 a tile PLL, 8 the 100 MHz reference, 9 and 10 the 156.25 MHz references of
FD0 and FD1, otherwise the 25 MHz reference. -/
def execClockLoss (which : Nat) (s : State) : Result :=
  let n := s.node.logUnit 0x0806 (unitOf 10 which)
  if which < 8 then s.settled ((n.retireTile which).service)
  else if which = 8 then s.settled n.pcieDown.service
  else if which ≤ 10 then
    s.next (((List.range 8).map (8 * (which - 9) + ·)).foldl Node.dropPort n)
  else s.next (n.startBroken.requestReset 5 none)

def execManagementWatchdog (s : State) : Result := s.next (s.node.startBroken.requestReset 5 none)

def execTileWatchdog (hub : Fin 32) (stuckMs : Nat) (s : State) : Result :=
  s.next (if 100 ≤ stuckMs then s.node.requestReset 12 (some (hub.val / 4)) else s.node)

/-! ## What each level clears (15 Table 15.6) -/

/-- The reset of a level that waits to begin. -/
def Node.dueReset (s : Node) (level : Nat) (tile : Option Nat) : Option ResetRun :=
  s.mgt.resets.find? fun r => r.level == level && !r.begun && (match tile with
    | some t => r.tile == t
    | none => true)

/-- A reset has begun; every tenant is told (14 R465). -/
def Node.begun (s : Node) (r : ResetRun) : Node :=
  ({ s with mgt := { s.mgt with resets := s.mgt.resets.map fun x => if x == r then { x with begun := true, since := s.clk } else x } }).service

/-- A tile's cassette is empty (05 R153). -/
def Node.emptyTile (s : Node) (t : Nat) : Node :=
  let c := s.tile t
  { s with cas := { s.cas with tiles := KList.put s.cas.tiles t { c with queue := [], active := none, staged := none, batch := none, rest := [], copies := [], scales := [] } } }

/-- L3 of a tile. -/
def Node.l3 (s : Node) (t : Nat) : Node :=
  let s := s.endCtxs (s.ctxsOn fun n => tileOfThr n == t) 0x0801
  let s := { s with sel := { s.sel with lists := s.sel.lists.filter (fun l => l.2.hub / 4 != t), waits := s.sel.waits.filter fun w => w.1 / 4 != t } }
  s.emptyTile t

/-- An admitted item ends with `RESET_ABORTED` before its context has done anything. -/
def Node.abortItem (s : Node) (a : Admitted) : Node := s.finish a (done 0x0801)

/-- A query that its coordinating node aborts: its result selects from the inputs that it had (04 R126), and the other nodes
are told to release it. -/
def Node.abortQuery (s : Node) (c : Nat) (a : Admitted) (q : Query) : Node :=
  let q := if q.partialList.isSome then q else { q with status := 0x0801, partialList := some q.gathered }
  let m := match (s.sessionOf c).bind (KList.find? s.sel.sessions) with
    | some m => (m.own, m.inputs.map fun (i : MergeIn) => i.msg)
    | none => (true, [])
  let msg := mergeMsgs (qCap q.desc) (if m.1 then [s.ownMsg q] else []) m.2 false s.dev.node q.qtag (q.pos.getD 0xFFFF)
  ((s.writeResult a q { msg with status := 0x0801 }).sendReleases q).dropCtx c

/-- A context is no more; its item completes with `RESET_ABORTED`. -/
def Node.abortCtx (s : Node) (c : Nat) : Node :=
  match s.ctx c with
  | none => s
  | some x => match x.adm, x.query with
    | some a, some q => if q.forwarded then s.dropCtx c else s.abortQuery c a q
    | some a, none => let d := s.rowsDone a; (s.dropCtx c).finish a (done 0x0801 d.1 d.2)
    | none, _ => s.dropCtx c

/-- The ring of a queue as an L2 leaves it. -/
def Node.l2Queue (s : Node) (q : Nat) : Node :=
  let s := s.flushQueue q
  let x := s.queue q
  s.setQueue q { x with items := [], mItems := [], pushes := [], pushed := [], cqReserved := 0, head := x.tail, readTo := x.tail, cut := false, held := [] }

/-- Every nonce stream goes on from the end of its last reservation (14 R445). -/
def Node.skipNonces (s : Node) : Node :=
  { s with sec := { s.sec with
      nonces := KList.mapVals (fun _ x => { x with counter := max x.counter x.reserved }) s.sec.nonces
      grantSerial := max s.sec.grantSerial s.sec.grantEnd } }

/-- 02 R63: an L2 releases a compaction's pin; what a closed seal will commit stays, and what was carried over (02 R53). -/
def Node.l2Compaction (s : Node) (c : Compaction) : Node :=
  match s.shard c.shard with
  | none => s
  | some x =>
    if c.carried || s.index.seals.any fun q => q.shard == c.shard && q.closed && q.part == some c.part then
      let s := { s with index := { s.index with compactions := s.index.compactions.map fun (k : Compaction) =>
        if k == c then { k with pinned := false } else k } }
      if c.pinned then s.unpin ⟨c.shard, x.inst, c.gen⟩ else s
    else
      let s := s.freeObjs (s.index.objs.filter fun o => o.inst == x.inst && c.segs.contains o.addr && o.birth.isNone)
      s.dropCompaction c x.inst

/-- L2: every admitted item completes before the queues reset. -/
def Node.l2 (s : Node) : Node :=
  let s := (s.spokes.ctxs.map (·.1)).foldl Node.abortCtx s
  let s := (s.qsy.queues.flatMap (·.2.mItems)).foldl (fun s a => s.abortItem a) s
  let s := (s.mem.unmaps.filterMap (·.item)).foldl (fun s a => s.abortItem a) s
  let s := s.index.seals.foldl (fun s q => q.waiters.foldl (fun s w => match w with
    | .item a => s.abortItem a
    | .thread _ => s) s) s
  let s := s.cas.slots.foldl (fun s p => match p.2.item with
    | some a => if p.2.state == 1 then (s.setSlot p.1 emptySlot).abortItem a
      else (s.setSlot p.1 { p.2 with item := none }).abortItem a
    | none => s) s
  let s := (s.index.unheld.filterMap fun u => match u.who with
    | .item a => some a
    | .thread _ => none).foldl (fun s a => s.abortItem a) s
  let s := s.index.compactions.foldl Node.l2Compaction s
  let s := (List.range 8).foldl Node.emptyTile s
  let s := (s.qsy.queues.map (·.1)).foldl Node.l2Queue s
  let s := (s.store.cxlWaits ++ s.store.bwWaits).foldl (fun s w => s.emit (.cxl 0x0801 0 (List.replicate w.2.len 0))) s
  let s := (s.mem.moves.filter fun m => m.1 < 64).foldl (fun s m => match s.region m.2.owner m.2.region with
    | some r => s.setRegion m.2.owner m.2.region { r with rfl := r.rfl - (r.rfl &&& 8), move := 0 }
    | none => s) s
  { s with
    adm := { Node.resetAdm with tenTok := s.adm.tenTok, clsTok := s.adm.clsTok }
    sel := { s.sel with lists := [], waits := [], argmax := [], sessions := [], msWait := [], held := [], late := [], rx := [] }
    spokes := { s.spokes with threads := [], ctxs := [], accesses := [] }
    store := { s.store with ops := [], engines := [], held := [], remap := false, cxlWaits := [], bwWaits := [], bwItems := [] }
    mem := { s.mem with moves := s.mem.moves.filter (fun m => decide (64 ≤ m.1)), unmaps := s.mem.unmaps.map fun (u : Unmap) => ({ u with item := none } : Unmap) }
    qsy := { s.qsy with epoch0 := (s.qsy.epoch0 + 1) % 256, syncs := KList.mapVals (fun _ (x : Sync) => { x with waiters := [] }) s.qsy.syncs }
    fabric := { s.fabric with reqs := [], tagWait := [] }
    index := { s.index with unheld := [], seals := (s.index.seals.filter fun (q : SealReq) => q.closed).map fun (q : SealReq) => ({ q with waiters := [] } : SealReq) }
    power := { s.power with hubWd := 0, thermWd := 0, fixedWd := 0 }
    snap := { s.snap with armed := [] } }.skipNonces

/-- The units of an extent, as their pages hold them, as memory of a region. -/
def Node.loadExtent (s : Node) (owner region extent : Nat) (l : List Host.Cell) : List Host.Cell :=
  (List.range 128).foldl (fun l u => match KList.find? s.flash.map (extent * 128 + u) with
    | some p => cellsSet l (unitKey owner region u) unitSize (cellsIn s.flash.media (p * unitSize) unitSize)
    | none => l) l

/-- 15 Table 15.6, 10 R311: memory after L1: FLASH regions and shadow extents from the media, nothing else. -/
def Node.rebuildMem (s : Node) : Node :=
  let fl := (s.allRegions.filter fun r => r.2.2.tier == 4).foldl (fun l r => s.loadExtent r.1 r.2.1 r.2.2.loc l) []
  let l := s.flash.shadow.foldl (fun l p =>
    let o := p.1 / 2 ^ 27
    let rg := p.1 % 2 ^ 27
    let keep := s.nodeRegion o rg || (match s.region o rg with
      | some r => r.tier == 1 || r.tier == 2
      | none => false)
    if keep then s.loadExtent o rg p.2 l else l) fl
  { s with mem := { s.mem with bytes := l, poison := [] } }

/-- 15 Table 15.6: the region tables after L1. -/
def Node.rebuildRegions (s : Node) : Node :=
  let hbm := (s.allRegions.filter fun r => r.2.2.tier == 1 || r.2.2.tier == 2).map fun r => (r.1, r.2.1)
  let f := fun (o rg : Nat) (r : Region) =>
    let rfl := r.rfl - (r.rfl &&& 8)
    if r.tier == 3 then { r with rfl := rfl ||| 32, move := 0 }
    else if r.tier == 4 then { r with rfl := rfl, move := 0 }
    else { r with tier := 2, rfl := rfl, move := 0, loc := hbm.findIdx fun x => x == (o, rg) }
  { s with mem := { Node.resetMem with
      regions := KList.mapVals (fun o t => KList.mapVals (fun rg r => f o rg r) t) s.mem.regions
      hbmRet := s.mem.hbmRet, hbmErr := s.mem.hbmErr
      unmaps := s.mem.unmaps.map fun (u : Unmap) => ({ u with item := none } : Unmap) } }

/-- 02 R50, R60: the generations whose flash copies check stay: SEALED the newest of each shard, SUPERSEDED the others. What
had closed is abandoned, and compaction output that was not committed is discarded; the OPEN side lists begin where the
newest sealed generation ends. -/
def Node.rebuildIndex (s : Node) : Node :=
  let saved := s.index.saved.filter fun v => getLe v.image 60 4 == crc32c (slice v.image 0 60)
  let gens := (s.index.gens.filter fun g => saved.any fun v => v.inst == g.inst && v.gen == g.gen).map fun (g : GenRec) => { g with pins := 0 }
  let newest := fun (x : Shard) => gens.find? fun g => g.inst == x.inst && g.state == 2
  let shards := s.index.shards.map fun x =>
    let sides : KList SideList := KList.mapVals (fun p (l : SideList) =>
      match (newest x).bind fun g => KList.find? g.map p with
      | some e => if e.st == noStreams then { l with next := e.sideEnd } else { st := e.st, next := e.sideEnd }
      | none => { l with next := l.st.base }) x.sides
    { x with openGen := ((newest x).map fun g => g.gen + 1).getD 0, sides := sides }
  let s := { s with index := { Node.reset.index with
    shards := shards, gens := gens.filter (fun g => s.index.shards.any fun x => x.inst == g.inst), saved := saved, objs := s.index.objs,
    objRegions := s.index.objRegions, nextInst := s.index.nextInst } }
  let top := fun (i : Nat) => ((s.index.gens.filter fun g => g.inst == i).map (·.gen + 1)).foldl max 0
  s.dropSaved.freeObjs (s.index.objs.filter fun o => !o.space && (o.birth.isNone || decide (top o.inst ≤ o.birth.getD 0)
    || !s.index.shards.any fun x => x.inst == o.inst))

/-- What the media and the management plane keep through an L1; the rest is as after power-on. What `HIF_CXL_CFG` and
`HIF_SMB_CFG` held comes into force (notes/assumptions/103.md). -/
def Node.l1 (s : Node) : Node :=
  let r := Node.reset
  let k := (s.rebuildIndex.rebuildRegions).skipNonces
  { r with
    fuses := s.fuses, qspi := s.qspi
    dev := { r.dev with bench := s.dev.bench, func0 := s.dev.func0, pinCode := s.dev.pinCode, strap := s.dev.strap, coldStart := s.dev.coldStart,
                        pfLogged := s.dev.pfLogged, node := s.dev.node, unlocked := s.dev.unlocked, func := s.dev.func0 }
    mgt := { s.mgt with nodeBusyN := false }
    power := { r.power with pllOn := 0 }
    log := { r.log with ffTime := s.log.ffTime, ffInfo := s.log.ffInfo, later := s.log.later }
    sec := { s.sec with kslots := [], sessions := [], conns := [], token := none, halted := [], nonces := k.sec.nonces, grantSerial := k.sec.grantSerial }
    hif := { r.hif with
      capGb := s.reg .cxlCfg, smb := s.reg .smbCfg
      vfEnable := s.hif.vfEnable, eid := s.hif.eid
      dmaDiscard := (List.range 1025).map fun f => (f, s.nextId) }
    index := k.index, mem := k.mem
    spokes := { r.spokes with retired := s.spokes.retired }
    flash := { s.flash with gcOn := [], waits := [], state := 0 }
    peloton := { r.peloton with incarn := s.peloton.incarn, shardMap := s.peloton.shardMap }
    out := s.out, clk := s.clk, freeCtr := s.freeCtr, nextId := s.nextId }

/-- L0: the save of 10 R328 unless the source is power-on or brown-out; then everything restarts. -/
def Node.l0 (s : Node) (source : Nat) : Node :=
  let s := if source ≤ 1 then s else (s.writeSave true).countSave 0 true
  let s := if source ≤ 1 then s else { s with mgt := { s.mgt with saves := (s.mgt.saves + 1) % 2 ^ 32 } }
  let k := s.l1
  let r := Node.reset
  { k with
    dev := { k.dev with bench := false, func0 := 0, pinCode := 0, strap := 0, coldStart := true, unlocked := false, func := 0 }
    mgt := { r.mgt with
      resets := s.mgt.resets, causeLevel := s.mgt.causeLevel, causeSource := s.mgt.causeSource, nodeBusyN := false
      saves := s.mgt.saves, thermTripN := s.mgt.thermTripN, localSeq := s.mgt.localSeq }
    log := r.log
    hif := { r.hif with dmaDiscard := k.hif.dmaDiscard, capGb := if source ≤ 1 then 0 else k.hif.capGb, smb := if source ≤ 1 then r.hif.smb else k.hif.smb }
    mem := { k.mem with hbmRet := 0, hbmErr := [] }
    spokes := r.spokes
    flash := { k.flash with dieRet := 0, map := k.flash.mapDisk, dirty := [], data := [], maps := [] } }

/-- A reset runs: its effect, once. The requests that it merged are told by `MGT_RST_CAUSE`. -/
def State.runReset (s : State) (level : Nat) (tile : Option Nat) (f : Node → ResetRun → Node) : Result :=
  let n := s.node
  match n.dueReset level tile with
  | some r => if n.mgt.pfPhase == .idle then s.next ((f (n.begun r) r)) else s.next n
  | none => s.next n

def execResetL3 (tile : Fin 8) (s : State) : Result := s.runReset 3 (some tile.val) fun n r => n.l3 r.tile
def execResetL2 (s : State) : Result := s.runReset 2 none fun n _ => n.l2
/-- 17 Table 17.7: an L0 or an L1 while the link is up is reported before the link goes down. -/
def Node.reportReset (s : Node) : Node := if s.hif.linkUp then s.emit (.aer 0 5) else s

def execResetL1 (s : State) : Result := s.runReset 1 none fun n _ => n.reportReset.l1
def execResetL0 (s : State) : Result := s.runReset 0 none fun n r => n.reportReset.l0 r.source

/-- 15 R487, 05 R153: an L3 or an L2 completes; the models are loaded again, but those that are `lost` at a tier, with its code. -/
def execResetComplete (level : Nat) (tile : Fin 8) (lost : List (Nat × Nat)) (s : State) : Result :=
  let n := s.node
  if level != 2 && level != 3 then s.next n
  else match n.mgt.resets.find? fun r => r.begun && r.level == level && (level == 2 || r.tile == tile.val) with
    | none => s.next n
    | some r =>
      let n := { n with mgt := { n.mgt with resets := n.mgt.resets.filter (· != r) } }
      s.next ((if level == 2 then List.range 8 else [tile.val]).foldl (fun n t => n.reloadTile lost t) n)

/-! ## The start (15 R491-R499) -/

/-- 15 Table 15.7: boot slot B, the initial function, bench mode. -/
def strapSlotB (c : Nat) : Bool := decide (4 ≤ c ∧ c ≤ 7) || c == 10 || c == 11
def strapFunc (c : Nat) : Nat := if c ≤ 7 then c % 4 else if c == 9 || c == 11 || c == 12 then 3 else 0
def strapBench (c : Nat) : Bool := decide (8 ≤ c ∧ c ≤ 12)

/-- 15 R491, R492: the pin is read at L0; an override replaces its code, but for 12 and 14. -/
def Node.readStrap (s : Node) (adc : Nat) : Node :=
  let raw := min 15 ((adc + 32) / 64)
  let s := if s.dev.coldStart && raw == 13 then s.logUnit 0x01F0 (unitOf 11 0) else s
  let pin := if s.dev.coldStart then (if raw == 13 then 15 else raw) else s.dev.pinCode
  let code := if s.qspi.ovrValid && pin != 12 && pin != 14 then s.qspi.ovrCode else pin
  { s with dev := { s.dev with pinCode := pin, strap := code, bench := strapBench code, func0 := strapFunc code } }

/-- 15 R499: Pewter mode. -/
def Node.enterPewter (s : Node) : Node :=
  ({ s with
    dev := { s.dev with pewter := true, ready := false, starting := none, coldStart := false }
    mgt := { s.mgt with resets := [], nodeBusyN := true } }).seeNode

/-- 15 R497: a start that fails is logged; an L1 follows. The entry of Table 15.5 behind that L1 is not stated. -/
def Node.startFails (s : Node) : Node :=
  let s := s.logUnit 0x0804 (unitOf 11 0)
  let f := s.free
  let s := { f.2 with dev := { s.dev with starting := none, coldStart := false }, mgt := { s.mgt with resets := [] } }
  s.requestLevel 1 0 (f.1 % 16)

/-- 15 R495, R496: entry `i` of the configuration block, written as the installer writes. -/
def Node.cfgEntry (s : Node) (b : Bytes) (i : Nat) : Node :=
  let off := getLe b (64 + 16 * i) 8
  match findReg bar0Rows off with
  | none => s.logUnit 0x0101
  | some a =>
    if a.off != off then s.logUnit 0x0162
    else
      let r := s.writeOne .fw (fun l => l.find? (· == .installer)) a (getLe b (72 + 16 * i) a.row.width) false
      if r.1 = 0 then r.2 else r.2.logUnit r.1

/-- 15 R496: the block applied, or the factory defaults; none: refused. -/
def Node.configure (s : Node) (b : Bytes) (sigOk : Bool) : Option Node :=
  let n := getLe b 6 2
  let body := 64 + 16 * n
  if getLe b 0 4 != 0x47464E43 || decide (4000 < n) || getLe b body 4 != crc32c (slice b 0 body) then
    some { s with dev := { s.dev with cfgDefaulted := true } }
  else if !sigOk || s.fuses.anchors.isEmpty then none
  else some ((List.range n).foldl (fun s i => s.cfgEntry b i) s)

/-- 16 R514: the units that fail their tests retire. -/
def Node.startTests (s : Node) (channels spokes cassettes : List Nat) : Node :=
  let s := (channels.filter fun c => decide (c < 128)).foldl Node.retireChannel s
  let s := (spokes.filter fun x => decide (x < 2048)).foldl (fun s x => s.retireSpoke (x / 64) (x % 64)) s
  let s := (cassettes.filter fun t => decide (t < 8)).foldl Node.retireTile s
  s.spokes.retired.foldl (fun s p => if 16 ≤ popcount 64 p.2 then s.retireHub p.1 else s) s

/-- 10 R298, R305: the population checked; the namespace is formed at the first boot on one. -/
def Node.checkPop (s : Node) (p : Population) : Node :=
  let good := popOk p
  let nu := if s.flash.nu == 0 && good then nuOf p (fld (s.reg .flsCfg) 0 8) else s.flash.nu
  { s with flash := { s.flash with
      pop := some p, dies := 16 * p.cePerCh, popOk := good, state := if good then (if s.flash.readOnly then 2 else 1) else 3
      nu := nu, spare0 := if s.flash.nu == 0 && good then spareOf p nu else s.flash.spare0 } }

/-- 10 R329, R330: the records of a save up to the first that is bad. -/
def goodRecs (clk : Nat) : List Bytes → List JRec
  | [] => []
  | b :: l => match readJrec b clk with
    | some r => r :: goodRecs clk l
    | none => []

/-- 10 R329, R330: the records of a save that are good, in staging order; MAP_DELTA records change the map. `good` of its
records can be read from the media. -/
def Node.replaySave (s : Node) (j : JSave) (good : Nat) : Node :=
  let l := goodRecs s.clk (j.recs.take good)
  let s := (l.filter fun r => r.jtype == 1).foldl Node.applyDelta s
  let s := { s with flash := { s.flash with data := l.filter (fun r => r.jtype != 1), areaA := none, areaB := none } }
  if j.complete && decide (j.recs.length ≤ l.length) then s
  else
    let h := s.flash.health
    ({ s with flash := { s.flash with health := { h with warn := h.warn ||| 16, saveStatus := 0x0704 } } }).logUnit 0x0704 (unitOf 6 0)

/-- A SIDE_ENTRY record returns to the OPEN generation of its shard (10 R329, 02 R60). -/
def Node.returnEntry (s : Node) (r : JRec) : Node :=
  match s.index.shards.find? fun x => sideKey x.id == r.key with
  | none => s
  | some x =>
    let i := getLe r.payload 0 4
    if i < x.nextOrd r.aux then s
    else
      let l := s.sideOf x r.aux
      (l.2.placeEntry x l.1 i (r.payload.drop 8)).setShard { x with sides := KList.put x.sides r.aux { l.1 with next := i + 1 } }

/-- 10 R328-R331: the replay, from the media after L0 and from staging after L1; memory is rebuilt before lines apply. -/
def Node.replayJournal (s : Node) (good : Nat) : Node :=
  if !s.flash.popOk then s
  else
    let s := if s.dev.coldStart then (match s.lastSave with
      | some j => s.replaySave j good
      | none => s) else s
    let s := s.rebuildMem
    let s := s.staged.foldl (fun s r => if r.jtype == 2 then s.applyLine r else if r.jtype == 3 then s.returnEntry r else s) s
    let s := s.lineUnits.foldl Node.writeBackUnit s
    { s with flash := { s.flash with maps := [], dirty := [], mapDisk := s.flash.map } }

/-- 14 R439, R441: the system slot, and the persisted keys that unwrap. -/
def Node.restoreKeys (s : Node) (wrapOk : Bool) : Node :=
  let sys := leNat (deriveKey (natLe 48 s.fuses.devSecret) [0x53, 0x59, 0x53, 0x4B] [])
  let s := s.setKslot 1024 { state := 1, key := sys, keyId := keyIdOf sys, copies := 3 }
  let dead := s.sec.destroying.map (·.1)
  let s := { s with sec := { s.sec with
    persisted := s.sec.persisted.filter fun p => !dead.contains p.1
    nonces := s.sec.nonces.filter fun p => !dead.contains p.1 } }
  s.sec.persisted.foldl (fun s p =>
    if wrapOk && p.2.measure == s.dev.measure2 then
      s.setKslot p.1 { state := 1, key := p.2.key, keyId := keyIdOf p.2.key, copies := 3 }
    else
      let f := s.free
      f.2.logFor (freeCode f.1) p.1) s

/-- 12 R389: the incarnation of this start, and JOIN to the leader. -/
def Node.rejoin (s : Node) : Node :=
  let i := (s.qspi.incarn + 1) % 65536
  let s := { s with qspi := { s.qspi with incarn := i }, peloton := { s.peloton with incarn := i } }
  if !bitAt (s.reg .pelCfg) 0 || s.dev.bench then s
  else
    let s := { s with peloton := { s.peloton with state := 1 } }
    let spare := bitAt (s.reg .pelCfg) 7
    if s.leads then s.askJoin s.dev.node i s.dev.func spare
    else s.tellPel ((s.council.head?).getD 0) 6 [1, s.dev.node, i, s.dev.func, b2n spare]

/-- NODE_START: the steps of 15 Table 15.10 up to READY. -/
def execNodeStart (info : StartInfo) (s : State) : Result :=
  let n := s.node
  if !(n.mgt.resets.any fun r => r.begun && decide (r.level ≤ 1)) || n.dev.starting.isSome then s.next n
  else
    let pewter := decide (3 ≤ n.qspi.fails)
    let n := n.readStrap info.adc
    if pewter || n.dev.strap == 14 then s.next n.enterPewter
    else
      let n := { n with qspi := { n.qspi with fails := min 3 (n.qspi.fails + 1) }, dev := { n.dev with starting := some n.clk } }
      let want := strapSlotB n.dev.strap
      let okWant := if want then info.slotBOk else info.slotAOk
      let okOther := if want then info.slotAOk else info.slotBOk
      if !okWant && !okOther then s.next n.enterPewter
      else
        let n := { n with
          dev := { n.dev with slot := b2n (want == okWant), slotFallback := !okWant, measure1 := info.measure1, measure2 := info.measure2,
                              measure3 := info.measure3, func := n.dev.func0 }
          spokes := { n.spokes with
            progs := info.progs.foldl (fun (m : KList Program) (p : Nat × Program) => KList.put m p.1 p.2) []
            istore := info.words.foldl (fun (m : KList W64) (p : Nat × BitVec 64) => KList.put m p.1 p.2) [] } }
        let n := n.enableRails
        if !info.railsOk then s.next n.startFails
        else
          let n := { n with power := { n.power with railGood := 2 ^ 17 - 1, pllOn := 0xFF } }
          match n.configure info.cfgBlock info.cfgSigOk with
          | none => s.next n.startFails
          | some n =>
            let n := n.startTests info.badChannels info.badSpokes info.badCassettes
            let n := (n.checkPop info.pop).replayJournal info.journalOk
            let n := n.restoreKeys info.wrapOk
            let n := if n.dev.pfLogged then ({ n with dev := { n.dev with pfLogged := false } }).logUnit 0x0802 (unitOf 11 0) else n
            let r := n.free
            s.next ({ r.2 with sec := { r.2.sec with challenge := r.1 % 2 ^ 128 }, dev := { r.2.dev with coldStart := false } }).rejoin

/-- READY (15 R497); the destructions that a reset interrupted go on (14 R435). -/
def execNodeReady (s : State) : Result :=
  let n := s.node
  if n.dev.starting.isNone then s.next n
  else
    let n := { n with
      dev := { n.dev with ready := true, starting := none }
      qspi := { n.qspi with fails := 0 }
      mgt := { n.mgt with resets := n.mgt.resets.filter (fun r => decide (2 ≤ r.level)), nodeBusyN := true } }
    let n := (n.sec.destroying.map (·.1)).foldl Node.destroySteps n
    s.settled n.seeNode

/-- Not READY within 2 s. -/
def execStartTimeout (s : State) : Result :=
  let n := s.node
  match n.dev.starting with
  | some t => s.next (if n.passed t 2000000 then n.startFails else n)
  | none => s.next n

end Sys2Proof.Machine
end

