-- ==== Sys2Proof/Machine/Dispatch.lean ====
section
/-! DEFINITION. The dispatcher: one arm for each constructor of `Instr`. -/

namespace Sys2Proof.Machine

def exec (i : Instr) (s : State) : Host.Outcome State Fault Refusal :=
  match i with
  | .registerWrite src off width value => Sys2Proof.Machine.execRegisterWrite src off width value s
  | .tilePowerEstimate tile milliwatt nodeW => Sys2Proof.Machine.execTilePowerEstimate tile milliwatt nodeW s
  | .query q => Sys2Proof.Machine.execQuery q s
  | .itemAdmit => Sys2Proof.Machine.execItemAdmit s
  | .mergeSessionReserve => Sys2Proof.Machine.execMergeSessionReserve s
  | .itemDispatch => Sys2Proof.Machine.execItemDispatch s
  | .indexCreate q => Sys2Proof.Machine.execIndexCreate q s
  | .indexDrop q => Sys2Proof.Machine.execIndexDrop q s
  | .append ctx => Sys2Proof.Machine.execAppend ctx s
  | .sideAppend t f => Sys2Proof.Machine.execSideAppend t f s
  | .journalStage => Sys2Proof.Machine.execJournalStage s
  | .seal q => Sys2Proof.Machine.execSeal q s
  | .genSeal t f => Sys2Proof.Machine.execGenSeal t f s
  | .sealClose sh => Sys2Proof.Machine.execSealClose sh s
  | .sealCommit sh persisted => Sys2Proof.Machine.execSealCommit sh persisted s
  | .compactionStart sh part => Sys2Proof.Machine.execCompactionStart sh part s
  | .compactionSeal sh part => Sys2Proof.Machine.execCompactionSeal sh part s
  | .genPin t f => Sys2Proof.Machine.execGenPin t f s
  | .genUnpin t f => Sys2Proof.Machine.execGenUnpin t f s
  | .lutBuild t f => Sys2Proof.Machine.execLutBuild t f s
  | .scanPq4 t f => Sys2Proof.Machine.execScanPq4 t f s
  | .scanPq8 t f => Sys2Proof.Machine.execScanPq8 t f s
  | .scanEx t f => Sys2Proof.Machine.execScanEx t f s
  | .filtLd t f => Sys2Proof.Machine.execFiltLd t f s
  | .topkInit t f => Sys2Proof.Machine.execTopkInit t f s
  | .topkBlockGrant hub => Sys2Proof.Machine.execTopkBlockGrant hub s
  | .topkPush t f => Sys2Proof.Machine.execTopkPush t f s
  | .topkMerge t f => Sys2Proof.Machine.execTopkMerge t f s
  | .topkEmit t f => Sys2Proof.Machine.execTopkEmit t f s
  | .nodeMerge ctx => Sys2Proof.Machine.execNodeMerge ctx s
  | .mergeStream m => Sys2Proof.Machine.execMergeStream m s
  | .mergeSessionClose qtag => Sys2Proof.Machine.execMergeSessionClose qtag s
  | .mergeSessionTimeout qtag => Sys2Proof.Machine.execMergeSessionTimeout qtag s
  | .heldStreamTimeout qtag => Sys2Proof.Machine.execHeldStreamTimeout qtag s
  | .pinReleaseMessage qtag => Sys2Proof.Machine.execPinReleaseMessage qtag s
  | .shardPinTimeout ctx => Sys2Proof.Machine.execShardPinTimeout ctx s
  | .mergePlan q => Sys2Proof.Machine.execMergePlan q s
  | .argmax t f => Sys2Proof.Machine.execArgmax t f s
  | .modelLoad q => Sys2Proof.Machine.execModelLoad q s
  | .modelLoadDone slot okay code => Sys2Proof.Machine.execModelLoadDone slot okay code s
  | .modelUnload q => Sys2Proof.Machine.execModelUnload q s
  | .cassetteBatchStart tile => Sys2Proof.Machine.execCassetteBatchStart tile s
  | .cassetteBatchDone tile => Sys2Proof.Machine.execCassetteBatchDone tile s
  | .cassetteWindow tile => Sys2Proof.Machine.execCassetteWindow tile s
  | .casShift t f => Sys2Proof.Machine.execCasShift t f s
  | .casRun t f => Sys2Proof.Machine.execCasRun t f s
  | .free t f => Sys2Proof.Machine.execFree t f s
  | .add t f => Sys2Proof.Machine.execAdd t f s
  | .sub t f => Sys2Proof.Machine.execSub t f s
  | .and t f => Sys2Proof.Machine.execAnd t f s
  | .or t f => Sys2Proof.Machine.execOr t f s
  | .xor t f => Sys2Proof.Machine.execXor t f s
  | .shl t f => Sys2Proof.Machine.execShl t f s
  | .shr t f => Sys2Proof.Machine.execShr t f s
  | .sra t f => Sys2Proof.Machine.execSra t f s
  | .slt t f => Sys2Proof.Machine.execSlt t f s
  | .sltu t f => Sys2Proof.Machine.execSltu t f s
  | .min t f => Sys2Proof.Machine.execMin t f s
  | .max t f => Sys2Proof.Machine.execMax t f s
  | .minu t f => Sys2Proof.Machine.execMinu t f s
  | .maxu t f => Sys2Proof.Machine.execMaxu t f s
  | .sel t f => Sys2Proof.Machine.execSel t f s
  | .popc t f => Sys2Proof.Machine.execPopc t f s
  | .clz t f => Sys2Proof.Machine.execClz t f s
  | .ctz t f => Sys2Proof.Machine.execCtz t f s
  | .ptest t f => Sys2Proof.Machine.execPtest t f s
  | .mul t f => Sys2Proof.Machine.execMul t f s
  | .mulh t f => Sys2Proof.Machine.execMulh t f s
  | .mulhu t f => Sys2Proof.Machine.execMulhu t f s
  | .div t f => Sys2Proof.Machine.execDiv t f s
  | .divu t f => Sys2Proof.Machine.execDivu t f s
  | .rem t f => Sys2Proof.Machine.execRem t f s
  | .remu t f => Sys2Proof.Machine.execRemu t f s
  | .fadd t f => Sys2Proof.Machine.execFadd t f s
  | .fsub t f => Sys2Proof.Machine.execFsub t f s
  | .fmul t f => Sys2Proof.Machine.execFmul t f s
  | .fdiv t f => Sys2Proof.Machine.execFdiv t f s
  | .fsqrt t f => Sys2Proof.Machine.execFsqrt t f s
  | .fmin t f => Sys2Proof.Machine.execFmin t f s
  | .fmax t f => Sys2Proof.Machine.execFmax t f s
  | .feq t f => Sys2Proof.Machine.execFeq t f s
  | .flt t f => Sys2Proof.Machine.execFlt t f s
  | .fle t f => Sys2Proof.Machine.execFle t f s
  | .fcvt t f => Sys2Proof.Machine.execFcvt t f s
  | .kand t f => Sys2Proof.Machine.execKand t f s
  | .kor t f => Sys2Proof.Machine.execKor t f s
  | .kxor t f => Sys2Proof.Machine.execKxor t f s
  | .knot t f => Sys2Proof.Machine.execKnot t f s
  | .kmovS2k t f => Sys2Proof.Machine.execKmovS2k t f s
  | .kmovK2s t f => Sys2Proof.Machine.execKmovK2s t f s
  | .kpopc t f => Sys2Proof.Machine.execKpopc t f s
  | .vadd t f => Sys2Proof.Machine.execVadd t f s
  | .vsub t f => Sys2Proof.Machine.execVsub t f s
  | .vmul t f => Sys2Proof.Machine.execVmul t f s
  | .vmin t f => Sys2Proof.Machine.execVmin t f s
  | .vmax t f => Sys2Proof.Machine.execVmax t f s
  | .vand t f => Sys2Proof.Machine.execVand t f s
  | .vor t f => Sys2Proof.Machine.execVor t f s
  | .vxor t f => Sys2Proof.Machine.execVxor t f s
  | .vshl t f => Sys2Proof.Machine.execVshl t f s
  | .vshr t f => Sys2Proof.Machine.execVshr t f s
  | .vsra t f => Sys2Proof.Machine.execVsra t f s
  | .vpopc t f => Sys2Proof.Machine.execVpopc t f s
  | .vdotp t f => Sys2Proof.Machine.execVdotp t f s
  | .vcmpEq t f => Sys2Proof.Machine.execVcmpEq t f s
  | .vcmpNe t f => Sys2Proof.Machine.execVcmpNe t f s
  | .vcmpLt t f => Sys2Proof.Machine.execVcmpLt t f s
  | .vcmpLe t f => Sys2Proof.Machine.execVcmpLe t f s
  | .vmov t f => Sys2Proof.Machine.execVmov t f s
  | .vbcast t f => Sys2Proof.Machine.execVbcast t f s
  | .vext t f => Sys2Proof.Machine.execVext t f s
  | .vperm t f => Sys2Proof.Machine.execVperm t f s
  | .vcvt t f => Sys2Proof.Machine.execVcvt t f s
  | .vredAdd t f => Sys2Proof.Machine.execVredAdd t f s
  | .vredMin t f => Sys2Proof.Machine.execVredMin t f s
  | .vredMax t f => Sys2Proof.Machine.execVredMax t f s
  | .fence t f => Sys2Proof.Machine.execFence t f s
  | .fenceRemote t f => Sys2Proof.Machine.execFenceRemote t f s
  | .nop t f => Sys2Proof.Machine.execNop t f s
  | .endThread t f => Sys2Proof.Machine.execEndThread t f s
  | .yield t f => Sys2Proof.Machine.execYield t f s
  | .addi t f => Sys2Proof.Machine.execAddi t f s
  | .andi t f => Sys2Proof.Machine.execAndi t f s
  | .ori t f => Sys2Proof.Machine.execOri t f s
  | .xori t f => Sys2Proof.Machine.execXori t f s
  | .shli t f => Sys2Proof.Machine.execShli t f s
  | .shri t f => Sys2Proof.Machine.execShri t f s
  | .srai t f => Sys2Proof.Machine.execSrai t f s
  | .slti t f => Sys2Proof.Machine.execSlti t f s
  | .sltiu t f => Sys2Proof.Machine.execSltiu t f s
  | .beq t f => Sys2Proof.Machine.execBeq t f s
  | .bne t f => Sys2Proof.Machine.execBne t f s
  | .blt t f => Sys2Proof.Machine.execBlt t f s
  | .bge t f => Sys2Proof.Machine.execBge t f s
  | .bltu t f => Sys2Proof.Machine.execBltu t f s
  | .bgeu t f => Sys2Proof.Machine.execBgeu t f s
  | .jal t f => Sys2Proof.Machine.execJal t f s
  | .jalr t f => Sys2Proof.Machine.execJalr t f s
  | .srd t f => Sys2Proof.Machine.execSrd t f s
  | .swr t f => Sys2Proof.Machine.execSwr t f s
  | .li t f => Sys2Proof.Machine.execLi t f s
  | .liu t f => Sys2Proof.Machine.execLiu t f s
  | .ldB t f => Sys2Proof.Machine.execLdB t f s
  | .ldBu t f => Sys2Proof.Machine.execLdBu t f s
  | .ldH t f => Sys2Proof.Machine.execLdH t f s
  | .ldHu t f => Sys2Proof.Machine.execLdHu t f s
  | .ldW t f => Sys2Proof.Machine.execLdW t f s
  | .ldWu t f => Sys2Proof.Machine.execLdWu t f s
  | .ldD t f => Sys2Proof.Machine.execLdD t f s
  | .ldV t f => Sys2Proof.Machine.execLdV t f s
  | .stB t f => Sys2Proof.Machine.execStB t f s
  | .stH t f => Sys2Proof.Machine.execStH t f s
  | .stW t f => Sys2Proof.Machine.execStW t f s
  | .stD t f => Sys2Proof.Machine.execStD t f s
  | .stV t f => Sys2Proof.Machine.execStV t f s
  | .amo t fn f => Sys2Proof.Machine.execAmo t fn f s
  | .loadComplete acc res => Sys2Proof.Machine.execLoadComplete acc res s
  | .spokeKat hub spoke sigOk => Sys2Proof.Machine.execSpokeKat hub spoke sigOk s
  | .tsRead t f => Sys2Proof.Machine.execTsRead t f s
  | .snapArm t f => Sys2Proof.Machine.execSnapArm t f s
  | .qPop t f => Sys2Proof.Machine.execQPop t f s
  | .qPush t f => Sys2Proof.Machine.execQPush t f s
  | .qCommit t f => Sys2Proof.Machine.execQCommit t f s
  | .semWait t f => Sys2Proof.Machine.execSemWait t f s
  | .semPost t f => Sys2Proof.Machine.execSemPost t f s
  | .barArrive t f => Sys2Proof.Machine.execBarArrive t f s
  | .evtSet t f => Sys2Proof.Machine.execEvtSet t f s
  | .evtWait t f => Sys2Proof.Machine.execEvtWait t f s
  | .waitTimeout t => Sys2Proof.Machine.execWaitTimeout t s
  | .contextDeadline ctx => Sys2Proof.Machine.execContextDeadline ctx s
  | .tabGather t f => Sys2Proof.Machine.execTabGather t f s
  | .tabPool t f => Sys2Proof.Machine.execTabPool t f s
  | .tabUpdate t f => Sys2Proof.Machine.execTabUpdate t f s
  | .tabReplace t f => Sys2Proof.Machine.execTabReplace t f s
  | .rowUpdateApply eng => Sys2Proof.Machine.execRowUpdateApply eng s
  | .rowReplaceApply eng => Sys2Proof.Machine.execRowReplaceApply eng s
  | .rowGatherRead eng => Sys2Proof.Machine.execRowGatherRead eng s
  | .rowOwnerRecompute => Sys2Proof.Machine.execRowOwnerRecompute s
  | .replicaRowApply owner addr rec => Sys2Proof.Machine.execReplicaRowApply owner addr rec s
  | .tabGatherItem ctx => Sys2Proof.Machine.execTabGatherItem ctx s
  | .tabPoolItem ctx => Sys2Proof.Machine.execTabPoolItem ctx s
  | .tabUpdateItem ctx => Sys2Proof.Machine.execTabUpdateItem ctx s
  | .tabReplaceItem ctx => Sys2Proof.Machine.execTabReplaceItem ctx s
  | .lockAcquire q => Sys2Proof.Machine.execLockAcquire q s
  | .lockRelease q => Sys2Proof.Machine.execLockRelease q s
  | .storeAmo q => Sys2Proof.Machine.execStoreAmo q s
  | .storeBandwidthGrant client => Sys2Proof.Machine.execStoreBandwidthGrant client s
  | .leaseLapse client => Sys2Proof.Machine.execLeaseLapse client s
  | .clientStatRead src client => Sys2Proof.Machine.execClientStatRead src client s
  | .stoCliIdWrite src client value => Sys2Proof.Machine.execStoCliIdWrite src client value s
  | .stoCliBwWrite src client value => Sys2Proof.Machine.execStoCliBwWrite src client value s
  | .cxlMemRead dpa len nload => Sys2Proof.Machine.execCxlMemRead dpa len nload s
  | .cxlMemWrite dpa data nload => Sys2Proof.Machine.execCxlMemWrite dpa data nload s
  | .cxlReadDeadline id => Sys2Proof.Machine.execCxlReadDeadline id s
  | .peerWindowAccess off len data => Sys2Proof.Machine.execPeerWindowAccess off len data s
  | .regionMap q => Sys2Proof.Machine.execRegionMap q s
  | .regionUnmap q => Sys2Proof.Machine.execRegionUnmap q s
  | .regionUnmapComplete owner region => Sys2Proof.Machine.execRegionUnmapComplete owner region s
  | .regionFlag q => Sys2Proof.Machine.execRegionFlag q s
  | .derailleurEpoch => Sys2Proof.Machine.execDerailleurEpoch s
  | .capacityDemotion tier => Sys2Proof.Machine.execCapacityDemotion tier s
  | .quotaWrite src tid second value => Sys2Proof.Machine.execQuotaWrite src tid second value s
  | .tbCfgWrite src value => Sys2Proof.Machine.execTbCfgWrite src value s
  | .chunkCommit move => Sys2Proof.Machine.execChunkCommit move s
  | .moveStop move code => Sys2Proof.Machine.execMoveStop move code s
  | .replicaWriteApply owner addr seq data => Sys2Proof.Machine.execReplicaWriteApply owner addr seq data s
  | .replicaLagExceeded owner region => Sys2Proof.Machine.execReplicaLagExceeded owner region s
  | .eccError e => Sys2Proof.Machine.execEccError e s
  | .flashReadDone unit codeword res => Sys2Proof.Machine.execFlashReadDone unit codeword res s
  | .flashProgramDone die block okay erase => Sys2Proof.Machine.execFlashProgramDone die block okay erase s
  | .dieRetire die => Sys2Proof.Machine.execDieRetire die s
  | .writeBack => Sys2Proof.Machine.execWriteBack s
  | .mapPageWriteback page => Sys2Proof.Machine.execMapPageWriteback page s
  | .garbageCollection die => Sys2Proof.Machine.execGarbageCollection die s
  | .slcFold die idle => Sys2Proof.Machine.execSlcFold die idle s
  | .wearLevelMove die => Sys2Proof.Machine.execWearLevelMove die s
  | .blockRefresh die block => Sys2Proof.Machine.execBlockRefresh die block s
  | .patrolRead die block iters retries => Sys2Proof.Machine.execPatrolRead die block iters retries s
  | .zqCalibration die => Sys2Proof.Machine.execZqCalibration die s
  | .pfSenseTrip decivolt lowNs => Sys2Proof.Machine.execPfSenseTrip decivolt lowNs s
  | .pfFreeze => Sys2Proof.Machine.execPfFreeze s
  | .pfPowerGate => Sys2Proof.Machine.execPfPowerGate s
  | .journalSave => Sys2Proof.Machine.execJournalSave s
  | .journalSaveComplete => Sys2Proof.Machine.execJournalSaveComplete s
  | .busUndervoltage decivolt => Sys2Proof.Machine.execBusUndervoltage decivolt s
  | .busRecovery decivolt goodMs => Sys2Proof.Machine.execBusRecovery decivolt goodMs s
  | .laserPowerSample port powers => Sys2Proof.Machine.execLaserPowerSample port powers s
  | .codewordReceive port count corrected fecOk head payload tag tail => Sys2Proof.Machine.execCodewordReceive port count corrected fecOk head payload tag tail s
  | .dataFlit port f => Sys2Proof.Machine.execDataFlit port f s
  | .ackFlit port f => Sys2Proof.Machine.execAckFlit port f s
  | .idleFlit port f => Sys2Proof.Machine.execIdleFlit port f s
  | .ackTimer port => Sys2Proof.Machine.execAckTimer port s
  | .replayTimeout port => Sys2Proof.Machine.execReplayTimeout port s
  | .laneErrorWindow port counts => Sys2Proof.Machine.execLaneErrorWindow port counts s
  | .laneSignalLoss port lane => Sys2Proof.Machine.execLaneSignalLoss port lane s
  | .spare port m => Sys2Proof.Machine.execSpare port m s
  | .width port m => Sys2Proof.Machine.execWidth port m s
  | .laneSwitch port tx count => Sys2Proof.Machine.execLaneSwitch port tx count s
  | .rekey port phase seq sigOk => Sys2Proof.Machine.execRekey port phase seq sigOk s
  | .rekeyStart port => Sys2Proof.Machine.execRekeyStart port s
  | .rekeyFail port => Sys2Proof.Machine.execRekeyFail port s
  | .lcert port index count certOk => Sys2Proof.Machine.execLcert port index count certOk s
  | .neigh port node nport time digest => Sys2Proof.Machine.execNeigh port node nport time digest s
  | .portLight port rxSignal => Sys2Proof.Machine.execPortLight port rxSignal s
  | .portTrain port elapsed => Sys2Proof.Machine.execPortTrain port elapsed s
  | .portKey port => Sys2Proof.Machine.execPortKey port s
  | .portNeigh port => Sys2Proof.Machine.execPortNeigh port s
  | .portUp port => Sys2Proof.Machine.execPortUp port s
  | .portStepTimeout port => Sys2Proof.Machine.execPortStepTimeout port s
  | .portRetry port => Sys2Proof.Machine.execPortRetry port s
  | .timeExchange port => Sys2Proof.Machine.execTimeExchange port s
  | .sync port num t2 => Sys2Proof.Machine.execSync port num t2 s
  | .followUp port num t1 t3 => Sys2Proof.Machine.execFollowUp port num t1 t3 s
  | .delayReq port num t4 => Sys2Proof.Machine.execDelayReq port num t4 s
  | .delayResp port num t4 => Sys2Proof.Machine.execDelayResp port num t4 s
  | .rd p => Sys2Proof.Machine.execRd p s
  | .rdRsp p => Sys2Proof.Machine.execRdRsp p s
  | .wr p => Sys2Proof.Machine.execWr p s
  | .wrRsp p => Sys2Proof.Machine.execWrRsp p s
  | .pwr p => Sys2Proof.Machine.execPwr p s
  | .pwrAck p => Sys2Proof.Machine.execPwrAck p s
  | .pwrAckTimer src => Sys2Proof.Machine.execPwrAckTimer src s
  | .amoPacket p => Sys2Proof.Machine.execAmoPacket p s
  | .amoRsp p => Sys2Proof.Machine.execAmoRsp p s
  | .faultNote p => Sys2Proof.Machine.execFaultNote p s
  | .targetTimeout tag => Sys2Proof.Machine.execTargetTimeout tag s
  | .postedWriteTimeout tag => Sys2Proof.Machine.execPostedWriteTimeout tag s
  | .heartbeatSend => Sys2Proof.Machine.execHeartbeatSend s
  | .heartbeat m => Sys2Proof.Machine.execHeartbeat m s
  | .heartbeatMiss node => Sys2Proof.Machine.execHeartbeatMiss node s
  | .suspect subject incarn watcher tf => Sys2Proof.Machine.execSuspect subject incarn watcher tf s
  | .vote member subject incarn tf kind => Sys2Proof.Machine.execVote member subject incarn tf kind s
  | .decide d => Sys2Proof.Machine.execDecide d s
  | .beaconSend => Sys2Proof.Machine.execBeaconSend s
  | .beacon leader bseq lastDecision port => Sys2Proof.Machine.execBeacon leader bseq lastDecision port s
  | .fenceTimeout => Sys2Proof.Machine.execFenceTimeout s
  | .nodeFailedDecision => Sys2Proof.Machine.execNodeFailedDecision s
  | .joinDecision => Sys2Proof.Machine.execJoinDecision s
  | .jobFaultDecision => Sys2Proof.Machine.execJobFaultDecision s
  | .functionDecision => Sys2Proof.Machine.execFunctionDecision s
  | .absentDecision node => Sys2Proof.Machine.execAbsentDecision node s
  | .joinRequest node incarn func spare => Sys2Proof.Machine.execJoinRequest node incarn func spare s
  | .jobFaultRequest job te => Sys2Proof.Machine.execJobFaultRequest job te s
  | .functionRequest node func te lends serves => Sys2Proof.Machine.execFunctionRequest node func te lends serves s
  | .leaveRequest node te => Sys2Proof.Machine.execLeaveRequest node te s
  | .swapOutRequest node lends replPrimary => Sys2Proof.Machine.execSwapOutRequest node lends replPrimary s
  | .drainTimeout sh => Sys2Proof.Machine.execDrainTimeout sh s
  | .shardStream m => Sys2Proof.Machine.execShardStream m s
  | .windowCreate q => Sys2Proof.Machine.execWindowCreate q s
  | .windowRemove q => Sys2Proof.Machine.execWindowRemove q s
  | .jobStart q => Sys2Proof.Machine.execJobStart q s
  | .jobFault q => Sys2Proof.Machine.execJobFault q s
  | .jobStop q => Sys2Proof.Machine.execJobStop q s
  | .shardPair q => Sys2Proof.Machine.execShardPair q s
  | .replSet q => Sys2Proof.Machine.execReplSet q s
  | .routeSet q => Sys2Proof.Machine.execRouteSet q s
  | .pelRequestJoin q => Sys2Proof.Machine.execPelRequestJoin q s
  | .pelRequestFunction q => Sys2Proof.Machine.execPelRequestFunction q s
  | .pelRequestLeave q => Sys2Proof.Machine.execPelRequestLeave q s
  | .pelRequestSwapOut q => Sys2Proof.Machine.execPelRequestSwapOut q s
  | .syncCreate q => Sys2Proof.Machine.execSyncCreate q s
  | .syncDestroy q => Sys2Proof.Machine.execSyncDestroy q s
  | .syncSignal q => Sys2Proof.Machine.execSyncSignal q s
  | .doorbell src page value => Sys2Proof.Machine.execDoorbell src page value s
  | .queueFlush src page value => Sys2Proof.Machine.execQueueFlush src page value s
  | .descriptorFetch q slots res => Sys2Proof.Machine.execDescriptorFetch q slots res s
  | .ringDmaTimeout q => Sys2Proof.Machine.execRingDmaTimeout q s
  | .qsyQcfgWrite src q value => Sys2Proof.Machine.execQsyQcfgWrite src q value s
  | .bucketRefill => Sys2Proof.Machine.execBucketRefill s
  | .admShpCfgWrite src tid value => Sys2Proof.Machine.execAdmShpCfgWrite src tid value s
  | .admClsCfgWrite src cls value => Sys2Proof.Machine.execAdmClsCfgWrite src cls value s
  | .gateOpen => Sys2Proof.Machine.execGateOpen s
  | .gateClose => Sys2Proof.Machine.execGateClose s
  | .fixedSlotEntry src value => Sys2Proof.Machine.execFixedSlotEntry src value s
  | .fixedSlotExit src value => Sys2Proof.Machine.execFixedSlotExit src value s
  | .tenantCreate src tid value => Sys2Proof.Machine.execTenantCreate src tid value s
  | .tenantDestroy src tid value => Sys2Proof.Machine.execTenantDestroy src tid value s
  | .tenantDestroyComplete tid => Sys2Proof.Machine.execTenantDestroyComplete tid s
  | .keyParityError slot both => Sys2Proof.Machine.execKeyParityError slot both s
  | .getVersion ch => Sys2Proof.Machine.execGetVersion ch s
  | .getCapabilities ch => Sys2Proof.Machine.execGetCapabilities ch s
  | .negotiateAlgorithms ch offersAll => Sys2Proof.Machine.execNegotiateAlgorithms ch offersAll s
  | .getDigests ch => Sys2Proof.Machine.execGetDigests ch s
  | .getCertificate ch slot off len => Sys2Proof.Machine.execGetCertificate ch slot off len s
  | .challenge ch slot nonce => Sys2Proof.Machine.execChallenge ch slot nonce s
  | .getMeasurements ch index nonce => Sys2Proof.Machine.execGetMeasurements ch index nonce s
  | .keyExchange ch cert => Sys2Proof.Machine.execKeyExchange ch cert s
  | .finish session macOk => Sys2Proof.Machine.execFinish session macOk s
  | .spdmHeartbeat session => Sys2Proof.Machine.execSpdmHeartbeat session s
  | .spdmHeartbeatTimeout session => Sys2Proof.Machine.execSpdmHeartbeatTimeout session s
  | .keyUpdate session => Sys2Proof.Machine.execKeyUpdate session s
  | .endSession session => Sys2Proof.Machine.execEndSession session s
  | .getCsr ch => Sys2Proof.Machine.execGetCsr ch s
  | .setCertificate session slot chain => Sys2Proof.Machine.execSetCertificate session slot chain s
  | .chunkSend ch seq data last => Sys2Proof.Machine.execChunkSend ch seq data last s
  | .chunkGet ch seq => Sys2Proof.Machine.execChunkGet ch seq s
  | .setTenantKey session kpersist tid key => Sys2Proof.Machine.execSetTenantKey session kpersist tid key s
  | .setConsent session consent => Sys2Proof.Machine.execSetConsent session consent s
  | .regRead session off width => Sys2Proof.Machine.execRegRead session off width s
  | .regWrite session off width value => Sys2Proof.Machine.execRegWrite session off width value s
  | .setAnchor session digest sigOk => Sys2Proof.Machine.execSetAnchor session digest sigOk s
  | .debugToken session tok => Sys2Proof.Machine.execDebugToken session tok s
  | .debugTokenExpiry => Sys2Proof.Machine.execDebugTokenExpiry s
  | .makerToken session tok => Sys2Proof.Machine.execMakerToken session tok s
  | .bypass tdi => Sys2Proof.Machine.execBypass tdi s
  | .idcode => Sys2Proof.Machine.execIdcode s
  | .samplePreload pins => Sys2Proof.Machine.execSamplePreload pins s
  | .extest pins => Sys2Proof.Machine.execExtest pins s
  | .jtagSystemDebug code => Sys2Proof.Machine.execJtagSystemDebug code s
  | .jtagTenantDebug code tid t halt => Sys2Proof.Machine.execJtagTenantDebug code tid t halt s
  | .jtagMakerTest code => Sys2Proof.Machine.execJtagMakerTest code s
  | .pmbusStatusPoll faults => Sys2Proof.Machine.execPmbusStatusPoll faults s
  | .pmbusTelemetryPoll mv ma dc => Sys2Proof.Machine.execPmbusTelemetryPoll mv ma dc s
  | .railFault rail millivolt regulatorFault => Sys2Proof.Machine.execRailFault rail millivolt regulatorFault s
  | .hubFreewheel hub => Sys2Proof.Machine.execHubFreewheel hub s
  | .pllPowerDown tile => Sys2Proof.Machine.execPllPowerDown tile s
  | .pllRelock tile => Sys2Proof.Machine.execPllRelock tile s
  | .thermalSample dies hbms => Sys2Proof.Machine.execThermalSample dies hbms s
  | .throttleWithdraw => Sys2Proof.Machine.execThrottleWithdraw s
  | .throttleRelease => Sys2Proof.Machine.execThrottleRelease s
  | .throttleReturn => Sys2Proof.Machine.execThrottleReturn s
  | .powerOn => Sys2Proof.Machine.execPowerOn s
  | .brownOut => Sys2Proof.Machine.execBrownOut s
  | .nodeRstN lowUs => Sys2Proof.Machine.execNodeRstN lowUs s
  | .perstN => Sys2Proof.Machine.execPerstN s
  | .pcieHotReset => Sys2Proof.Machine.execPcieHotReset s
  | .pcieLinkDown => Sys2Proof.Machine.execPcieLinkDown s
  | .managementWatchdog => Sys2Proof.Machine.execManagementWatchdog s
  | .tileWatchdog hub stuckMs => Sys2Proof.Machine.execTileWatchdog hub stuckMs s
  | .lockstepMismatch => Sys2Proof.Machine.execLockstepMismatch s
  | .clockLoss which => Sys2Proof.Machine.execClockLoss which s
  | .resetRequest src value => Sys2Proof.Machine.execResetRequest src value s
  | .resetL3 tile => Sys2Proof.Machine.execResetL3 tile s
  | .resetL2 => Sys2Proof.Machine.execResetL2 s
  | .resetL1 => Sys2Proof.Machine.execResetL1 s
  | .resetL0 => Sys2Proof.Machine.execResetL0 s
  | .resetComplete level tile lost => Sys2Proof.Machine.execResetComplete level tile lost s
  | .resetFuseProgram src value => Sys2Proof.Machine.execResetFuseProgram src value s
  | .strapOverrideWrite src value => Sys2Proof.Machine.execStrapOverrideWrite src value s
  | .nodeStart info => Sys2Proof.Machine.execNodeStart info s
  | .nodeReady => Sys2Proof.Machine.execNodeReady s
  | .startTimeout => Sys2Proof.Machine.execStartTimeout s
  | .mboxWrite src value data => Sys2Proof.Machine.execMboxWrite src value data s
  | .mboxCommit src value sigOk => Sys2Proof.Machine.execMboxCommit src value sigOk s
  | .mboxClear src value => Sys2Proof.Machine.execMboxClear src value s
  | .mboxReset src value => Sys2Proof.Machine.execMboxReset src value s
  | .mgtTimeSet src value => Sys2Proof.Machine.execMgtTimeSet src value s
  | .cassetteKat tile sigOk => Sys2Proof.Machine.execCassetteKat tile sigOk s
  | .logTailWrite src value => Sys2Proof.Machine.execLogTailWrite src value s
  | .firstFaultClear src value => Sys2Proof.Machine.execFirstFaultClear src value s
  | .suspectReportRelease src value => Sys2Proof.Machine.execSuspectReportRelease src value s
  | .snapshotArm src value => Sys2Proof.Machine.execSnapshotArm src value s
  | .snapshotPortArm t issuer seq port => Sys2Proof.Machine.execSnapshotPortArm t issuer seq port s
  | .snapshotLatch => Sys2Proof.Machine.execSnapshotLatch s
  | .snapshotComplete bank => Sys2Proof.Machine.execSnapshotComplete bank s
  | .functionLevelReset func => Sys2Proof.Machine.execFunctionLevelReset func s
  | .vfEnableClear => Sys2Proof.Machine.execVfEnableClear s
  | .poisonedTlp func => Sys2Proof.Machine.execPoisonedTlp func s
  | .identifyMemoryDevice => Sys2Proof.Machine.execIdentifyMemoryDevice s
  | .getSupportedLogs => Sys2Proof.Machine.execGetSupportedLogs s
  | .getLog off len => Sys2Proof.Machine.execGetLog off len s
  | .getEventRecords log => Sys2Proof.Machine.execGetEventRecords log s
  | .clearEventRecords log handles => Sys2Proof.Machine.execClearEventRecords log handles s
  | .getHealthInfo => Sys2Proof.Machine.execGetHealthInfo s
  | .setEndpointId eid => Sys2Proof.Machine.execSetEndpointId eid s
  | .getPdr record => Sys2Proof.Machine.execGetPdr record s
  | .getSensorReading sensor => Sys2Proof.Machine.execGetSensorReading sensor s
  | .getStateSensorReadings sensor => Sys2Proof.Machine.execGetStateSensorReadings sensor s
  | .pollForPlatformEventMessage => Sys2Proof.Machine.execPollForPlatformEventMessage s
  | .gpioFallingEdge pin => Sys2Proof.Machine.execGpioFallingEdge pin s
  | .registerRead src off width => Sys2Proof.Machine.execRegisterRead src off width s
  | .unsupportedRequest posted => Sys2Proof.Machine.execUnsupportedRequest posted s
  | .pcieLinkUp width speed flit cxl => Sys2Proof.Machine.execPcieLinkUp width speed flit cxl s
  | .storeComplete acc res => Sys2Proof.Machine.execStoreComplete acc res s
  | .flashServiceSlot channel => Sys2Proof.Machine.execFlashServiceSlot channel s
  | .timeHoldEnd parentTime => Sys2Proof.Machine.execTimeHoldEnd parentTime s
  | .sealAreaFold => Sys2Proof.Machine.execSealAreaFold s

end Sys2Proof.Machine
end

