-- ==== Sys2Proof/Machine/Step.lean ====
section
/-! DEFINITION. One step: the command at the front of the queue, or, on an empty queue, one nanosecond. -/

namespace Sys2Proof.Machine

/-- One tick of 1 ns on an empty queue (notes/assumptions/1.md): the clock counts, and node time, which counts
nanoseconds, counts with it unless it is held (15 R501, R502). -/
def State.tick (s : State) : State :=
  let t := if s.node.mgt.timeHold.isSome then s.node.mgt.timeNs else (s.node.mgt.timeNs + 1) % 2 ^ 64
  { s with node := { s.node with clk := s.node.clk + 1, mgt := { s.node.mgt with timeNs := t } } }

def step (s : State) : Host.Outcome State Fault Refusal :=
  match s.pending with
  | [] => .next s.tick
  | c :: rest => exec c { s with pending := rest }

/-- The command that a word spells, put at the front of the queue; the table gives its rows no bits. -/
def State.withFetchWord (s : State) (nbits w : Nat) : State :=
  match Sys2Proof.decodeTableWord nbits w with
  | some c => { s with pending := c :: s.pending }
  | none => s

end Sys2Proof.Machine
end

