-- ==== Sys2Proof/Safety.lean ====
section
/-! DEFINITION. What a safe run is, and what an instruction of a thread needs to issue: the terms of the statements. -/

namespace Sys2Proof.Machine

/-- A step that neither stops nor is refused. -/
def Runs (s : State) : Prop := ∃ t, step s = .next t

/-- The byte maps of a state are in canonical form. -/
def State.ok (s : State) : Bool := memOk s.node.mem.bytes && memOk s.node.flash.media

end Sys2Proof.Machine

namespace Sys2Proof.Claims

open Sys2Proof.Machine

/-! ## What an instruction of a thread needs to issue (06 R164, R173, R176, R186) -/

/-- The thread is bound, nothing holds it, its PC is in its program, and the store gives it this word, no
reserved one (06 R188). -/
structure Issues (s : State) (th : Thr) (w : W64) (t : Thread) (x : Ctx) : Prop where
  bound : s.node.thread (thrNo th) = some t
  ctx : s.node.ctx t.ctx = some x
  free : s.node.canIssue (thrNo th) t = true
  low : t.lo ≤ t.pc
  high : t.pc < t.hi
  assigned : s.node.reservedAt t.pc = false
  word : s.node.fetched t.pc w = true

/-- No register of a list has a result outstanding. -/
def Landed (s : State) (th : Thr) (l : List Dst) : Prop := ∀ r ∈ l, s.node.pendingReg (thrNo th) r = false

/-- No register of a list is poisoned. -/
def Clean (t : Thread) (l : List Dst) : Prop := ∀ r ∈ l, t.poisoned r = false

/-- The end of an instruction whose thread is then `t'`. -/
def becomes (s : State) (th : Thr) (t' : Thread) : Result := s.settled (s.node.setThread (thrNo th) t')

end Sys2Proof.Claims
end

