-- ==== Sys2Proof/Certificates/Slice0/Obligations.lean ====
section
/-! DEFINITION. The statements for the provers. `s.settled n` and `s.next n` are how a command ends: the queue as it was, the
node `n` with the waiting pops that it serves over (`settled` only), the byte maps in canonical form; `SettledKeepsTheNode`
and `CanonicalBytesReadTheSame` say what that leaves of `n`. An equation `exec c s = s.settled n` therefore says the result,
that the command completes, and that whatever `n` does not change stays. -/

open Sys2Proof Sys2Proof.Machine

namespace Sys2Proof.Claims

/-- An F1 instruction whose result `g` goes to s(rd), poisoned where a source is (06 R186); PC + 1. -/
def ScalarF1 (c : Thr → F1 → Instr) (op fn : Nat) (legal : F1 → Bool) (srcs consumed : F1 → List Dst) (g : F1 → Thread → W64) : Prop :=
  ∀ (s : State) (th : Thr) (f : F1) (t : Thread) (x : Ctx),
    f.rsv = 0 → legal f = true → Issues s th (encF1 op fn f) t x → Landed s th (sDst f.rd.toNat :: srcs f) → Clean t (consumed f) →
    exec (c th f) s = becomes s th (t.setS f.rd.toNat (g f t) ((srcs f).any t.poisoned)).step

/-- Two scalar sources. -/
def Binary (c : Thr → F1 → Instr) (op fn : Nat) (g : W64 → W64 → W64) : Prop :=
  ScalarF1 c op fn (fun _ => true) (fun f => [.s f.ra.toNat, .s f.rb.toNat]) (fun _ => []) fun f t => g (t.getS f.ra.toNat) (t.getS f.rb.toNat)

/-- One scalar source. -/
def Unary (c : Thr → F1 → Instr) (op fn : Nat) (g : W64 → W64) : Prop :=
  ScalarF1 c op fn (fun _ => true) (fun f => [.s f.ra.toNat]) (fun _ => []) fun f t => g (t.getS f.ra.toNat)

/-- A scalar source and the sign-extended immediate. -/
def Immediate (c : Thr → F2 → Instr) (fn : Nat) (legal : F2 → Bool) (g : W64 → Int → W64) : Prop :=
  ∀ (s : State) (th : Thr) (f : F2) (t : Thread) (x : Ctx),
    f.rsv = 0 → legal f = true → Issues s th (encF2 0x20 fn f) t x → Landed s th [sDst f.rd.toNat, .s f.ra.toNat] →
    exec (c th f) s = becomes s th (t.setS f.rd.toNat (g (t.getS f.ra.toNat) f.imm.toInt) (t.poisoned (.s f.ra.toNat))).step

/-- A scalar floating-point operation over the low bits of its sources. -/
def Floating (c : Thr → F1 → Instr) (fn : Nat) (g : Fmt → Nat → Nat → Nat) : Prop :=
  ScalarF1 c 0x03 fn (fun f => f.et == 10 || f.et == 11) (fun f => [.s f.ra.toNat, .s f.rb.toNat]) (fun _ => []) fun f t =>
    if f.et == 10 then BitVec.ofNat 64 (g .f32 ((t.getS f.ra.toNat).toNat % 2 ^ 32) ((t.getS f.rb.toNat).toNat % 2 ^ 32))
    else BitVec.ofNat 64 (g .f64 (t.getS f.ra.toNat).toNat (t.getS f.rb.toNat).toNat)

/-- A mask operation. -/
def MaskOp (c : Thr → F1 → Instr) (fn : Nat) (two : Bool) (g : Nat → Nat → Nat) : Prop :=
  ∀ (s : State) (th : Thr) (f : F1) (t : Thread) (x : Ctx),
    f.rsv = 0 → f.rd.toNat < 8 → f.ra.toNat < 8 → (two = true → f.rb.toNat < 8) → Issues s th (encF1 0x04 fn f) t x →
    exec (c th f) s = becomes s th (t.setK f.rd.toNat (g (t.getK f.ra.toNat) (t.getK f.rb.toNat))).step

/-- A vector operation: lane i of the result is `g t i` where the mask bit is 1; else it is 0 (MZ) or what it was (06
R170). A merge reads the destination, so its poison counts (notes/assumptions/44.md). -/
def Lanes (c : Thr → F1 → Instr) (op fn : Nat) (legal : F1 → Bool) (srcs consumed : F1 → List Dst) (dt : F1 → Nat) (g : F1 → Thread → Nat → Nat) : Prop :=
  ∀ (s : State) (th : Thr) (f : F1) (t : Thread) (x : Ctx),
    f.rsv = 0 → legal f = true → f.rd.toNat < 32 → Issues s th (encF1 op fn f) t x → Landed s th (.v f.rd.toNat :: srcs f) → Clean t (consumed f) →
    ∃ v : V512, exec (c th f) s = becomes s th (t.setV f.rd.toNat v ((srcs f).any t.poisoned
        || (f.mz == 0 && masksOut (512 / etBits (dt f)) (t.getK f.k.toNat) && t.poisoned (.v f.rd.toNat)))).step
      ∧ (∀ i, i < 512 / etBits (dt f) → fld v.toNat (i * etBits (dt f)) (etBits (dt f)) =
          if bitAt (t.getK f.k.toNat) i then g f t i % 2 ^ etBits (dt f)
          else if f.mz = 1 then 0 else fld (t.getV f.rd.toNat) (i * etBits (dt f)) (etBits (dt f)))

/-- Lane by lane over two vectors. -/
def LaneWise (c : Thr → F1 → Instr) (fn : Nat) (ets : Nat → Bool) (g : Nat → Nat → Nat → Nat) : Prop :=
  Lanes c 0x08 fn (fun f => ets f.et.toNat && f.ra.toNat < 32 && f.rb.toNat < 32) (fun f => [.v f.ra.toNat, .v f.rb.toNat]) (fun _ => [])
    (fun f => f.et.toNat) fun f t i => g f.et.toNat (lane (etBits f.et.toNat) (t.getV f.ra.toNat) i) (lane (etBits f.et.toNat) (t.getV f.rb.toNat) i)

/-- A vector compare: mask bit i of k(rd) is 1 where lane i is governed and compares true; the bits above the lanes are 0. -/
def Compares (c : Thr → F1 → Instr) (fn : Nat) (gi : Int → Int → Bool) (gf : Fmt → Nat → Nat → Bool) : Prop :=
  ∀ (s : State) (th : Thr) (f : F1) (t : Thread) (x : Ctx),
    f.rsv = 0 → f.et.toNat ≤ 11 → f.rd.toNat < 8 → f.ra.toNat < 32 → f.rb.toNat < 32 → Issues s th (encF1 0x09 fn f) t x →
    Landed s th [.v f.ra.toNat, .v f.rb.toNat] →
    ∃ m : Nat, exec (c th f) s = becomes s th (t.setK f.rd.toNat m).step
      ∧ ∀ i, bitAt m i = (decide (i < etLanes f.et.toNat) && bitAt (t.getK f.k.toNat) i &&
          (let w := etBits f.et.toNat
           let a := lane w (t.getV f.ra.toNat) i
           let b := lane w (t.getV f.rb.toNat) i
           if f.et.toNat ≤ 7 then gi (etVal f.et.toNat a) (etVal f.et.toNat b) else gf (etFmt f.et.toNat) a b))

/-- A branch: to PC + imm where the condition holds, else to PC + 1 (15 bits); both sources must be clean. -/
def Branches (c : Thr → F2 → Instr) (fn : Nat) (g : W64 → W64 → Prop) : Prop :=
  ∀ (s : State) (th : Thr) (f : F2) (t : Thread) (x : Ctx),
    f.rsv = 0 → Issues s th (encF2 0x21 fn f) t x → Landed s th [.s f.ra.toNat, .s f.rd.toNat] → Clean t [.s f.ra.toNat, .s f.rd.toNat] →
    (g (t.getS f.ra.toNat) (t.getS f.rd.toNat) → exec (c th f) s = becomes s th { t with pc := (((t.pc : Int) + f.imm.toInt) % 32768).toNat })
    ∧ (¬ g (t.getS f.ra.toNat) (t.getS f.rd.toNat) → exec (c th f) s = becomes s th { t with pc := (t.pc + 1) % 32768 })

end Sys2Proof.Claims

open Sys2Proof.Claims

/-! ## Thilen: scalars (06) -/

/-- 06 Table 6.8, R189: the integer results, and everything else unchanged. -/
def Obligations.IntegerInstructionResults : Prop :=
  Binary .add 0x01 0 (fun a b => BitVec.ofNat 64 (a.toNat + b.toNat))
  ∧ Binary .sub 0x01 1 (fun a b => BitVec.ofInt 64 (a.toInt - b.toInt))
  ∧ Binary .and 0x01 2 (fun a b => a &&& b)
  ∧ Binary .or 0x01 3 (fun a b => a ||| b)
  ∧ Binary .xor 0x01 4 (fun a b => a ^^^ b)
  ∧ Binary .shl 0x01 5 (fun a b => BitVec.ofNat 64 (a.toNat * 2 ^ (b.toNat % 64)))
  ∧ Binary .shr 0x01 6 (fun a b => BitVec.ofNat 64 (a.toNat / 2 ^ (b.toNat % 64)))
  ∧ Binary .sra 0x01 7 (fun a b => BitVec.ofInt 64 (a.toInt / 2 ^ (b.toNat % 64)))
  ∧ Binary .slt 0x01 8 (fun a b => if a.toInt < b.toInt then 1 else 0)
  ∧ Binary .sltu 0x01 9 (fun a b => if a.toNat < b.toNat then 1 else 0)
  ∧ Binary .min 0x01 10 (fun a b => BitVec.ofInt 64 (min a.toInt b.toInt))
  ∧ Binary .max 0x01 11 (fun a b => BitVec.ofInt 64 (max a.toInt b.toInt))
  ∧ Binary .minu 0x01 12 (fun a b => BitVec.ofNat 64 (min a.toNat b.toNat))
  ∧ Binary .maxu 0x01 13 (fun a b => BitVec.ofNat 64 (max a.toNat b.toNat))
  ∧ ScalarF1 .sel 0x01 14 (fun _ => true) (fun f => [.s f.ra.toNat, .s f.rb.toNat, .s f.rc.toNat]) (fun _ => [])
      (fun f t => if t.getS f.rc.toNat ≠ 0 then t.getS f.ra.toNat else t.getS f.rb.toNat)
  ∧ Unary .popc 0x01 15 (fun a => BitVec.ofNat 64 ((List.range 64).countP fun i => a.getLsbD i))
  ∧ (∀ s th f t x, f.rsv = 0 → Issues s th (encF1 0x01 16 f) t x → Landed s th [sDst f.rd.toNat, .s f.ra.toNat] →
      ∃ n : Nat, n ≤ 64 ∧ (∀ i, 64 - n ≤ i → (t.getS f.ra.toNat).getLsbD i = false) ∧ (n < 64 → (t.getS f.ra.toNat).getLsbD (63 - n) = true)
        ∧ exec (.clz th f) s = becomes s th (t.setS f.rd.toNat (BitVec.ofNat 64 n) (t.poisoned (.s f.ra.toNat))).step)
  ∧ (∀ s th f t x, f.rsv = 0 → Issues s th (encF1 0x01 17 f) t x → Landed s th [sDst f.rd.toNat, .s f.ra.toNat] →
      ∃ n : Nat, n ≤ 64 ∧ (∀ i, i < n → (t.getS f.ra.toNat).getLsbD i = false) ∧ (n < 64 → (t.getS f.ra.toNat).getLsbD n = true)
        ∧ exec (.ctz th f) s = becomes s th (t.setS f.rd.toNat (BitVec.ofNat 64 n) (t.poisoned (.s f.ra.toNat))).step)
  ∧ (∀ s th f t x, f.rsv = 0 → f.et = 0 → Issues s th (encF1 0x01 18 f) t x → Landed s th [sDst f.rd.toNat, .s f.ra.toNat] →
      exec (.ptest th f) s = becomes s th (t.setS f.rd.toNat (if t.poisoned (.s f.ra.toNat) then 1 else 0) false).step)
  ∧ (∀ s th f t x, f.rsv = 0 → f.et = 1 → f.ra.toNat < 32 → Issues s th (encF1 0x01 18 f) t x → Landed s th [sDst f.rd.toNat, .v f.ra.toNat] →
      exec (.ptest th f) s = becomes s th (t.setS f.rd.toNat (if t.poisoned (.v f.ra.toNat) then 1 else 0) false).step)
  ∧ Binary .mul 0x02 0 (fun a b => BitVec.ofNat 64 (a.toNat * b.toNat))
  ∧ Binary .mulh 0x02 1 (fun a b => BitVec.ofInt 64 (a.toInt * b.toInt / 2 ^ 64))
  ∧ Binary .mulhu 0x02 2 (fun a b => BitVec.ofNat 64 (a.toNat * b.toNat / 2 ^ 64))
  ∧ Binary .div 0x02 3 (fun a b => if b = 0 then BitVec.ofInt 64 (-1) else BitVec.ofInt 64 (a.toInt.tdiv b.toInt))
  ∧ Binary .divu 0x02 4 (fun a b => if b = 0 then BitVec.ofInt 64 (-1) else BitVec.ofNat 64 (a.toNat / b.toNat))
  ∧ Binary .rem 0x02 5 (fun a b => if b = 0 then a else BitVec.ofInt 64 (a.toInt.tmod b.toInt))
  ∧ Binary .remu 0x02 6 (fun a b => if b = 0 then a else BitVec.ofNat 64 (a.toNat % b.toNat))

/-- 06 Table 6.8, R188: the results of the immediate forms. -/
def Obligations.ImmediateInstructionResults : Prop :=
  Immediate .addi 0 (fun _ => true) (fun a i => BitVec.ofInt 64 (a.toInt + i))
  ∧ Immediate .andi 1 (fun _ => true) (fun a i => a &&& BitVec.ofInt 64 i)
  ∧ Immediate .ori 2 (fun _ => true) (fun a i => a ||| BitVec.ofInt 64 i)
  ∧ Immediate .xori 3 (fun _ => true) (fun a i => a ^^^ BitVec.ofInt 64 i)
  ∧ Immediate .shli 4 (fun f => f.imm.toNat < 64) (fun a i => BitVec.ofNat 64 (a.toNat * 2 ^ i.toNat))
  ∧ Immediate .shri 5 (fun f => f.imm.toNat < 64) (fun a i => BitVec.ofNat 64 (a.toNat / 2 ^ i.toNat))
  ∧ Immediate .srai 6 (fun f => f.imm.toNat < 64) (fun a i => BitVec.ofInt 64 (a.toInt / 2 ^ i.toNat))
  ∧ Immediate .slti 7 (fun _ => true) (fun a i => if a.toInt < i then 1 else 0)
  ∧ Immediate .sltiu 8 (fun _ => true) (fun a i => if a.toNat < (BitVec.ofInt 64 i).toNat then 1 else 0)
  ∧ (∀ s th f t x, Issues s th (encF5 0x70 0 f) t x → Landed s th [sDst f.rd.toNat] →
      exec (.li th f) s = becomes s th (t.setS f.rd.toNat (BitVec.ofInt 64 f.imm.toInt)).step)
  ∧ (∀ s th f t x, f.imm.toNat < 65536 → Issues s th (encF5 0x70 1 f) t x → Landed s th [sDst f.rd.toNat, .s f.rd.toNat] →
      exec (.liu th f) s = becomes s th (t.setS f.rd.toNat
        (BitVec.ofNat 64 (f.imm.toNat * 2 ^ 48 + (t.getS f.rd.toNat).toNat % 2 ^ 48)) (t.poisoned (.s f.rd.toNat))).step)

/-- 06 R189, R79: scalar floating point. A NaN's sign and payload are free (notes/assumptions/7.md). -/
def Obligations.FloatingInstructionResults : Prop :=
  Floating .fadd 0 (fun m a b => fResult m 0 a b ((Fp.add (.of m a) (.of m b)).bits m))
  ∧ Floating .fsub 1 (fun m a b => fResult m 1 a b ((Fp.add (.of m a) (Fp.of m b).neg).bits m))
  ∧ Floating .fmul 2 (fun m a b => fResult m 2 a b ((Fp.mul (.of m a) (.of m b)).bits m))
  ∧ Floating .fdiv 3 (fun m a b => fResult m 3 a b ((Fp.div (.of m a) (.of m b)).bits m))
  ∧ ScalarF1 .fsqrt 0x03 4 (fun f => f.et == 10 || f.et == 11) (fun f => [.s f.ra.toNat]) (fun _ => []) (fun f t =>
      let m : Fmt := if f.et == 10 then .f32 else .f64
      let a := (t.getS f.ra.toNat).toNat % 2 ^ m.width
      BitVec.ofNat 64 (fResult m 4 a 0 ((Fp.sqrt (.of m a)).bits m)))
  ∧ Floating .fmin 5 (fun m a b => fMinMax m false a b)
  ∧ Floating .fmax 6 (fun m a b => fMinMax m true a b)
  ∧ Floating .feq 7 (fun m a b => if Fp.eq (.of m a) (.of m b) then 1 else 0)
  ∧ Floating .flt 8 (fun m a b => if Fp.lt (.of m a) (.of m b) then 1 else 0)
  ∧ Floating .fle 9 (fun m a b => if Fp.lt (.of m a) (.of m b) || Fp.eq (.of m a) (.of m b) then 1 else 0)
  ∧ ScalarF1 .fcvt 0x03 10 (fun f => decide (4 ≤ f.et.toNat ∧ f.et.toNat ≤ 11 ∧ 4 ≤ f.rc.toNat % 16 ∧ f.rc.toNat % 16 ≤ 11))
      (fun f => [.s f.ra.toNat]) (fun _ => []) (fun f t =>
        etWord (f.rc.toNat % 16) (etConvert f.et.toNat (f.rc.toNat % 16) ((t.getS f.ra.toNat).toNat % 2 ^ etBits f.et.toNat)))

/-- 06 Table 6.8: mask registers; k0 is never written (Table 6.1). -/
def Obligations.MaskInstructionResults : Prop :=
  MaskOp .kand 0 true (fun a b => (a &&& b) % 2 ^ 64)
  ∧ MaskOp .kor 1 true (fun a b => (a ||| b) % 2 ^ 64)
  ∧ MaskOp .kxor 2 true (fun a b => (a ^^^ b) % 2 ^ 64)
  ∧ MaskOp .knot 3 false (fun a _ => 2 ^ 64 - 1 - a % 2 ^ 64)
  ∧ (∀ s th f t x, f.rsv = 0 → f.rd.toNat < 8 → Issues s th (encF1 0x04 4 f) t x → Landed s th [.s f.ra.toNat] → Clean t [.s f.ra.toNat] →
      exec (.kmovS2k th f) s = becomes s th (t.setK f.rd.toNat (t.getS f.ra.toNat).toNat).step)
  ∧ ScalarF1 .kmovK2s 0x04 5 (fun f => f.ra.toNat < 8) (fun _ => []) (fun _ => []) (fun f t => BitVec.ofNat 64 (t.getK f.ra.toNat))
  ∧ ScalarF1 .kpopc 0x04 6 (fun f => f.ra.toNat < 8) (fun _ => []) (fun _ => []) (fun f t =>
      BitVec.ofNat 64 ((List.range 64).countP fun i => bitAt (t.getK f.ra.toNat) i))
  ∧ (∀ (t : Thread) (v : Nat), t.setK 0 v = t ∧ t.getK 0 = 2 ^ 64 - 1)

/-! ## Thilen: vectors (06 R170, Table 6.9) -/

/-- 06 Table 6.9: lane by lane. -/
def Obligations.VectorArithmeticResults : Prop :=
  LaneWise .vadd 0 (· ≤ 11) (fun et a b => if et ≤ 7 then a + b else fResult (etFmt et) 10 a b (fAdd (etFmt et) a b))
  ∧ LaneWise .vsub 1 (· ≤ 11) (fun et a b => if et ≤ 7 then ofSigned (etBits et) ((a : Int) - b) else fResult (etFmt et) 11 a b (fSub (etFmt et) a b))
  ∧ LaneWise .vmul 2 (· ≤ 11) (fun et a b => if et ≤ 7 then a * b else fResult (etFmt et) 12 a b (fMul (etFmt et) a b))
  ∧ LaneWise .vmin 3 (· ≤ 11) (fun et a b => if et ≤ 7 then ofSigned (etBits et) (min (etVal et a) (etVal et b)) else fMinMax (etFmt et) false a b)
  ∧ LaneWise .vmax 4 (· ≤ 11) (fun et a b => if et ≤ 7 then ofSigned (etBits et) (max (etVal et a) (etVal et b)) else fMinMax (etFmt et) true a b)
  ∧ LaneWise .vand 5 (· ≤ 7) (fun _ a b => a &&& b)
  ∧ LaneWise .vor 6 (· ≤ 7) (fun _ a b => a ||| b)
  ∧ LaneWise .vxor 7 (· ≤ 7) (fun _ a b => a ^^^ b)
  ∧ LaneWise .vshl 8 (· ≤ 7) (fun et a b => a * 2 ^ (b % etBits et))
  ∧ LaneWise .vshr 9 (· ≤ 7) (fun et a b => a / 2 ^ (b % etBits et))
  ∧ LaneWise .vsra 10 (· ≤ 7) (fun et a b => ofSigned (etBits et) (toSigned (etBits et) a / 2 ^ (b % etBits et)))
  ∧ Lanes .vpopc 0x08 11 (fun f => f.et.toNat ≤ 7 && f.ra.toNat < 32) (fun f => [.v f.ra.toNat]) (fun _ => []) (fun f => f.et.toNat)
      (fun f t i => (List.range (etBits f.et.toNat)).countP fun b => bitAt (lane (etBits f.et.toNat) (t.getV f.ra.toNat) i) b)
  ∧ Lanes .vdotp 0x08 12 (fun f => f.et.toNat ≤ 1 && f.ra.toNat < 32 && f.rb.toNat < 32) (fun f => [.v f.ra.toNat, .v f.rb.toNat]) (fun _ => [])
      (fun _ => 4) (fun f t j => ofSigned 32 (((List.range 4).map fun b =>
        etVal f.et.toNat (lane 8 (t.getV f.ra.toNat) (4 * j + b)) * etVal f.et.toNat (lane 8 (t.getV f.rb.toNat) (4 * j + b))).sum))

/-- 06 Table 6.9: compares, moves, conversions, reductions. -/
def Obligations.VectorMoveAndReduceResults : Prop :=
  Compares .vcmpEq 0 (fun a b => decide (a = b)) (fun m a b => Fp.eq (.of m a) (.of m b))
  ∧ Compares .vcmpNe 1 (fun a b => decide (a ≠ b)) (fun m a b => !Fp.eq (.of m a) (.of m b))
  ∧ Compares .vcmpLt 2 (fun a b => decide (a < b)) (fun m a b => Fp.lt (.of m a) (.of m b))
  ∧ Compares .vcmpLe 3 (fun a b => decide (a ≤ b)) (fun m a b => Fp.lt (.of m a) (.of m b) || Fp.eq (.of m a) (.of m b))
  ∧ Lanes .vmov 0x0A 0 (fun f => f.et.toNat ≤ 11 && f.ra.toNat < 32) (fun f => [.v f.ra.toNat]) (fun _ => []) (fun f => f.et.toNat)
      (fun f t i => lane (etBits f.et.toNat) (t.getV f.ra.toNat) i)
  ∧ Lanes .vbcast 0x0A 1 (fun f => f.et.toNat ≤ 11) (fun f => [.s f.ra.toNat]) (fun _ => []) (fun f => f.et.toNat)
      (fun f t _ => (t.getS f.ra.toNat).toNat)
  ∧ ScalarF1 .vext 0x0A 2 (fun f => f.et.toNat ≤ 11 && f.ra.toNat < 32) (fun f => [.v f.ra.toNat, .s f.rb.toNat]) (fun f => [.s f.rb.toNat])
      (fun f t => etWord f.et.toNat (lane (etBits f.et.toNat) (t.getV f.ra.toNat) ((t.getS f.rb.toNat).toNat % etLanes f.et.toNat)))
  ∧ Lanes .vperm 0x0A 3 (fun f => f.et.toNat ≤ 11 && f.ra.toNat < 32 && f.rb.toNat < 32) (fun f => [.v f.ra.toNat, .v f.rb.toNat])
      (fun f => [.v f.rb.toNat]) (fun f => f.et.toNat) (fun f t i =>
        lane (etBits f.et.toNat) (t.getV f.ra.toNat) (lane (etBits f.et.toNat) (t.getV f.rb.toNat) i % etLanes f.et.toNat))
  ∧ Lanes .vcvt 0x0A 4 (fun f => f.et.toNat ≤ 11 && f.rc.toNat % 16 ≤ 11 && f.ra.toNat < 32
        && (if etLanes (f.rc.toNat % 16) ≤ etLanes f.et.toNat then f.rc.toNat / 16 < etLanes f.et.toNat / etLanes (f.rc.toNat % 16) else f.rc.toNat / 16 == 0))
      (fun f => [.v f.ra.toNat]) (fun _ => []) (fun f => f.rc.toNat % 16) (fun f t i =>
        let j := if etLanes (f.rc.toNat % 16) ≤ etLanes f.et.toNat then f.rc.toNat / 16 * etLanes (f.rc.toNat % 16) + i else i
        if j < etLanes f.et.toNat then etConvert f.et.toNat (f.rc.toNat % 16) (lane (etBits f.et.toNat) (t.getV f.ra.toNat) j) else 0)
  ∧ ScalarF1 .vredAdd 0x0A 6 (fun f => f.et.toNat ≤ 11 && f.ra.toNat < 32) (fun f => [.v f.ra.toNat]) (fun _ => []) (fun f t =>
      let w := etBits f.et.toNat
      if f.et.toNat ≤ 7 then BitVec.ofInt 64 ((List.range (etLanes f.et.toNat)).map fun i =>
        if bitAt (t.getK f.k.toNat) i then etVal f.et.toNat (lane w (t.getV f.ra.toNat) i) else 0).sum
      else
        let m := etFmt (redEt f.et.toNat)
        BitVec.ofNat 64 (fResult m 20 (t.getV f.ra.toNat) (t.getK f.k.toNat) ((treeBy (fAdd m) 6 ((List.range (etLanes f.et.toNat)).map fun i =>
          if bitAt (t.getK f.k.toNat) i then fConv (etFmt f.et.toNat) m (lane w (t.getV f.ra.toNat) i) else 0)).headD 0)))
  ∧ (∀ s th f t x, f.rsv = 0 → f.et.toNat ≤ 7 → f.ra.toNat < 32 → Issues s th (encF1 0x0A 7 f) t x → Landed s th [sDst f.rd.toNat, .v f.ra.toNat] →
      ∃ r : Int, exec (.vredMin th f) s = becomes s th (t.setS f.rd.toNat (BitVec.ofInt 64 r) (t.poisoned (.v f.ra.toNat))).step
        ∧ (∀ i < etLanes f.et.toNat, bitAt (t.getK f.k.toNat) i → r ≤ etVal f.et.toNat (lane (etBits f.et.toNat) (t.getV f.ra.toNat) i))
        ∧ (r = etMax f.et.toNat ∨ ∃ i < etLanes f.et.toNat, bitAt (t.getK f.k.toNat) i ∧ r = etVal f.et.toNat (lane (etBits f.et.toNat) (t.getV f.ra.toNat) i)))
  ∧ (∀ s th f t x, f.rsv = 0 → f.et.toNat ≤ 7 → f.ra.toNat < 32 → Issues s th (encF1 0x0A 8 f) t x → Landed s th [sDst f.rd.toNat, .v f.ra.toNat] →
      ∃ r : Int, exec (.vredMax th f) s = becomes s th (t.setS f.rd.toNat (BitVec.ofInt 64 r) (t.poisoned (.v f.ra.toNat))).step
        ∧ (∀ i < etLanes f.et.toNat, bitAt (t.getK f.k.toNat) i → etVal f.et.toNat (lane (etBits f.et.toNat) (t.getV f.ra.toNat) i) ≤ r)
        ∧ (r = etMin f.et.toNat ∨ ∃ i < etLanes f.et.toNat, bitAt (t.getK f.k.toNat) i ∧ r = etVal f.et.toNat (lane (etBits f.et.toNat) (t.getV f.ra.toNat) i)))
  ∧ (∀ s th f t x (mx : Bool), f.rsv = 0 → 8 ≤ f.et.toNat → f.et.toNat ≤ 11 → f.ra.toNat < 32 → Issues s th (encF1 0x0A (if mx then 8 else 7) f) t x →
      Landed s th [sDst f.rd.toNat, .v f.ra.toNat] →
      let m := etFmt (redEt f.et.toNat)
      exec (if mx then .vredMax th f else .vredMin th f) s = becomes s th (t.setS f.rd.toNat
        (BitVec.ofNat 64 ((treeBy (fMinMax m mx) 6 ((List.range (etLanes f.et.toNat)).map fun i =>
          if bitAt (t.getK f.k.toNat) i then fConv (etFmt f.et.toNat) m (lane (etBits f.et.toNat) (t.getV f.ra.toNat) i)
          else m.infBits + (if mx then m.signBit else 0))).headD 0)) (t.poisoned (.v f.ra.toNat))).step)

/-! ## Thilen: control, loads and stores, time, queues and synchronisation (06, 07) -/

/-- 06 Tables 6.8 and 6.9, R171: branches, jumps, special registers, NOP, YIELD. -/
def Obligations.ControlInstructionResults : Prop :=
  Branches .beq 0 (fun a b => a = b) ∧ Branches .bne 1 (fun a b => a ≠ b)
  ∧ Branches .blt 2 (fun a b => a.toInt < b.toInt) ∧ Branches .bge 3 (fun a b => b.toInt ≤ a.toInt)
  ∧ Branches .bltu 4 (fun a b => a.toNat < b.toNat) ∧ Branches .bgeu 5 (fun a b => b.toNat ≤ a.toNat)
  ∧ (∀ s th f t x, f.rsv = 0 → Issues s th (encF2 0x22 0 f) t x → Landed s th [sDst f.rd.toNat] →
      exec (.jal th f) s = becomes s th { t.setS f.rd.toNat (BitVec.ofNat 64 ((t.pc + 1) % 32768)) with
        pc := (((t.pc : Int) + f.imm.toInt) % 32768).toNat })
  ∧ (∀ s th f t x, f.rsv = 0 → Issues s th (encF2 0x22 1 f) t x → Landed s th [sDst f.rd.toNat, .s f.ra.toNat] → Clean t [.s f.ra.toNat] →
      exec (.jalr th f) s = becomes s th { t.setS f.rd.toNat (BitVec.ofNat 64 ((t.pc + 1) % 32768)) with
        pc := (((t.getS f.ra.toNat).toInt + f.imm.toInt) % 32768).toNat })
  ∧ (∀ s th f t x, f.rsv = 0 → f.imm.toNat ≤ 8 → Issues s th (encF2 0x23 0 f) t x → Landed s th [sDst f.rd.toNat] →
      exec (.srd th f) s = becomes s th (t.setS f.rd.toNat (BitVec.ofNat 64 (s.node.special (thrNo th) t x f.imm.toNat))).step)
  ∧ (∀ s th f t x, f.rsv = 0 → f.imm.toNat = 5 → Issues s th (encF2 0x23 1 f) t x → Landed s th [.s f.ra.toNat] → Clean t [.s f.ra.toNat] →
      exec (.swr th f) s = becomes s th { t.step with lstat := (t.getS f.ra.toNat).toNat % 65536 })
  ∧ (∀ s th f t x, f.rsv = 0 → f.imm.toNat = 2 → x.owner = sysOwner → s.node.globalsDone (thrNo th) = true →
      Issues s th (encF2 0x23 1 f) t x → Landed s th [.s f.ra.toNat] → Clean t [.s f.ra.toNat] →
      exec (.swr th f) s = becomes s th { t.step with
        job := if (t.getS f.ra.toNat).getLsbD 16 then some ((t.getS f.ra.toNat).toNat % 65536) else none })
  ∧ (∀ s th f t x, f.rsv = 0 → Issues s th (encF1 0x0D 0 f) t x → exec (.nop th f) s = becomes s th t.step)
  ∧ (∀ s th f t x, f.rsv = 0 → Issues s th (encF1 0x0D 2 f) t x → exec (.yield th f) s = becomes s th t.step)

/-- 06 R192, R193, R183: the fences and END go on once what they wait for has taken effect. -/
def Obligations.FencesAndEndComplete : Prop :=
  (∀ s th f t x, f.rsv = 0 → f.rc.toNat % 16 ≠ 0 → Issues s th (encF1 0x0C 0 f) t x →
    (∀ p ∈ s.node.spokes.accesses, p.2.thr = thrNo th → ¬ (f.rc.getLsbD 3 ∧ p.2.kind = 0)
      ∧ ¬ (f.rc.getLsbD 2 ∧ (p.2.kind = 2 ∨ p.2.kind = 3 ∨ (p.2.kind = 1 ∧ p.2.x = false)))) →
    exec (.fence th f) s = becomes s th t.step)
  ∧ (∀ s th f t x j jb, f.rsv = 0 → t.job = some j → s.node.job j = some jb → s.node.globalsDone (thrNo th) = true →
      Issues s th (encF1 0x0C 1 f) t x → Landed s th [sDst f.rd.toNat] →
      (jb.unreported = [] → exec (.fenceRemote th f) s = becomes s th { (t.setS f.rd.toNat 0).step with lstat := 0 })
      ∧ ∀ i l, jb.unreported = i :: l → exec (.fenceRemote th f) s = s.settled
          (({ (s.node.setJob j { jb with seen := jb.seen + 1, unreported := l }) with
              fabric := { (s.node.setJob j { jb with seen := jb.seen + 1, unreported := l }).fabric with
                ledgerFresh := s.node.fabric.ledgerFresh.filter (· != i % 4096) } }).setThread (thrNo th)
            { (t.setS f.rd.toNat (BitVec.ofNat 64 (i * 2 ^ 32 + 0x0604))).step with lstat := (i * 2 ^ 32 + 0x0604) % 65536 }))
  ∧ (∀ s th f t x, f.rsv = 0 → Issues s th (encF1 0x0D 1 f) t x → (∀ p ∈ s.node.spokes.accesses, p.2.thr ≠ thrNo th) →
      exec (.endThread th f) s = s.settled (s.node.endOfThread (thrNo th) t x))

/-- What an F3 access needs: a legal form, its registers, and an address that R187's checks pass. -/
def Addressed (s : State) (th : Thr) (op fn : Nat) (f : F3) (t : Thread) (x : Ctx) (regs consumed : List Dst) (posted : Bool) (a size : Nat) : Prop :=
  Issues s th (encF3 op fn f) t x ∧ Landed s th regs ∧ Clean t consumed ∧ t.addrCode (f.sp == 1) posted a size = 0

/-- A load of `size` bytes: from local memory it writes its register; else an access is outstanding, which LOAD_COMPLETE
ends. -/
def Loads (c : Thr → F3 → Instr) (fn size : Nat) (vec : Bool) : Prop :=
  ∀ (s : State) (th : Thr) (f : F3) (t : Thread) (x : Ctx),
    let a := (t.addrF3 f).toNat
    let dst : Dst := if vec then .v f.rd.toNat else sDst f.rd.toNat
    f.sc ≠ 3 → (if vec then f.rd.toNat < 32 else f.k = 0) →
    Addressed s th 0x40 fn f t x [dst, .s f.ra.toNat, .s f.rb.toNat] [.s f.ra.toNat, .s f.rb.toNat] false a size →
    (f.sp = 0 → exec (c th f) s = becomes s th
      (if vec then t.setV f.rd.toNat (maskBytes (t.getK f.k.toNat) (t.localRead a 64))
       else t.setS f.rd.toNat (loadBits fn (t.localRead a size))).step)
    ∧ (f.sp = 1 → s.node.accessRoom (thrNo th) a = true → exec (c th f) s = s.settled ((s.node.setThread (thrNo th) t.step).beginAccess
      (s.node.accessF3 (thrNo th) t x f (encF3 0x40 fn f) 0 fn a size dst [] 0 (t.getK f.k.toNat))))

/-- A store of `size` bytes. -/
def Stores (c : Thr → F3 → Instr) (fn size : Nat) (vec : Bool) : Prop :=
  ∀ (s : State) (th : Thr) (f : F3) (t : Thread) (x : Ctx),
    let a := (t.addrF3 f).toNat
    let src : Dst := if vec then .v f.rd.toNat else .s f.rd.toNat
    let regs : List Dst := [src, .s f.ra.toNat, .s f.rb.toNat]
    let data := if vec then natLe 64 (t.getV f.rd.toNat) else natLe size (t.getS f.rd.toNat).toNat
    let mask := if vec then t.getK f.k.toNat else 2 ^ size - 1
    f.sc ≠ 3 → (if vec then f.rd.toNat < 32 else f.k = 0) → Addressed s th 0x41 fn f t x regs regs (f.x == 1) a size →
    (f.sp = 0 → exec (c th f) s = becomes s th (t.localStore a data mask).step)
    ∧ (f.sp = 1 → s.node.accessRoom (thrNo th) a = true → exec (c th f) s = s.settled ((s.node.setThread (thrNo th) t.step).beginAccess
      (s.node.accessF3 (thrNo th) t x f (encF3 0x41 fn f) 1 fn a size .none data 0 mask)))

/-- 06 Table 6.10, R178-R191: loads, stores and AMO. -/
def Obligations.LoadStoreInstructionResults : Prop :=
  Loads .ldB 0 1 false ∧ Loads .ldBu 1 1 false ∧ Loads .ldH 2 2 false ∧ Loads .ldHu 3 2 false ∧ Loads .ldW 4 4 false
  ∧ Loads .ldWu 5 4 false ∧ Loads .ldD 6 8 false ∧ Loads .ldV 7 64 true
  ∧ Stores .stB 0 1 false ∧ Stores .stH 1 2 false ∧ Stores .stW 2 4 false ∧ Stores .stD 3 8 false ∧ Stores .stV 4 64 true
  ∧ (∀ (s : State) (th : Thr) (fn : BitVec 5) (f : F3) (t : Thread) (x : Ctx),
      let k := fn.toNat
      let a := (t.getS f.ra.toNat + f.disp.signExtend 64).toNat
      let b := (t.getS f.rb.toNat).toNat
      let used : List Dst := (if k % 16 = 9 then [.s f.rd.toNat] else []) ++ [.s f.ra.toNat, .s f.rb.toNat]
      let old := leNat (t.localRead a (amoWidth k))
      f.sc = 0 → (k % 16 ≤ 9 ∨ k = 10) → Addressed s th 0x42 k f t x (sDst f.rd.toNat :: used) used false a (amoWidth k) →
      (f.sp = 0 → exec (.amo th fn f) s = becomes s th ((t.localWrite a (natLe (amoWidth k)
        (amoNew k old b (t.getS f.rd.toNat).toNat))).setS f.rd.toNat (amoResult k old)).step)
      ∧ (f.sp = 1 → s.node.accessRoom (thrNo th) a = true → exec (.amo th fn f) s = s.settled ((s.node.setThread (thrNo th) t.step).beginAccess
        (s.node.accessF3 (thrNo th) t x f (encF3 0x42 k f) 2 k a (amoWidth k) (sDst f.rd.toNat) (natLe 8 b) (t.getS f.rd.toNat).toNat
          (2 ^ amoWidth k - 1)))))

/-- 06 R177, R181, R190, R191; 09 R274, R281, R292: an outstanding access of a region that this node serves, which has begun,
takes effect, and its thread has the value; a context past its deadline ends. -/
def Obligations.OutstandingAccessesComplete : Prop :=
  (∀ (s : State) (id : Nat) (a : Access) (t : Thread), s.node.acc id = some a → a.begun = true → a.kind = 0 → s.node.accReady a = true → s.node.dataUp = true →
    bitAt a.addr 63 = false → s.node.remoteOf a = none → s.node.memCode a.owner a.addr a.size false = 0 →
    s.node.replOf a.owner (regionOf a.addr) = none → s.node.thread a.thr = some t →
    exec (.loadComplete id .ok) s = s.settled (((s.node.served a.owner a.addr a.issued (tileOfThr a.thr)).endAccess id).setThread a.thr
      (t.setDst a.dst a.fn a.mask false (s.node.read a.owner a.addr a.size))))
  ∧ (∀ (s : State) (id : Nat) (a : Access), s.node.acc id = some a → a.begun = true → a.kind = 1 → s.node.accReady a = true → s.node.dataUp = true →
    bitAt a.addr 63 = false → s.node.remoteOf a = none → s.node.memCode a.owner a.addr a.size true = 0 → s.node.storeRoom a.owner a.addr a.size = true →
    exec (.storeComplete id .ok) s = s.settled
      (((s.node.storeAt a.owner a.addr a.data a.mask).served a.owner a.addr a.issued (tileOfThr a.thr)).endAccess id))
  ∧ (∀ (s : State) (id : Nat) (a : Access), s.node.acc id = some a → a.begun = true → a.kind = 2 → s.node.accReady a = true → s.node.dataUp = true →
    bitAt a.addr 63 = false → s.node.remoteOf a = none → s.node.amoCode a.owner a.addr a.size = 0 → s.node.storeRoom a.owner a.addr a.size = true →
    let old := s.node.readLe a.owner a.addr (amoWidth a.fn)
    exec (.storeComplete id .ok) s = s.settled (((s.node.storeAt a.owner a.addr (natLe (amoWidth a.fn) (amoNew a.fn old (leNat a.data) a.cmp))
      (2 ^ amoWidth a.fn - 1)).served a.owner a.addr a.issued (tileOfThr a.thr)).giveAccess id a (natLe (amoWidth a.fn) old)))
  ∧ (∀ (s : State) (c d : Nat), (s.node.ctx c).bind (·.deadline) = some d → d ≤ s.node.now → s.node.dataUp = true →
    exec (.contextDeadline c) s = s.settled (s.node.deadlineCtx c))

/-- What an F1 instruction of 07 needs: `K` and `MZ` 0, its operands outstanding nowhere and clean. -/
def Ready1 (s : State) (th : Thr) (op fn : Nat) (f : F1) (regs : List (BitVec 6)) (t : Thread) (x : Ctx) : Prop :=
  f.rsv = 0 ∧ f.k = 0 ∧ f.mz = 0 ∧ Issues s th (encF1 op fn f) t x
  ∧ Landed s th (sDst f.rd.toNat :: regs.map fun r => .s r.toNat) ∧ Clean t (regs.map fun r => .s r.toNat)

/-- What an F4 instruction of 07 needs: no bit of `FL` outside `fl`. -/
def Ready4 (s : State) (th : Thr) (op fn : Nat) (f : F4) (fl : Nat) (regs : List (BitVec 6)) (t : Thread) (x : Ctx) : Prop :=
  f.k = 0 ∧ f.fl.toNat &&& fl = f.fl.toNat ∧ Issues s th (encF4 op fn f) t x
  ∧ Landed s th (regs.map fun r => .s r.toNat) ∧ Clean t (regs.map fun r => .s r.toNat)

/-- A thread's instruction of 07 completes with a result and `OK` (R199). -/
def gives (s : State) (th : Thr) (n : Node) (t : Thread) (rd : BitVec 6) (v : W64) : Result :=
  s.settled (n.setThread (thrNo th) (t.retire rd.toNat v 0))

/-- 07 R230-R232: queues as threads use them. -/
def Obligations.QueueInstructionResults : Prop :=
  (∀ (s : State) (th : Thr) (f : F1) (t : Thread) (x : Ctx),
    let n := s.node
    let q := t.reg f.ra % 8192
    let y := n.queue q
    let k := n.popSlots q
    Ready1 s th 0x14 0 f [f.ra, f.rb, f.rc] t x → f.et = 0 → n.mayUse x q true = true → 0 < k →
    t.reg f.rb % 64 = 0 → t.reg f.rb + 128 * k ≤ t.localSize →
    exec (.qPop th f) s = gives s th (n.setQueue q { y with head := (y.head + k) % 65536, pushed := KList.del y.pushed y.head })
      (t.localWrite (t.reg f.rb) ((List.range k).flatMap fun i =>
        n.read (n.qcfg q).owner (n.reg .qbase q + 128 * ((y.head + i) % 65536 % (n.qcfg q).n)) 128)) f.rd (BitVec.ofNat 64 (k * 2 ^ 16)))
  ∧ (∀ (s : State) (th : Thr) (f : F1) (t : Thread) (x : Ctx),
    let n := s.node
    let q := t.reg f.ra
    let y := n.queue q
    let k := t.reg f.rc
    let size := (n.qcfg q).n
    Ready1 s th 0x14 1 f [f.ra, f.rb, f.rc] t x → f.et = 0 → q < 8192 → n.mayUse x q false = true → 1 ≤ k → k ≤ 16 →
    t.reg f.rb + 128 * k ≤ t.localSize → (t.capture q).getD y.epoch = y.epoch → (y.resAt size + 65536 - y.head) % 65536 + k ≤ size →
    exec (.qPush th f) s = gives s th
      ((n.ringWrite q (y.resAt size) (t.localRead (t.reg f.rb) (128 * k)) 16).setQueue q
        { y with pushes := y.pushes ++ [{ thr := thrNo th, count := y.resAt size, slots := k, epoch := y.epoch }],
                 reserved := (y.resAt size + k) % 65536 })
      { t with captures := (t.captures.filter fun c => c.q != q) ++ [⟨q, y.epoch⟩] } f.rd 0)
  ∧ (∀ (s : State) (th : Thr) (f : F1) (t : Thread) (x : Ctx) (p : Push),
    let n := s.node
    let q := t.reg f.ra
    let y := n.queue q
    let b := n.pushBytes q p
    Ready1 s th 0x14 2 f [f.ra] t x → f.et = 0 → q < 8192 → n.mayUse x q false = true → t.capture q = some y.epoch → y.pushes = [p] → p.thr = thrNo th →
    let m := (n.setQueue q { y.dropPushes (thrNo th) with last := 0 }).commitPush q (p.slots, b)
    (m.queue q).tail = (y.tail + p.slots) % 65536
    ∧ exec (.qCommit th f) s = gives s th (m.setQueue q { m.queue q with reserved := (m.queue q).tail }) (t.dropCapture q) f.rd 0)

/-- 07 R233-R237, 13 R419: synchronisation objects and node time as threads use them. -/
def Obligations.SynchronisationInstructionResults : Prop :=
  (∀ (s : State) (th : Thr) (f : F1) (t : Thread) (x : Ctx) (y : Sync),
    let i := t.reg f.ra
    let c := t.reg f.rb
    Ready1 s th 0x15 0 f [f.ra, f.rb, f.rc] t x → f.et = 0 → i < 4096 → s.node.sync i = some y → y.usable x.owner = true → y.waiters = [] →
    (y.type = 0 → 1 ≤ c → c < 2 ^ 32 → c ≤ y.value → exec (.semWait th f) s = gives s th (s.node.setSync i { y with value := y.value - c }) t f.rd 0)
    ∧ (y.type = 3 → c ≤ y.value → exec (.semWait th f) s = gives s th (s.node.setSync i y) t f.rd 0))
  ∧ (∀ (s : State) (th : Thr) (f : F1) (t : Thread) (x : Ctx) (y : Sync),
    let i := t.reg f.ra
    let v := y.value + t.reg f.rb
    Ready1 s th 0x15 1 f [f.ra, f.rb] t x → f.et = 0 → i < 4096 → s.node.sync i = some y → y.usable x.owner = true → y.waiters = [] →
    (y.type = 0 ∧ 1 ≤ t.reg f.rb ∧ v < 2 ^ 32 ∨ y.type = 3) → exec (.semPost th f) s = gives s th (s.node.setSync i { y with value := v % 2 ^ 64 }) t f.rd 0)
  ∧ (∀ (s : State) (th : Thr) (f : F1) (t : Thread) (x : Ctx) (y : Sync),
    let i := t.reg f.ra
    Ready1 s th 0x15 2 f [f.ra, f.rc] t x → f.et = 0 → i < 4096 → s.node.sync i = some y → y.usable x.owner = true → y.type = 2 →
    let m := s.node.hold (thrNo th) t f.rd.toNat (.bar i (s.node.limitOf (t.reg f.rc)))
    (y.parts ≤ y.value + 1 →
      exec (.barArrive th f) s = s.settled ((m.setSync i { y with value := 0, waiters := [] }).wakeWaiters (y.waiters ++ [thrNo th])))
    ∧ (y.value + 1 < y.parts →
      exec (.barArrive th f) s = s.settled ((m.setSync i { y with value := y.value + 1, waiters := y.waiters ++ [thrNo th] }).checkLimit (thrNo th))))
  ∧ (∀ (s : State) (th : Thr) (f : F1) (t : Thread) (x : Ctx) (y : Sync),
    let i := t.reg f.ra
    Ready1 s th 0x15 3 f [f.ra, f.rb] t x → f.et = 0 → i < 4096 → s.node.sync i = some y → y.usable x.owner = true → y.type = 1 →
    ((t.getS f.rb.toNat).getLsbD 0 = false → exec (.evtSet th f) s = gives s th (s.node.setSync i { y with value := 0 }) t f.rd 0)
    ∧ ((t.getS f.rb.toNat).getLsbD 0 = true →
        exec (.evtSet th f) s = gives s th ((s.node.setSync i { y with value := 1, waiters := [] }).wakeWaiters y.waiters) t f.rd 0))
  ∧ (∀ (s : State) (th : Thr) (f : F1) (t : Thread) (x : Ctx) (y : Sync),
    Ready1 s th 0x15 4 f [f.ra, f.rc] t x → f.et = 0 → t.reg f.ra < 4096 → s.node.sync (t.reg f.ra) = some y → y.usable x.owner = true →
    y.type = 1 → y.value = 1 → exec (.evtWait th f) s = gives s th s.node t f.rd 0)
  ∧ (∀ (s : State) (th : Thr) (f : F1) (t : Thread) (x : Ctx), Ready1 s th 0x11 0 f [] t x → f.et = 0 →
    exec (.tsRead th f) s = gives s th s.node t f.rd (BitVec.ofNat 64 s.node.now))
  ∧ (∀ (s : State) (th : Thr) (f : F1) (t : Thread) (x : Ctx),
    let m := s.node.arm (t.reg f.ra) (bitAt (t.reg f.rb) 0)
    Ready1 s th 0x11 1 f [f.ra, f.rb] t x → f.et = 0 → x.owner = sysOwner → t.reg f.rb < 2 → s.node.armCode (t.reg f.ra) = 0 →
    exec (.snapArm th f) s = gives s th m t f.rd 0)
  ∧ (∀ (s : State) (th : Thr) (t : Thread) (i l : Nat) (y : Sync), s.node.dataUp = true → s.node.thread (thrNo th) = some t →
    t.wait = some (.evt i (some l)) → l ≤ s.node.clk → s.node.sync i = some y → y.type = 1 →
    exec (.waitTimeout th) s = s.settled ((s.node.setThread (thrNo th) (t.retire t.waitRd (failWord 0x0404) 0x0404)).setSync i
      { y with waiters := y.waiters.filter (· != thrNo th) }))

/-! ## Thilen: filters, lookup tables, scans, lists (07 R204-R218, R239) -/

/-- NaN keys counted for a tenant (03 R87). -/
def Sys2Proof.Claims.addNan (n : Node) (x : Ctx) (k : Nat) : Node :=
  if x.owner < 1024 then { n with index := { n.index with nan := KList.put n.index.nan x.owner (KList.getD n.index.nan x.owner 0 + k) } } else n

/-- What a scan leaves: its list, its counts, and the NaN keys of a tenant (03 R87, 07 R209). -/
def Sys2Proof.Claims.counted (n : Node) (x : Ctx) (l : Nat) (y : HubList) (g : Gather) : Node :=
  addNan (n.offered l { y with list := g.list, scanned := y.scanned + g.scanned, filtered := y.filtered + g.filtered,
                               tombstoned := y.tombstoned + g.tombs }) x g.nan

/-- What a scan checks before it reads (07 R209): the scan block, the filter state, the list, the query vector and the table. -/
def Sys2Proof.Claims.ScanReady (s : State) (th : Thr) (fn fl form : Nat) (f : F4) (t : Thread) (x : Ctx) (out : Bool) : Prop :=
  let raw := t.localRead f.imm.toNat 64
  let k := readScanBlk raw
  Ready4 s th 0x59 fn f fl [f.ra, f.rb, f.rc] t x ∧ fld f.fl.toNat 6 2 = form ∧ bitAt f.fl.toNat 8 = out ∧ t.localCode f.imm.toNat 64 64 = 0
  ∧ s.node.scanCode t f raw form out = 0 ∧ t.localCode k.qoff (exactSize k.vf k.dim) 64 = 0
  ∧ (fn = 0 → t.localCode k.loff (16 * k.m) 64 = 0) ∧ (fn = 1 → t.localCode k.loff (256 * min k.m 128) 64 = 0)

/-- A scan of a segment: the slots of its blocks with an index below the slot count, in rising order, each counted once, where
each stretch that the scan names can be read and follows no outstanding access of its thread (06 R182). -/
def Sys2Proof.Claims.ScansSegment (c : Thr → F4 → Instr) (fn fl flags : Nat) (vf : ScanBlk → Nat) : Prop :=
  ∀ (s : State) (th : Thr) (f : F4) (t : Thread) (x : Ctx) (p : Pin) (h : SegHead) (l : Nat) (y : HubList) (g : Gather) (el hd : Bytes)
    (m m' n : Node),
    let a := t.reg f.ra
    let k := readScanBlk (t.localRead f.imm.toNat 64)
    let v := vf k
    let seg := getLe el 0 8
    let c' := Node.scanArgs t x k p.gen
    let lut := t.lut k (if v = 8 then 256 else 16)
    let dist : Bytes → Nat → Nat := fun b j => if v = 7 ∨ v = 8 then pqDist lut (blockCodes v k.m b j)
      else exactDist k.vf k.met k.dim c'.q (slice b (exactSize k.vf k.dim * j) (exactSize k.vf k.dim))
    let bs := strided (t.reg f.rb) (t.reg f.rc) (f.fl.toNat % 64 + 1) (slotCount h.count / 32)
    ScanReady s th fn fl 0 f t x false → scanPin x k = some p → bitAt a 63 = false → t.addrCode true false a 16 = 0 →
    s.node.mustWait (thrNo th) (a, 16) = false → s.node.tierRead x.reader a 16 = (.ok el, m) →
    m.mustWait (thrNo th) (seg, 64) = false → m.tierRead x.reader seg 64 = (.ok hd, m') → m'.seg x.owner seg = some h →
    h.dim = k.dim → h.pqM = k.m → fld h.fmt 4 2 = k.met → fld h.fmt 0 4 = v → h.birth ≤ p.gen →
    (h.offAblk ≠ 0 ∨ k.foff = 0xFFFFFFFF ∨ ∀ e ∈ (t.filter k.foff).preds, e.1.src = false) → m'.listOf t f.h.toNat = some (l, y) →
    (∀ r ∈ bs.flatMap (c'.segParts seg (getLe el 8 8) h v), m'.mustWait (thrNo th) r = false) →
    gatherAll (Node.segBlock c' seg (getLe el 8 8) h v flags dist) bs m' (startGather (some (l, y))) = ((0, g), n) →
    exec (c th f) s = gives s th (counted n x l y g) t 0 0

/-- The centroids of one block, and their keys. -/
def Sys2Proof.Claims.centroidKeys (k : ScanBlk) (q v : Bytes) (b : Nat) : List (Nat × Nat) :=
  let ex := exactSize k.vf k.dim
  (((List.range 32).map fun j => 32 * b + j).filter fun c => decide (c < k.ccount)).map fun c =>
    (c, keyOf (exactDist k.vf k.met k.dim q (slice v (ex * (c - 32 * b)) ex)))

/-- 07 R209-R213: the scans. -/
def Obligations.ScanInstructionResults : Prop :=
  ScansSegment .scanPq4 0 0xFF 0 (fun _ => 7) ∧ ScansSegment .scanPq8 1 0xFF 0 (fun _ => 8) ∧ ScansSegment .scanEx 2 0x1FF 2 (fun k => k.vf)
  ∧ (∀ (s : State) (th : Thr) (f : F4) (t : Thread) (x : Ctx) (p : Pin) (l : Nat) (y : HubList) (g : Gather) (m : Node),
    let a := t.reg f.ra
    let k := readScanBlk (t.localRead f.imm.toNat 64)
    let sp := readSpan (t.localRead a 64)
    let c := Node.scanArgs t x k p.gen
    let gs := strided (t.reg f.rb) (t.reg f.rc) (f.fl.toNat % 64 + 1) (ceilDiv (sp.last - sp.first) 32)
    ScanReady s th 2 0x1FF 1 f t x false → scanPin x k = some p → t.localCode a 64 64 = 0 → zeros (t.localRead a 64) 40 24 = true →
    (sp.blk ≠ 0 ∨ ∀ e ∈ c.filter.preds, e.1.src = false) → s.node.listOf t f.h.toNat = some (l, y) →
    (∀ o ∈ gs.flatMap sp.ords, ∀ r ∈ (sp.rcd + 32 * o, 32) :: c.sideParts sp o, s.node.mustWait (thrNo th) r = false) →
    gatherAll (Node.sideGroup c t x sp) gs s.node (startGather (some (l, y))) = ((0, g), m) →
    exec (.scanEx th f) s = gives s th (counted m x l y g) t 0 0)
  ∧ (∀ (s : State) (th : Thr) (f : F4) (t : Thread) (x : Ctx) (out : Bool) (ns ms : Nat → Node) (vs : Nat → Bytes),
    let a := t.reg f.ra
    let k := readScanBlk (t.localRead f.imm.toNat 64)
    let q := t.localRead k.qoff (exactSize k.vf k.dim)
    let bs := strided (t.reg f.rb) (t.reg f.rc) (f.fl.toNat % 64 + 1) (ceilDiv k.ccount 32)
    let keys := fun (i b : Nat) => centroidKeys k q (vs i) b
    let all := bs.zipIdx.flatMap fun e => keys e.2 e.1
    let nan := (all.filter fun p => p.2 == nanKey).length
    ScanReady s th 2 0x1FF 2 f t x out → t.addrCode true false a 64 = 0 → (out = true → t.addrCode true false k.kout 4 = 0) →
    (∀ b ∈ bs, s.node.mustWait (thrNo th) (a + 32 * b * exactSize k.vf k.dim, 32 * exactSize k.vf k.dim) = false
      ∧ (out = true → s.node.mustWait (thrNo th) (k.kout + 128 * b, 128) = false)) → ns 0 = s.node →
    (∀ i b, bs[i]? = some b →
      (ns i).uniRead t x (a + 32 * b * exactSize k.vf k.dim) ((keys i b).length * exactSize k.vf k.dim) = (.ok (vs i), ms i)
      ∧ (if out then (ms i).uniWrite (thrNo th) t x (k.kout + 128 * b) ((keys i b).flatMap fun p => natLe 4 p.2) = .ok (ns (i + 1)) else ns (i + 1) = ms i)) →
    (out = false → ∀ l y, s.node.listOf t f.h.toNat = some (l, y) → exec (.scanEx th f) s = gives s th (counted (ns bs.length) x l y
      { list := all.foldl (fun l p => l.candidate ⟨p.2, 2, 0, p.1⟩) y.list, scanned := 0, filtered := 0, tombs := 0, nan := nan }) t 0 0)
    ∧ (out = true → exec (.scanEx th f) s = gives s th (addNan (ns bs.length) x nan) t 0 0))

/-- 07 R206-R208, R214-R218, R239: filter state, lookup tables, top-k lists, ARGMAX, FREE. -/
def Obligations.SearchInstructionResults : Prop :=
  (∀ (s : State) (th : Thr) (f : F4) (t : Thread) (x : Ctx) (preds blk : Bytes) (m m' : Node),
    let a := t.reg f.ra
    let loc := bitAt f.fl.toNat 0
    let np := t.reg f.rc % 32
    let nt := fld (t.reg f.rc) 8 4
    let terms := t.localRead (t.reg f.rb) 32
    let img := filterImage np nt blk terms
    Ready4 s th 0x5A 0 f 1 [f.ra, f.rb, f.rc] t x → t.operandCode loc a (32 * np) (if loc then 1 else 64) = 0 → t.localCode (t.reg f.rb) 32 4 = 0 →
    np ≤ 16 → (loc = false → s.node.mustWait (thrNo th) (a, 32 * np) = false ∧ s.node.mustWait (thrNo th) (a, filterBytes np preds) = false) →
    s.node.operand t x loc a (32 * np) = (.ok preds, m) → (∀ i, i < np → predOk (s.node.blocksFor x) (slice preds (32 * i) 32) = true) →
    termsOk np nt terms = true → m.operand t x loc a (filterBytes np preds) = (.ok blk, m') →
    (loc = true → t.localCode a (filterBytes np preds) 1 = 0) → t.localCode f.imm.toNat img.length 1 = 0 →
    exec (.filtLd th f) s = gives s th m' { t.localWrite f.imm.toNat img with filterAt := some f.imm.toNat } 0 0)
  ∧ (∀ (s : State) (th : Thr) (f : F4) (t : Thread) (x : Ctx) (cb : Bytes) (m : Node),
    let a := t.reg f.ra
    let sb := f.imm.toNat
    let nc := if bitAt f.fl.toNat 0 then 256 else 16
    let k := readScanBlk (t.localRead sb 64)
    let rows := if nc = 256 then min k.m 128 else k.m
    let q := t.localRead k.qoff (exactSize k.vf k.dim)
    let lut := lutBuild k.met k.m (k.dim / k.m) nc ((elems32 k.vf q).take k.dim) ((List.range (nc * k.dim)).map fun i => getLe cb (4 * i) 4)
    let bytes : List (List Nat) → Bytes := fun l => l.flatMap fun r => r.map fun e => BitVec.ofNat 8 e
    let sc := if lut.valid then lut.scale else lutNan (leNat q) 0
    let bi := if lut.valid then lut.bias else lutNan (leNat q) 1
    let t' := (t.localWrite k.loff (bytes (lut.e.take rows))).localWrite (sb + 12) (natLe 4 sc ++ natLe 4 bi)
    Ready4 s th 0x58 0 f 1 [f.ra] t x → t.addrCode true false a 4 = 0 → t.localCode sb 64 64 = 0 →
    scanBlkOk (t.localRead sb 64) false false = true → k.m ≠ 0 → t.localCode k.qoff (exactSize k.vf k.dim) 64 = 0 →
    t.localCode k.loff (rows * nc) 64 = 0 → s.node.mustWait (thrNo th) (a, 4 * k.dim * nc) = false →
    s.node.uniRead t x a (4 * k.dim * nc) = (.ok cb, m) →
    exec (.lutBuild th f) s = gives s th m (if rows < k.m then { t' with lutHigh := bytes (lut.e.drop rows) } else t') 0 0)
  ∧ (∀ (s : State) (th : Thr) (f : F4) (t : Thread) (x : Ctx),
    let cap := t.reg f.ra
    let h := f.h.toNat
    Ready4 s th 0x5C 0 f 0 [f.ra] t x → 1 ≤ cap → cap ≤ 4096 → s.node.listOf t h = none →
    (∀ l y, s.node.gangList x h = some (l, y) → y.list.cap = cap →
      exec (.topkInit th f) s = gives s th (s.node.setList l { y with attached := y.attached ++ [thrNo th] }) { t with h := KList.put t.h h l } 0 0)
    ∧ (∀ b, s.node.gangList x h = none → s.node.hubWaits x.hub = [] → placeBlocks (s.node.freeBlocks x.hub) cap = some b →
      exec (.topkInit th f) s = gives s th (s.node.newList (thrNo th) t x h cap b) { t with h := KList.put t.h h s.node.nextId } 0 0))
  ∧ (∀ (s : State) (th : Thr) (f : F4) (t : Thread) (x : Ctx) (l : Nat) (y : HubList),
    let a := t.reg f.ra
    Ready4 s th 0x5C 1 f 0 [f.ra, f.rb] t x → s.node.listOf t f.h.toNat = some (l, y) → fld a 0 32 ≠ padKey → fld a 32 16 < 8 →
    exec (.topkPush th f) s = gives s th (s.node.offered l { y with
      list := y.list.candidate ⟨fld a 0 32, fld a 32 16, fld a 48 16, t.reg f.rb⟩ }) t 0 0)
  ∧ (∀ (s : State) (th : Thr) (f : F4) (t : Thread) (x : Ctx) (l : Nat) (y : HubList) (b : Bytes) (m : Node),
    let a := t.reg f.ra
    let cnt := t.reg f.rb
    let loc := bitAt f.fl.toNat 0
    let lst := ((readEntries cnt b).filter fun e => e.key != padKey).foldl TopList.candidate y.list
    Ready4 s th 0x5C 2 f 1 [f.ra, f.rb, f.rc] t x → cnt ≤ 4096 → t.operandCode loc a (16 * cnt) 16 = 0 →
    s.node.listOf t f.h.toNat = some (l, y) → (loc = false → s.node.mustWait (thrNo th) (a, 16 * cnt) = false) →
    s.node.operand t x loc a (16 * cnt) = (.ok b, m) →
    exec (.topkMerge th f) s = gives s th (m.offered l { y with list := { lst with drop := min lst.drop (t.reg f.rc % 2 ^ 32) } }) t 0 0)
  ∧ (∀ (s : State) (th : Thr) (f : F4) (t : Thread) (x : Ctx) (l : Nat) (y : HubList),
    let toMem := bitAt f.fl.toNat 0
    let loc := bitAt f.fl.toNat 1
    Ready4 s th 0x5C 3 f 3 (if toMem then [f.ra] else []) t x → (toMem = true → t.operandCode loc (t.reg f.ra) 32 64 = 0) →
    s.node.listOf t f.h.toNat = some (l, y) →
    (toMem = true → loc = false → s.node.mustWait (thrNo th) (t.reg f.ra, 32 + 16 * y.list.cap) = false) →
    exec (.topkEmit th f) s = s.settled (((s.node.setList l { y with emitted := y.emitted ++ [thrNo th] }).setThread (thrNo th)
      { t with wait := some (.emit toMem loc (t.reg f.ra)), waitRd := 0 }).finishEmit l))
  ∧ (∀ (s : State) (th : Thr) (f : F1) (t : Thread) (x : Ctx) (fmt w i : Nat) (v : Fp) (b : Bytes) (m : Node),
    let a := t.reg f.ra
    let cnt := t.reg f.rb
    let el := fun i => getLe b (i * w) w
    Ready1 s th 0x10 0 f [f.ra, f.rb] t x → f.rc ≠ f.rd → f.rc ≠ 0 → s.node.pendingReg (thrNo th) (.s f.rc.toNat) = false →
    argFmt f.et.toNat = some (fmt, w) → t.addrCode true false a w = 0 → 1 ≤ cnt → cnt ≤ 2 ^ 24 →
    ((∃ u, u < 4 ∧ (s.node.freeBlocks x.hub).getD u 0 = 16) ∧ s.node.hubWaits x.hub = [] ∨ (KList.find? s.node.sel.argmax (thrNo th)).isSome) →
    s.node.mustWait (thrNo th) (a, cnt * w) = false → s.node.uniRead t x a (cnt * w) = (.ok b, m) → argBest ((List.range cnt).map fun i => (i, argValue fmt (el i))) = some (i, v) →
    exec (.argmax th f) s = gives s th { m with sel := { m.sel with argmax := KList.del m.sel.argmax (thrNo th) } }
      (t.setS f.rc.toNat (argWide fmt (el i) v)) f.rd (BitVec.ofNat 64 i))
  ∧ (∀ (s : State) (th : Thr) (f : F4) (t : Thread) (x : Ctx), Ready4 s th 0x6F 0 f 3 [] t x →
    (f.fl.toNat % 4 = 0 → ∀ l y, s.node.listOf t f.h.toNat = some (l, y) → exec (.free th f) s = s.settled
      ((s.node.setThread (thrNo th) ({ t with h := KList.put t.h f.h.toNat freedList }.retire 0 0 0)).detach (thrNo th) l y))
    ∧ (f.fl.toNat % 4 = 1 → x.slotRefs.contains (f.imm.toNat % 64) = true → exec (.free th f) s = gives s th
      ((s.node.setCtx t.ctx { x with slotRefs := x.slotRefs.filter (· != f.imm.toNat % 64) }).dropRef (f.imm.toNat % 64)) t 0 0))
  ∧ (∀ (s : State) (hub : Fin 32) (w : BlockWait) (rest : List BlockWait) (t : Thread) (x : Ctx), s.node.hubWaits hub.val = w :: rest →
    s.node.thread w.thr = some t → s.node.ctx t.ctx = some x →
    (t.wait = some .argmax → ∀ u, (List.range 4).find? (fun u => (s.node.freeBlocks hub.val).getD u 0 == 16) = some u →
      exec (.topkBlockGrant hub) s = s.next (({ s.node with sel := { s.node.sel with
        argmax := KList.put s.node.sel.argmax w.thr (hub.val, u) } }.setHubWaits hub.val rest).setThread w.thr { t with wait := none }))
    ∧ (t.wait ≠ some .argmax → ∀ l m, s.node.initList w.thr t x w.handle w.cap = some (0, l, m) →
      exec (.topkBlockGrant hub) s = s.next ((m.setHubWaits hub.val rest).setThread w.thr ({ t with h := KList.put t.h w.handle l }.retire 0 0 0))))

/-! ## Generations, side lists, seals, compaction, merge sessions (02, 04, 07 R219-R223) -/

/-- An append's effect: the entry in the streams, its journal record, the next ordinal, and the standbys' copies (02 R45, R48;
10 R322; 12 R391). -/
def Sys2Proof.Claims.appended (n : Node) (sh : Shard) (part : Nat) (raw : Bytes) : Node :=
  let r := n.sideOf sh part
  let b := storedBlock sh.params n.now raw
  let m := (r.2.placeEntry sh r.1 r.1.next b).stage (sideRec sh.id part r.1.next b)
  let m := m.setShard { sh with sides := KList.put sh.sides part { r.1 with next := r.1.next + 1 } }
  (m.standbys sh.id).foldl (fun m p => m.emit (.shard p (.append sh.id part r.1.next b))) m

/-- What an append needs (02 R45-R47, 10 R298, R322). -/
def Sys2Proof.Claims.Appends (n : Node) (sh : Shard) (part : Nat) (raw : Bytes) : Prop :=
  appendCode sh part raw = 0 ∧ n.flash.popOk = true ∧ n.flash.readOnly = false ∧ n.appendRoom sh = true
  ∧ sh.nextOrd part - n.sideFirst sh.id part < 65536

/-- A seal may be requested: one of the shard waits already, or fewer than 1,024 wait, and the tenant's share is not used up
(02 R57, R59; 14 R468). -/
def Sys2Proof.Claims.MayAsk (n : Node) (sh : ShardId) : Prop :=
  (n.openSeal sh).isSome = true
  ∨ (n.sealPend < 1024 ∧ n.fsFull (shOwner sh) 38 10 (n.index.seals.filter fun q => !q.closed && q.shard.tid == sh.tid).length = false)

/-- A seal is requested: the shard's waiting request has one waiter more, or a new request waits (02 R57). -/
def Sys2Proof.Claims.asked (n : Node) (sh : ShardId) (w : SealWaiter) : Node :=
  match n.openSeal sh with
  | some q => n.updSeal q fun q => { q with waiters := q.waiters ++ [w] }
  | none => { n with index := { n.index with seals := n.index.seals ++
      [{ shard := sh, waiters := [w], closed := false, gen := 0, part := none, since := n.clk, persisted := false, standbyOk := false }] } }

/-- 07 R219-R223: generations and side lists as threads use them. -/
def Obligations.GenerationInstructionResults : Prop :=
  (∀ (s : State) (th : Thr) (f : F1) (t : Thread) (x : Ctx) (sh : Shard) (g : GenRec) (h : Nat),
    Ready1 s th 0x12 0 f [f.ra, f.rb] t x → f.et = 0 → s.node.shardKey x (t.reg f.ra) = .ok sh →
    (t.reg f.rb < 2 ^ 48 ∨ t.reg f.rb = 2 ^ 64 - 1) → s.node.pinTarget sh.id (t.reg f.rb) = some g → x.freeHandle = some h → g.pins < 1048575 →
    exec (.genPin th f) s = gives s th ((s.node.addPin g.inst g.gen).setCtx t.ctx { x with pins := KList.put x.pins h ⟨sh.id, g.inst, g.gen⟩ }) t
      f.rd (BitVec.ofNat 64 (h * 2 ^ 48 + g.gen)))
  ∧ (∀ (s : State) (th : Thr) (f : F1) (t : Thread) (x : Ctx) (p : Pin),
    let h := t.reg f.ra % 16
    Ready1 s th 0x12 1 f [f.ra] t x → f.et = 0 → KList.find? x.pins h = some p →
    exec (.genUnpin th f) s = gives s th ((s.node.unpin p).setCtx t.ctx { x with pins := KList.del x.pins h }) t 0 0)
  ∧ (∀ (s : State) (th : Thr) (f : F1) (t : Thread) (x : Ctx) (sh : Shard),
    Ready1 s th 0x12 2 f [f.ra] t x → f.et = 0 → s.node.shardKey x (t.reg f.ra) = .ok sh → MayAsk s.node sh.id →
    exec (.genSeal th f) s = s.settled ((asked s.node sh.id (.thread (thrNo th))).setThread (thrNo th)
      { t with wait := some (.seal sh.id), waitRd := f.rd.toNat }))
  ∧ (∀ (s : State) (th : Thr) (f : F1) (t : Thread) (x : Ctx) (sh : Shard),
    let a := t.reg f.rc
    let raw := t.localRead a (appendBytes sh.params (t.localRead a 32))
    let i := sh.nextOrd (t.reg f.rb)
    let m := appended s.node sh (t.reg f.rb) raw
    Ready1 s th 0x13 0 f [f.ra, f.rb, f.rc] t x → f.et = 0 → t.localCode a 32 64 = 0 → s.node.shardKey x (t.reg f.ra) = .ok sh →
    t.localCode a (appendBytes sh.params (t.localRead a 32)) 64 = 0 → Appends s.node sh (t.reg f.rb) raw →
    (s.node.paired sh.id = false → exec (.sideAppend th f) s = gives s th m t f.rd (BitVec.ofNat 64 i))
    ∧ (s.node.paired sh.id = true → exec (.sideAppend th f) s = s.settled ((m.hold (thrNo th) t f.rd.toNat (.append sh.id)).holdAppend
        { shard := sh.id, ords := [(t.reg f.rb, i + 1)], who := .thread (thrNo th), code := 0, count := 0, result := i })))

/-- 02 R34, R35, R57, 04 R117, 12 R391, 13 R411: items on shards. -/
def Obligations.ShardItemResults : Prop :=
  (∀ (s : State) (q : Fin 8192) (a : Admitted),
    let sh := shardOfKey (s.node.qcfg q).tid (a.item.arg 0)
    s.node.mHead q 0x12 = some a → (s.node.shard sh).isSome = true → MayAsk s.node sh →
    exec (.seal q) s = s.settled (asked (s.node.popM q) sh (.item a)))
  ∧ (∀ (s : State) (q : Fin 8192) (a : Admitted) (plan : Option Plan),
    let n := s.node
    let sh := shardOfKey (n.qcfg q).tid (a.item.arg 0)
    let o := shOwner sh
    let p := createParams (a.item.arg 1) a.item.count
    let ct := p.c * (p.exact + 8)
    let cb := if p.isPq then 4 * p.nc * p.d else 0
    let tab := n.read o (a.item.arg 2) ct
    let x : Shard := { id := sh, inst := n.index.nextInst, params := p, centroids := tab, codebook := n.read o (a.item.arg 3) cb, plan := plan,
                       openGen := 0, sides := [], segSerial := 0 }
    n.mHead q 0x13 = some a → n.shard sh = none → n.recFree sh 0 = true → n.rangeCode o (a.item.arg 2) ct = 0 →
    (cb ≠ 0 → n.rangeCode o (a.item.arg 3) cb = 0) → (∀ i, i < p.c → tagCode sh p.p (getLe tab (p.c * p.exact + 8 * i) 8) = 0) →
    (if a.item.arg 4 = 0 then plan = none else ∃ pl, plan = some pl ∧ n.readPlan o (a.item.arg 4) = .ok pl) →
    exec (.indexCreate q) s = s.settled
      (({ n with index := { n.index with shards := n.index.shards ++ [x], nextInst := n.index.nextInst + 1 } } : Node).doneM q a (done 0)))
  ∧ (∀ (s : State) (q : Fin 8192) (a : Admitted),
    let sh := shardOfKey (s.node.qcfg q).tid (a.item.arg 0)
    s.node.mHead q 0x14 = some a → (s.node.shard sh).isSome = true →
    exec (.indexDrop q) s = s.settled ((s.node.dropShard sh).doneM q a (done 0)))
  ∧ (∀ (s : State) (q : Fin 8192) (a : Admitted) (x : Shard) (p : Plan),
    let sh := shardOfKey (fld (a.item.arg 0) 28 10) (a.item.arg 0)
    s.node.mHead q 0x15 = some a → s.node.shard sh = some x → s.node.readPlan (shOwner sh) (a.item.arg 1) = .ok p →
    exec (.mergePlan q) s = s.settled ((s.node.setShard { x with plan := some p }).doneM q a (done 0)))
  ∧ (∀ (s : State) (c : Nat) (x : Ctx) (a : Admitted) (ns : Nat → Node),
    let n := s.node
    let cnt := if bitAt a.item.iflags 0 then 1 else a.item.count
    let sh := shardOfKey (n.qcfg a.item.q).tid (a.item.arg 0)
    let u : Unheld := { shard := sh, ords := grown (n.shard sh) ((ns cnt).shard sh), who := .item a, code := 0, count := cnt, result := 0 }
    n.ctx c = some x → x.adm = some a → x.op = 0x11 → x.gangSize ≠ 0 → n.dataUp = true → ns 0 = n →
    (∀ i, i < cnt → ∃ y part raw, (ns i).shard sh = some y ∧ (ns i).appendElem y a.item i = .ok (part, raw) ∧ Appends (ns i) y part raw
      ∧ ns (i + 1) = appended (ns i) y part raw) →
    (n.paired sh = false → exec (.append c) s = s.settled (((ns cnt).dropCtx c).finish a (done 0 cnt)))
    ∧ (n.paired sh = true → u.ords ≠ [] → exec (.append c) s = s.settled (((ns cnt).dropCtx c).holdAppend u)))

/-- 02 R55-R65, 10 R311, 12 R391: closing, committing, compaction. -/
def Obligations.SealAndCompactionResults : Prop :=
  (∀ (s : State) (sh : ShardId) (q : SealReq) (x : Shard), s.node.openSeal sh = some q → s.node.shard sh = some x → s.node.closedSeal sh = none →
    s.node.linksUp = true → s.node.mgt.pfPhase = .idle → (s.node.openParts x ≠ [] ∨ s.node.compactionsOf q ≠ []) → s.node.recFree sh x.openGen = true →
    exec (.sealClose sh) s = s.next (s.node.closeGen x q))
  ∧ (∀ (s : State) (sh : ShardId) (q : SealReq) (x : Shard), s.node.openSeal sh = some q → s.node.shard sh = some x → s.node.closedSeal sh = none →
    s.node.linksUp = true → s.node.mgt.pfPhase = .idle → s.node.openParts x = [] → s.node.compactionsOf q = [] →
    exec (.sealClose sh) s = s.settled (s.node.endSeal q 4 (((s.node.newest sh).map (·.gen)).getD (2 ^ 48 - 1))))
  ∧ (∀ (s : State) (sh : ShardId) (q : SealReq) (x : Shard) (g : GenRec), s.node.closedSeal sh = some q → s.node.shard sh = some x →
    s.node.genOf x.inst q.gen = some g → s.node.linksUp = true → s.node.mgt.pfPhase = .idle → s.node.flashWriteCode (shOwner x.id) = 0 →
    s.node.follows sh = none → (s.node.paired sh = false ∨ q.standbyOk = true) →
    (q.persisted = false → exec (.sealCommit sh true) s = s.settled ((s.node.persistGen x g).commitGen x q g))
    ∧ (q.persisted = true → exec (.sealCommit sh true) s = s.settled (s.node.commitGen x q g)))
  ∧ (∀ (s : State) (sh : ShardId) (part : Nat) (x : Shard) (g : GenRec), s.node.shard sh = some x → s.node.newest sh = some g →
    s.node.compactDue x part = true → s.node.adm.gateOpen = true → s.node.dataUp = true → g.pins < 1048575 → s.node.follows sh = none →
    (∀ c ∈ s.node.index.compactions, ¬ (c.shard = sh ∧ c.part = part)) →
    exec (.compactionStart sh part) s = s.next (s.node.startCompaction x part g))
  ∧ (∀ (s : State) (sh : ShardId) (part : Nat) (x : Shard) (c : Compaction), s.node.shard sh = some x → c ∈ s.node.index.compactions → c.shard = sh →
    c.part = part → (∀ q ∈ s.node.index.seals, q.shard ≠ sh) → s.node.recFree sh x.openGen = true → s.node.dataUp = true →
    let q : SealReq := { shard := sh, waiters := [], closed := false, gen := 0, part := some part, since := s.node.clk, persisted := false, standbyOk := false }
    exec (.compactionSeal sh part) s = s.next (({ s.node with index := { s.node.index with seals := s.node.index.seals ++ [q] } }).closeGen x q))
  ∧ (∀ (s : State) (k : Nat) (b : FBlock), List.find? (fun (b : Nat × FBlock) => b.2.pool == 3 && b.2.filled != 0) s.node.flash.blocks = some (k, b) →
    s.node.mapRoom = true → s.node.flash.readOnly = false → s.node.dataUp = true →
    exec .sealAreaFold s = s.next (s.node.recycle (k / 2 ^ 24) (k % 2 ^ 24)))

/-- 04 R113, R119-R124: the node merger and merge sessions. -/
def Obligations.MergeSessionResults : Prop :=
  (∀ (s : State) (c : Nat) (x : Ctx) (q : Query),
    let p := s.node.partialOf x.reader q
    s.node.ctx c = some x → x.query = some q → x.gangSize ≠ 0 → x.threads = [] → q.partialList = none → s.node.dataUp = true →
    (bitAt (getLe q.desc 1 1) 3 = true → s.node.ownTurn x.hub = true) →
    exec (.nodeMerge c) s = s.settled ((addNan p.2 x p.1.2.2).ownReady c p.1.1 (some p.1.2.1)))
  ∧ (∀ (s : State) (c : Nat) (l : List Nat) (x : Ctx) (q : Query), s.node.sel.msWait = c :: l → s.node.ctx c = some x → x.query = some q →
    s.node.sel.sessions.length < 4096 → s.node.sessFull x.owner = false → s.node.dataUp = true →
    exec .mergeSessionReserve s = s.settled ((s.node.reserveSession c q ((sessionWaits q).getD [])).admitQuery c x q))
  ∧ (∀ (s : State) (m : MergeMsg) (k : Nat) (x : MergeSession), s.node.dataUp = true →
    (s.node.sessionsOf m.qtag).find? (fun p => p.2.takes m.pos) = some (k, x) →
    exec (.mergeStream m) s = s.next { s.node with sel := { s.node.sel with
      sessions := KList.put s.node.sel.sessions k { x with inputs := x.inputs ++ [⟨m.pos, m⟩] } } })
  ∧ (∀ (s : State) (m : MergeMsg), s.node.dataUp = true → (s.node.sessionsOf m.qtag).find? (fun p => p.2.takes m.pos) = none →
    s.node.lateFor m.qtag m.pos = none →
    (s.node.mayReserve m.qtag = true → exec (.mergeStream m) s = s.next { s.node with sel := { s.node.sel with
      held := s.node.sel.held ++ [{ msg := m, since := s.node.clk, relTmo := fld (s.node.reg .mrgCfg) 0 16 }] } })
    ∧ (s.node.mayReserve m.qtag = false → exec (.mergeStream m) s = s.next { s.node with sel := { s.node.sel with miss := s.node.sel.miss + 1 } }))
  ∧ (∀ (s : State) (tag k : Nat) (m : MergeSession), (s.node.sessionsOf tag).find? (fun p => p.2.complete (s.node.ownIsReady p.2)) = some (k, m) →
    s.node.dataUp = true → exec (.mergeSessionClose tag) s = s.settled (s.node.closeSession k))
  ∧ (∀ (s : State) (tag k : Nat) (m : MergeSession),
    (s.node.sessionsOf tag).find? (fun p => s.node.sessionDue p.2 && !p.2.absent.isEmpty) = some (k, m) →
    s.node.dataUp = true → exec (.mergeSessionTimeout tag) s = s.settled (s.node.giveUp k m))
  ∧ (∀ (s : State) (tag : Nat) (h : HeldStream), s.node.sel.held.find? (fun h => h.msg.qtag == tag && s.node.passed h.since (1000 * h.relTmo)) = some h →
    exec (.heldStreamTimeout tag) s = s.next { s.node with sel := { s.node.sel with held := s.node.sel.held.erase h, miss := s.node.sel.miss + 1 } })
  ∧ (∀ (s : State) (tag : Nat), exec (.pinReleaseMessage tag) s =
    s.settled (((s.node.qtagCtxs tag).filter fun p => (p.2.query.map (·.forwarded)) == some true).foldl (fun n p => n.dropCtx p.1) s.node))
  ∧ (∀ (s : State) (c : Nat) (q : Query) (t : Nat), (s.node.ctx c).bind (·.query) = some q → q.sentAt = some t → q.forwarded = true →
    s.node.passed t (1000 * q.relTmo) = true → exec (.shardPinTimeout c) s = s.settled (s.node.dropCtx c))

/-! ## Tables and the store function (07 R224-R226; 08; 13 Table 13.2) -/

/-- A client's bandwidth lets a request go on at once: no request of it waits, and its bucket, filled up to now, holds the size
where it has a limit (08 R263). -/
def Sys2Proof.Claims.MayDraw (n : Node) (c size : Nat) : Prop :=
  (n.client c).waiting = [] ∧ (fld (n.reg .cliBw c) 0 16 ≠ 0 → size ≤ n.tokensOf c)

/-- The client's bucket, filled up to now, less the size where it has a limit (08 R263). -/
def Sys2Proof.Claims.drew (n : Node) (c size : Nat) : Node :=
  let m := n.fillClient c
  if fld (n.reg .cliBw c) 0 16 = 0 then m else m.setClient c { (m.client c) with tokens := n.tokensOf c - size }

/-- A TAB instruction whose descriptor and operands can be read begins: its operation's rows go to their owners, and its thread
waits for it, or, asynchronous, goes on. -/
def Sys2Proof.Claims.TabStarts (c : Thr → F4 → Instr) (kind fl : Nat) (legal : F4 → Prop) : Prop :=
  ∀ (s : State) (th : Thr) (f : F4) (t : Thread) (x : Ctx) (o o' : TabOp) (m m' : Node),
    Ready4 s th 0x60 kind f fl [f.ra, f.rb, f.rc] t x → legal f → s.node.dev.func ≠ 3 → s.node.mustWait (thrNo th) (t.reg f.ra, 64) = false →
    s.node.tabHead (thrNo th) t x kind f.fl.toNat f.imm.toNat (t.reg f.ra) (t.reg f.rb) (t.reg f.rc) none = (.ok o, m) →
    (∀ r ∈ o.spans (t.reg f.rb), m.mustWait (thrNo th) r = false) → m.tabFill t x o (t.reg f.rb) = (.ok o', m') →
    (o'.async = false → exec (c th f) s = s.settled ((m'.startOp o').2.hold (thrNo th) t 0 (.tab (m'.startOp o').1)))
    ∧ (o'.async = true → m'.accessRoom (thrNo th) 0 = true → exec (c th f) s = s.settled (m'.startAsync (thrNo th) t o'))

/-- A table item whose operands can be read begins, its client's bandwidth drawn. -/
def Sys2Proof.Claims.TabItemStarts (c : Nat → Instr) (op : Nat) : Prop :=
  ∀ (s : State) (k : Nat) (x : Ctx) (a : Admitted) (o : TabOp) (m : Node),
    s.node.ctx k = some x → x.adm = some a → a.item.op = op → x.threads ≠ [] → s.node.dataUp = true →
    (∀ p ∈ s.node.store.ops, p.2.item ≠ some a) → s.node.inLine a = false →
    (s.node.itemClient a.item = none → s.node.itemTab a = .ok (o, m) → exec (c k) s = s.settled (m.startOp o).2)
    ∧ (∀ i, s.node.itemClient a.item = some i → MayDraw s.node i (s.node.tabSize a) → (drew s.node i (s.node.tabSize a)).itemTab a = .ok (o, m) →
      exec (c k) s = s.settled (m.startOp o).2)

/-- The node with a row out of its engine, the operations that have ended out of all of them (07 R203). -/
def Sys2Proof.Claims.lessRow (n : Node) (e : Fin 128) (r : RowOp) : Node :=
  let n := n.sweepRows
  { n with store := { n.store with engines := KList.put n.store.engines e.val ((KList.getD n.store.engines e.val []).erase r) } }

/-- The record of a row. -/
def Sys2Proof.Claims.rowAddr (r : RowOp) (o : TabOp) : Nat := o.desc.base + o.indices.getD r.idx 0 * o.desc.rstride

/-- What a row engine needs to run a row: the oldest row of its kinds that nothing holds back, an index in the table, and a record
that can be read and, where it is written, written: its bytes, and the node then (08 R245, R247, 07 R226). -/
structure Sys2Proof.Claims.RowReady (s : State) (e : Fin 128) (kinds : List Nat) (r : RowOp) (o : TabOp) (old : Bytes) (m : Node) : Prop where
  up : s.node.dataUp = true
  has : KList.getD s.node.store.engines e.val [] ≠ []
  pick : s.node.sweepRows.pickRow kinds ((KList.getD s.node.sweepRows.store.engines e.val []).take 64) [] = some (r, o)
  inside : o.indices.getD r.idx 0 < o.desc.rows
  read : (lessRow s.node e r).rowRead o (rowAddr r o) = (.ok old, m)

/-- A write of the primary has been applied to a replica, or passed over: the copy holds that much of the primary's sequence,
and is no longer STALE once it holds what was served of it (08 R257, 09 R294, R295). -/
def Sys2Proof.Claims.caughtUp (n m : Node) (o k : Nat) (r : Repl) : Node :=
  let m := m.setReplica { (n.replica o r.first) with applied := k }
  if (n.replica o r.first).served ≤ k then (regionRange r.first r.count).foldl (fun n g => n.setStale o g false) m else m

/-- A replica's next write: the range is one that this node holds a copy of, and the number follows what it has applied. -/
def Sys2Proof.Claims.NextWrite (n : Node) (o a k : Nat) (r : Repl) : Prop :=
  n.replOf o (regionOf a) = some r ∧ n.isReplica o (regionOf a) = true ∧ k = (n.replica o r.first).applied + 1 ∧ n.dataUp = true

/-- 07 R224-R226, 08 R244-R257, 13 Table 13.2: tables. -/
def Obligations.TableResults : Prop :=
  TabStarts .tabGather 0 7 (fun f => fld f.fl.toNat 1 2 ≠ 3) ∧ TabStarts .tabPool 1 25 (fun f => fld f.fl.toNat 3 2 ≠ 3)
  ∧ TabStarts .tabUpdate 2 32 (fun _ => True) ∧ TabStarts .tabReplace 3 32 (fun _ => True)
  ∧ TabItemStarts .tabGatherItem 0x18 ∧ TabItemStarts .tabPoolItem 0x19 ∧ TabItemStarts .tabUpdateItem 0x1A ∧ TabItemStarts .tabReplaceItem 0x1B
  ∧ (∀ (s : State) (e : Fin 128) (r : RowOp) (o : TabOp) (old b : Bytes) (m : Node), RowReady s e [2] r o old m →
    rowUpdate o.desc old ((o.recs.getD r.idx []).drop 8) = some b →
    exec (.rowUpdateApply e) s = s.settled ((m.storeOver o.owner (rowAddr r o) b).endRow r.op r.idx o (some old) 0))
  ∧ (∀ (s : State) (e : Fin 128) (r : RowOp) (o : TabOp) (old b : Bytes) (m : Node), RowReady s e [3] r o old m →
    rowReplace o.desc old (o.recs.getD r.idx []) = some b →
    exec (.rowReplaceApply e) s = s.settled ((m.storeOver o.owner (rowAddr r o) b).endRow r.op r.idx o (some old) 0))
  ∧ (∀ (s : State) (e : Fin 128) (r : RowOp) (o : TabOp) (old : Bytes) (m : Node), RowReady s e [0, 1] r o old m →
    exec (.rowGatherRead e) s = s.settled (m.endRow r.op r.idx o (some old) 0))
  ∧ (∀ (s : State), s.node.store.remap = true → s.node.dataUp = true → (∀ p ∈ s.node.sweepRows.store.engines, p.2 = []) →
    let n : Node := { s.node.sweepRows with store := { s.node.sweepRows.store with held := [], remap := false } }
    exec .rowOwnerRecompute s = s.settled ((s.node.sweepRows.store.held.foldl Node.sendRow n).acceptAsync))
  ∧ (∀ (s : State) (o a k : Nat) (b : Bytes) (r : Repl), NextWrite s.node o a k r →
    (8 ≤ b.length → rverNewer (getLe b 4 4) (s.node.readLe o (a + 4) 4) = true →
      exec (.replicaRowApply o a ⟨k, b⟩) s = s.next (caughtUp s.node (s.node.write o a b) o k r))
    ∧ ((b.length < 8 ∨ rverNewer (getLe b 4 4) (s.node.readLe o (a + 4) 4) = false) →
      exec (.replicaRowApply o a ⟨k, b⟩) s = s.next (caughtUp s.node s.node o k r)))

/-- What an item on one word needs: it is at the head of its queue's line, its word has room, and its client's bandwidth lets it
go on (08 R259, R263). -/
structure Sys2Proof.Claims.WordItem (s : State) (q : Fin 8192) (op : Nat) (a : Admitted) (c : Nat) : Prop where
  head : s.node.mHead q op = some a
  queue : a.item.q = q
  room : s.node.roomOver (s.node.qcfg q).owner (a.item.arg 0 % 2 ^ 48) 8 = true
  line : s.node.inLine a = false
  client : s.node.itemClient a.item = some c
  draws : MayDraw s.node c 8

/-- 08 R258-R264: leases, locks, atomics, bandwidth. -/
def Obligations.LockAndLeaseResults : Prop :=
  (∀ (s : State) (q : Fin 8192) (a : Admitted) (c : Nat),
    let n := drew s.node c 8
    let o := (n.qcfg q).owner
    let w := a.item.arg 0
    let v := 2 ^ 63 + c % 1024 * 2 ^ 48 + n.now % 2 ^ 48
    let m := (n.storeAt o w (natLe 8 v) (allBytes 8)).served o w n.clk 0
    WordItem s q 0x1C a c → bitAt a.item.iflags 0 = false → w % 8 = 0 → n.wordCode o w 8 = 0 → a.item.arg 1 % 65536 = (n.client c).epoch →
    n.readLe o w 8 = 0 → n.store.locks.length < 65536 →
    let k : Lock := { owner := o, addr := w, client := c, value := v }
    exec (.lockAcquire q) s = s.settled (({ m with store := { m.store with locks := m.store.locks ++ [k] } }).doneM q a (done 0)))
  ∧ (∀ (s : State) (q : Fin 8192) (a : Admitted) (c : Nat) (l : Lock),
    let n := drew s.node c 8
    let o := (n.qcfg q).owner
    let w := a.item.arg 0
    let m := (n.storeAt o w (natLe 8 0) (allBytes 8)).served o w n.clk 0
    WordItem s q 0x1C a c → bitAt a.item.iflags 0 = true → w % 8 = 0 →
    n.store.locks.find? (fun l => l.owner == o && l.addr == w && l.client == c) = some l → n.wordCode o w 8 = 0 →
    exec (.lockRelease q) s = s.settled (({ m with store := { m.store with locks := m.store.locks.erase l } }).doneM q a (done 0 (n.readLe o w 8))))
  ∧ (∀ (s : State) (q : Fin 8192) (a : Admitted) (c : Nat),
    let n := drew s.node c 8
    let o := (n.qcfg q).owner
    let w := a.item.arg 0
    let fn := a.item.iflags % 32
    let r := n.amoAt o w fn (a.item.arg 1) (a.item.arg 2)
    WordItem s q 0x1D a c → w % amoWidth fn = 0 → n.wordCode o w (amoWidth fn) = 0 →
    exec (.storeAmo q) s = s.settled ((r.2.served o w n.clk 0).doneM q a (done 0 (amoResult fn r.1).toNat)))
  ∧ (∀ (s : State) (c : Fin 1024), (s.node.client c).live = true → (s.node.client c).lastReq + 1000000 * (s.node.client c).term ≤ s.node.clk →
    exec (.leaseLapse c) s = s.settled (s.node.lapse c))
  ∧ (∀ (s : State) (c : Fin 1024) (id size : Nat) (rest : List (Nat × Nat)),
    let n := (s.node.fillClient c.val).dropEnded c.val
    let lim := fld (n.reg .cliBw c.val) 0 16 ≠ 0
    let m := n.setClient c.val { (n.client c.val) with
      tokens := if lim then (n.client c.val).tokens - size else (n.client c.val).tokens, waiting := rest }
    let m : Node := { m with store := { m.store with bwWaits := KList.del m.store.bwWaits id, bwItems := KList.del m.store.bwItems id } }
    (n.client c.val).waiting = (id, size) :: rest → n.dataUp = true → (lim → size ≤ (n.client c.val).tokens) → n.grantRoom id = true →
    (∀ w, KList.find? n.store.bwWaits id = some w → exec (.storeBandwidthGrant c) s = s.settled (m.cxlAtTier w))
    ∧ (∀ a, KList.find? n.store.bwWaits id = none → KList.find? n.store.bwItems id = some a →
      exec (.storeBandwidthGrant c) s = s.settled (if a.item.op < 0x1C then m.beginTab a else m.wordItem a)))

/-- 08 R265-R267, 17 R531: memory as hosts reach it. A request that lies in one export restarts its client's lease, draws its
bandwidth, and goes to its tier. -/
def Obligations.HostMemoryResults : Prop :=
  (∀ (s : State) (dpa len : Nat) (l : Fin 16) (c tid addr : Nat) (p : DpaPart),
    let m : Node := { s.node with store := { s.node.store with nload := l.val } }
    let n := m.touchLease c
    s.node.hif.capGb ≠ 0 → m.dataUp = true → dpaParts m.exports 66 dpa 0 len = [p] → m.cxlPlace p = .ok (c, tid, addr) → MayDraw n c p.len →
    exec (.cxlMemRead dpa len l) s = s.settled ((drew n c p.len).cxlAtTier
      { client := c, owner := tid, addr := addr, len := p.len, issued := s.node.clk, bar4 := false, data := none }))
  ∧ (∀ (s : State) (dpa : Nat) (b : Bytes) (l : Fin 16) (c tid addr : Nat) (p : DpaPart),
    let m : Node := { s.node with store := { s.node.store with nload := l.val } }
    let n := m.touchLease c
    s.node.hif.capGb ≠ 0 → m.dataUp = true → dpaParts m.exports 66 dpa 0 b.length = [p] → m.cxlPlace p = .ok (c, tid, addr) →
    m.roomOver tid addr p.len = true → MayDraw n c p.len →
    exec (.cxlMemWrite dpa b l) s = s.settled ((drew n c p.len).cxlServe
      { client := c, owner := tid, addr := addr, len := p.len, issued := s.node.clk, bar4 := false, data := some (slice b p.off p.len) }))
  ∧ (∀ (s : State) (off len c tid addr : Nat) (data : Option Bytes) (p : DpaPart),
    let m := s.node
    let n := m.touchLease c
    off < 2 ^ 36 → m.dataUp = true →
    dpaParts m.exports 66 (fld (m.reg .p2pBase) 0 27 * 2097152 + off) 0 ((data.map (·.length)).getD len) = [p] →
    m.cxlPlace p = .ok (c, tid, addr) → (data ≠ none → m.roomOver tid addr p.len = true) → MayDraw n c p.len →
    exec (.peerWindowAccess off len data) s = s.settled ((drew n c p.len).cxlAtTier
      { client := c, owner := tid, addr := addr, len := p.len, issued := m.clk, bar4 := true, data := data.map fun b => slice b p.off p.len }))
  ∧ (∀ (s : State) (id : Nat) (w : CxlWait), KList.find? s.node.store.cxlWaits id = some w → w.data = none →
    s.node.passed w.issued (fld (s.node.reg .stoCfg) 0 16) = true →
    exec (.cxlReadDeadline id) s = s.settled ((({ s.node with store := { s.node.store with cxlWaits := KList.del s.node.store.cxlWaits id } }).tmo
      w.owner).cxlLater w.client 0x0B01 (List.replicate w.len 0)))

/-! ## Cassettes (05, 07 R227-R229) -/

/-- 05 R149-R161, 07 R227-R229: models and cassettes. -/
def Obligations.CassetteResults : Prop :=
  (∀ (s : State) (q : Fin 8192) (a : Admitted) (b : Bytes), s.node.mHead q 0x20 = some a →
    s.node.loadCheck (s.node.modelOwner a) (a.item.arg 0 % 64) (a.item.arg 1) = .ok b →
    exec (.modelLoad q) s = s.settled ((s.node.popM q).setSlot (a.item.arg 0 % 64)
      { state := 1, refs := 0, area := ceilDiv (readModel b).payBytes 65536, addr := a.item.arg 1, image := b, item := some a }))
  ∧ (∀ (s : State) (i : Fin 64) (a : Admitted) (m : Node),
    let x := s.node.slot i.val
    x.state = 1 → x.item = some a → s.node.dataUp = true → (∀ r ∈ s.node.mgt.resets, r.begun = false) →
    (∀ k code, s.node.openImage i.val = (.ok k, m) → exec (.modelLoadDone i true code) s = s.settled ((m.casTiles.foldl
      (fun n t => n.setTile t { (n.tile t) with copies := KList.put (n.tile t).copies i.val k })
      (m.setSlot i.val { x with state := 2, item := none })).finish a (done 0)))
    ∧ (∀ c code, s.node.openImage i.val = (.error c, m) → exec (.modelLoadDone i true code) s =
      s.settled (((m.setSlot i.val emptySlot).dropCopies i.val).finish a (done c)))
    ∧ (∀ code, 0x500 ≤ code → code < 0xC00 → code ≠ 0x0B01 → exec (.modelLoadDone i false code) s =
      s.settled (((s.node.setSlot i.val emptySlot).dropCopies i.val).finish a (done code))))
  ∧ (∀ (s : State) (q : Fin 8192) (a : Admitted),
    let i := a.item.arg 0 % 64
    s.node.mHead q 0x21 = some a → s.node.slotOwner i = some (s.node.modelOwner a) → ((s.node.slot i).state = 2 ∨ (s.node.slot i).state = 4) →
    exec (.modelUnload q) s = s.settled ((s.node.popM q).startUnload i (some a)))
  ∧ (∀ (s : State) (th : Thr) (f : F4) (t : Thread) (x : Ctx) (m : Node),
    let i := f.imm.toNat % 64
    Ready4 s th 0x64 0 f 0 [] t x → s.node.slotOwner i = some x.owner → (s.node.slot i).state = 2 →
    (if x.slotRefs.contains i then s.node else (s.node.addRef i).setCtx t.ctx { x with slotRefs := x.slotRefs ++ [i] }).casRequest (thrNo th) t
      { slot := i, thr := thrNo th, ctx := t.ctx, hub := thrHub (thrNo th), inputs := 0, done := 0, inAddr := 0, inLocal := false,
        outAddr := 0, outLocal := false, staged := false, took := !x.slotRefs.contains i } = some m →
    exec (.casShift th f) s = s.settled m)
  ∧ (∀ (s : State) (th : Thr) (f : F4) (t : Thread) (x : Ctx) (m : Node),
    let i := f.imm.toNat % 64
    let md := readModel (s.node.slot i).image
    let k := t.reg f.rc
    let fl := f.fl.toNat
    Ready4 s th 0x64 1 f 7 [f.ra, f.rb, f.rc] t x → x.slotRefs.contains i = true → 1 ≤ k → k ≤ 4096 →
    (bitAt fl 2 = true → x.staged = true ∧ k = 1) →
    (bitAt fl 2 = false → t.operandCode (bitAt fl 0) (t.reg f.ra) (if bitAt fl 0 then k * md.inStride else 1) (elemAlign md.inFmt) = 0) →
    t.operandCode (bitAt fl 1) (t.reg f.rb) (if bitAt fl 1 then k * round64 (4 * md.outElems) else 1) 4 = 0 →
    s.node.mustWait (thrNo th) (t.reg f.ra, if bitAt fl 2 || bitAt fl 0 then 0 else k * md.inStride) = false →
    s.node.mustWait (thrNo th) (t.reg f.rb, if bitAt fl 1 then 0 else k * round64 (4 * md.outElems)) = false →
    let r : CasReq := { slot := i, thr := thrNo th, ctx := t.ctx, hub := thrHub (thrNo th), inputs := k, done := 0, inAddr := t.reg f.ra,
                        inLocal := bitAt fl 0, outAddr := t.reg f.rb, outLocal := bitAt fl 1, staged := bitAt fl 2, took := false }
    ((s.node.slot i).state ≠ 4 → s.node.casRequest (thrNo th) t r = some m → exec (.casRun th f) s = s.settled m)
    ∧ ((s.node.slot i).state = 4 →
      let z := s.node.zeroOutputs md r 0
      exec (.casRun th f) s = s.settled ((z.setThread (thrNo th) (((z.thread (thrNo th)).getD t).retire 0 0 0x0A06)).runFailed t.ctx 0x0A06)))
  ∧ (∀ (s : State) (t : Fin 8), (s.node.tile t.val).batch = none → s.node.dataUp = true → bitAt s.node.power.pllOn t.val = true →
    bitAt s.node.power.tileRet t.val = false → exec (.cassetteBatchStart t) s = s.settled (s.node.casStart t.val))
  ∧ (∀ (s : State) (t : Fin 8) (b : CasBatch), (s.node.tile t.val).batch = some b → s.node.dataUp = true →
    ∀ k, KList.find? (s.node.tile t.val).copies b.slot = some k →
    exec (.cassetteBatchDone t) s = s.settled (b.parts.foldl (fun n p => n.endPart t.val k p)
      (s.node.setTile t.val { (s.node.tile t.val) with batch := none })))
  ∧ (∀ (s : State) (t : Fin 8), s.node.fixedSlot = true →
    exec (.cassetteWindow t) s =
      s.next ((s.node.setTile t.val { (s.node.tile t.val) with window := s.node.now / s.node.casSpan }).stageWaiting t.val))

/-! ## Admission, dispatch, synchronisation objects (13) -/

/-- 13 R405-R432, 03 R72-R74: queues, admission, the gate, dispatch. -/
def Obligations.AdmissionResults : Prop :=
  (∀ (s : State) (q : Fin 8192) (sl : List Bytes) (res : DmaRes), s.node.fetchDue q = true →
    ((s.node.qcfg q).host = true → res = .ok → sl.length = (s.node.queue q).used →
      exec (.descriptorFetch q sl res) s = s.settled (s.node.takeItems q (splitItems ((s.node.queue q).used + 1) sl)))
    ∧ ((s.node.qcfg q).host = false →
      exec (.descriptorFetch q sl res) s = s.settled (s.node.takeItems q (s.node.pushedItems q (s.node.queue q).head ((s.node.queue q).used + 1)))))
  ∧ (∀ (s : State) (q : Fin 8192), (s.node.qcfg q).host = true → s.node.fetchDue q = true → s.node.passed (s.node.queue q).readAt 10000 = true →
    exec (.ringDmaTimeout q) s = s.settled (s.node.dmaFail q true))
  ∧ (∀ (s : State) (q : Fin 8192) (i : Item) (rest : List Item), (s.node.queue q).items = i :: rest → i.op = 0x10 → i.checked = false →
    s.node.dataUp = true → s.node.checkQuery i = 0 → s.node.burstCode i (s.node.itemCost i) = 0 →
    exec (.query q) s = s.next (s.node.setQueue q { (s.node.queue q) with items :=
      { i with checked := true, cost := s.node.itemCost i, reserve := if i.fwd then 0 else queryReserve i.bytes } :: rest }))
  ∧ (∀ (s : State) (m : Node), s.node.dataUp = true →
    s.node.admitScan ((List.range 8).map fun i => (s.node.adm.lastClass + 1 + i) % 8) = some m → exec .itemAdmit s = s.settled m)
  ∧ (∀ (s : State) (m : Node), s.node.dataUp = true → s.node.lineOrder.findSome? (fun p => s.node.placeHead p.1 p.2) = some m →
    exec .itemDispatch s = s.settled m)
  ∧ (∀ (s : State), exec .bucketRefill s = s.next ((List.range 7).foldl (fun n c => n.setClsTok c (refill (n.reg .clsCfg c) (n.clsTok c)))
    (((s.node.regs.filter fun p => decide (0x200000 ≤ p.1 ∧ p.1 < 0x204000 ∧ p.1 % 16 = 0)).map fun p => (p.1 - 0x200000) / 16).foldl
      (fun n t => n.setTenTok t (refill (n.reg .shpCfg t) (n.tenTok t))) s.node)))
  ∧ (∀ (s : State),
    let w := s.node.now / max 1 s.node.gatePeriod
    let budget := fld (s.node.reg .gateCfg) 40 24 * 1024
    let n := s.node.setClsTok 7 budget
    let t := if n.fixedSlot then n.assigned else []
    s.node.adm.gateWindow ≤ w → exec .gateOpen s = s.next { n with adm := { n.adm with
      gateOpen := true, gateWindow := w + 1, fsBudget := t.map fun i => (i, budget / max 1 t.length) } })
  ∧ (∀ (s : State), s.node.adm.gateOpen = true → (s.node.adm.gateWindow - 1) * s.node.gatePeriod + s.node.gateSpan ≤ s.node.now →
    exec .gateClose s = s.next { (s.node.setClsTok 7 0) with adm := { (s.node.setClsTok 7 0).adm with gateOpen := false, fsBudget := [] } })

/-- 13 R418, R419: synchronisation objects as items use them. -/
def Obligations.SyncItemResults : Prop :=
  (∀ (s : State) (q : Fin 8192) (a : Admitted) (i : Nat),
    let ty := a.item.iflags % 4
    let v := a.item.arg 0
    let o := (s.node.qcfg q).owner
    s.node.mHead q 0x30 = some a → (ty = 0 → v < 2 ^ 32) → (ty = 1 → v < 2) → (ty = 2 → 1 ≤ v ∧ v ≤ 8192) →
    KList.firstFree s.node.qsy.syncs 4096 0 = some i → s.node.fsFull o 14 12 (s.node.syncCount o) = false →
    exec (.syncCreate q) s = s.settled ((s.node.setSync i
      { type := ty, owner := o, value := if ty = 2 then 0 else v, parts := if ty = 2 then v else 0, waiters := [] }).doneM q a (done 0 i)))
  ∧ (∀ (s : State) (q : Fin 8192) (a : Admitted) (i : Nat) (x : Sync), s.node.mHead q 0x31 = some a → s.node.itemSync q a = some (i, x) →
    let n := s.node.endWaiters x.waiters 0x0405
    exec (.syncDestroy q) s = s.settled (({ n with qsy := { n.qsy with syncs := KList.del n.qsy.syncs i } }).doneM q a (done 0)))
  ∧ (∀ (s : State) (q : Fin 8192) (a : Admitted) (i : Nat) (x : Sync), s.node.mHead q 0x32 = some a → s.node.itemSync q a = some (i, x) →
    let v := x.value + a.item.arg 1
    (x.type = 1 → exec (.syncSignal q) s = s.settled ((s.node.setEvent i x (bitAt (a.item.arg 1) 0)).doneM q a (done 0)))
    ∧ ((x.type = 0 ∧ 1 ≤ a.item.arg 1 ∧ a.item.arg 1 < 2 ^ 32 ∧ v < 2 ^ 32 ∨ x.type = 3) → exec (.syncSignal q) s = s.settled ((s.node.settleSem i x (v % 2 ^ 64)).doneM q a (done 0))))

/-! ## Registers (00 R8-R10, R556; 13; 14; 17 R531-R537) -/

/-- A write of a register of BAR0 that 00 R556's checks let through: one whole register at its own offset, in range, no
reserved bit set, by a source that holds the role that it needs, with room in the audit log where the write is an act. -/
structure Sys2Proof.Claims.Accepts (n : Node) (src : Src) (name : RegName) (i v : Nat) (r : Option Role) (a : RegAt) : Prop where
  found : findReg bar0Rows (regOff name i) = some a
  whole : cover bar0Rows true a.off a.row.width = .regs [a]
  named : a.row.name = name ∧ a.idx = i
  source : src = .pf ∨ src = .fw
  inside : a.off + a.row.width ≤ 0x4000000
  kept : n.dev.pewter = false ∨ pewterKeeps a.off = true
  fits : v < 2 ^ (8 * a.row.width)
  role : n.writeRole src (n.roleOf src) a v = (0, r)
  writable : a.row.mask (fun x => x != .ro) ≠ 0
  reserved : a.row.reserved v = 0
  inRange : n.regCheck name i (v &&& a.row.mask fun x => x != .ro) = 0
  audited : r.isSome = true → n.auditOk = true

/-- The node once the act is in the audit log (14 R462, R463). -/
def Sys2Proof.Claims.recorded (n : Node) (src : Src) (r : Option Role) (a : RegAt) (v : Nat) : Node :=
  match r with
  | some r => n.audit (n.regAct src (some r) a.off v) 0
  | none => n

/-- The bits of a write that a register takes, and those that it stores. -/
def Sys2Proof.Claims.taken (a : RegAt) (v : Nat) : Nat := v &&& a.row.mask fun x => x != .ro
def Sys2Proof.Claims.stored (a : RegAt) (v : Nat) : Nat := taken a v &&& a.row.mask fun x => x == .rw

/-- A write by the PF or the firmware that R556 lets through does `g`, and nothing else but its audit record. -/
def Sys2Proof.Claims.Writes (c : Src → Nat → Instr) (name : RegName) (i : Nat) (ok : Node → Nat → Prop) (g : Node → Src → RegAt → Nat → Node) : Prop :=
  ∀ (s : State) (src : Src) (v : Nat) (r : Option Role) (a : RegAt), Accepts s.node src name i v r a → ok s.node v →
    exec (c src v) s = s.next (g (recorded s.node src r a v) src a v)

/-- The same of a command after which a waiting pop may be served. -/
def Sys2Proof.Claims.WritesSettled (c : Src → Nat → Instr) (name : RegName) (i : Nat) (ok : Node → Nat → Prop) (g : Node → Src → RegAt → Nat → Node) : Prop :=
  ∀ (s : State) (src : Src) (v : Nat) (r : Option Role) (a : RegAt), Accepts s.node src name i v r a → ok s.node v →
    exec (c src v) s = s.settled (g (recorded s.node src r a v) src a v)

/-- 13 R406, R425, R430; 14 R434, R435; 08 R259, R263; 09; 01 R18-R24; 16: writes of registers that do more than store. -/
def Obligations.RegisterCommandResults : Prop :=
  (∀ q, WritesSettled (fun src v => .qsyQcfgWrite src q v) .qcfg q.val (fun n _ => (n.qcfg q.val).valid = false) fun n _ a v =>
    let m := n.setReg .qcfg q.val (stored a v)
    if bitAt (taken a v) 63 then m.endCut q.val else m)
  ∧ (∀ q, WritesSettled (fun src v => .qsyQcfgWrite src q v) .qcfg q.val (fun n v => (n.qcfg q.val).valid = true ∧ bitAt v 63 = false)
    fun n _ _ _ => n.disableQueue q.val)
  ∧ (∀ t, Writes (fun src v => .admShpCfgWrite src t v) .shpCfg t.val (fun _ _ => True) fun n _ a v => (n.setReg .shpCfg t.val (stored a v)).setTenTok t.val 0)
  ∧ (∀ c, Writes (fun src v => .admClsCfgWrite src c v) .clsCfg c.val (fun _ _ => True) fun n _ a v => (n.setReg .clsCfg c.val (stored a v)).setClsTok c.val 0)
  ∧ Writes .fixedSlotEntry .isoCfg 0 (fun _ v => bitAt v 0 = true) (fun n _ a v => n.writeIso (stored a v))
  ∧ Writes .fixedSlotExit .isoCfg 0 (fun _ v => bitAt v 0 = false) (fun n _ a v =>
      let m := n.setReg .isoCfg 0 (stored a v)
      { m with power := { m.power with fixedWd := 0 } })
  ∧ (∀ t, Writes (fun src v => .tenantCreate src t v) .tenCfg t.val (fun _ v => bitAt v 63 = true) fun n _ a v => n.writeTen t.val (taken a v))
  ∧ (∀ t, WritesSettled (fun src v => .tenantDestroy src t v) .tenCfg t.val (fun n v => bitAt v 63 = false ∧ (n.ten t.val).valid = true)
    fun n _ a v => n.writeTen t.val (taken a v))
  ∧ (∀ c, WritesSettled (fun src v => .stoCliIdWrite src c v) .cliId c.val (fun n _ => (n.cliId c.val).valid = false)
    fun n _ a v => n.setReg .cliId c.val (stored a v))
  ∧ (∀ c, WritesSettled (fun src v => .stoCliIdWrite src c v) .cliId c.val
      (fun n v => (n.cliId c.val).valid = true ∧ bitAt v 63 = false ∧ (n.client c.val).live = true)
    fun n _ a v => (n.lapse c.val).setReg .cliId c.val (stored a v))
  ∧ (∀ c, Writes (fun src v => .stoCliBwWrite src c v) .cliBw c.val (fun _ _ => True) fun n _ a v =>
      (n.setReg .cliBw c.val (stored a v)).setClient c.val { (n.client c.val) with tokens := 0, filledAt := n.clk })
  ∧ (∀ t, Writes (fun src v => .quotaWrite src t false v) .tq0 t.val (fun _ _ => True) fun n _ a v => (n.setReg .tq0 t.val (stored a v)).demoteQuota t.val)
  ∧ (∀ t, Writes (fun src v => .quotaWrite src t true v) .tq1 t.val (fun _ _ => True) fun n _ a v => (n.setReg .tq1 t.val (stored a v)).demoteQuota t.val)
  ∧ Writes .tbCfgWrite .tbCfg 0 (fun _ _ => True) (fun n _ a v => ((n.holdTiles (taken a v)).setReg .tbCfg 0 (stored a v)).demoteTiles)
  ∧ Writes .resetRequest .rstReq 0 (fun _ v => bitAt v 0 = true) (fun n src _ v => n.requestReset
      (match n.roleOf src [.operator, .installer, .maker] with
        | some .operator => 9
        | some .installer => 10
        | _ => 11) (some (fld v 1 3)))
  ∧ Writes .resetFuseProgram .rstProg 0 (fun _ _ => True) (fun n _ _ v => { n with fuses := { n.fuses with rstProg := true, rstMap := v } })
  ∧ Writes .strapOverrideWrite .strapOvr 0 (fun _ _ => True) (fun n _ _ v => { n with qspi := { n.qspi with ovrValid := bitAt v 4, ovrCode := fld v 0 4 } })
  ∧ Writes .mgtTimeSet .timeSet 0 (fun _ _ => True) (fun n _ _ v => { n with mgt := { n.mgt with timeNs := v, timeValid := true, timeHold := none } })
  ∧ Writes .logTailWrite .logRing 0 (fun _ v => v < 2 ^ 32) (fun n _ _ v => { n with log := { n.log with tail := v } })
  ∧ Writes .firstFaultClear .ffCtl 0 (fun _ v => v = 1) (fun n _ _ _ => { n with log := { n.log with ffInfo := none, ffTime := 0, later := 0 } })
  ∧ Writes .suspectReportRelease .logStat 0 (fun _ _ => True) (fun n _ a v =>
      let m := n.releaseReports (fld (taken a v) 4 4)
      { m with log := { m.log with suspOvf := n.log.suspOvf && !bitAt (taken a v) 3 } })
  ∧ WritesSettled .snapshotArm .snapArm 0 (fun _ _ => True) (fun n _ _ v => n.arm v (bitAt (n.reg .snapCfg) 0))

/-- 00 R556, 13 R415-R417, 17 R532-R537: any register, doorbells, a client's own status. -/
def Obligations.RegisterAccessResults : Prop :=
  (∀ (s : State) (src : Src) (name : RegName) (i v : Nat) (r : Option Role) (a : RegAt), name ≠ .mboxCtl → Accepts s.node.free.2 src name i v r a →
    exec (.registerWrite src a.off a.row.width v) s = s.settled ((recorded s.node.free.2 src r a v).regEffect src a (taken a v)).dropDisabled)
  ∧ (∀ (s : State) (a : RegAt), cover bar0Rows false a.off a.row.width = .regs [a] → a.off + a.row.width ≤ 0x4000000 →
    (s.node.dev.pewter = false ∨ pewterKeeps a.off = true) → readerOk (s.node.roleOf .pf) a = true →
    exec (.registerRead .pf a.off a.row.width) s =
      s.next ((s.node.readEffect .pf a).emit (.readData .pf (s.node.regValueAt a % 2 ^ (8 * a.row.width)))))
  ∧ (∀ (s : State) (src : Src) (off w : Nat), src = .pf ∨ src = .fw → s.node.dev.pewter = false → off + w ≤ 0x4000000 → cover bar0Rows true off w = .bad →
    ∀ v, exec (.registerWrite src off w v) s = s.settled (s.node.free.2.recordAcc src 0x0162 off true).dropDisabled)
  ∧ (∀ (s : State) (t : Fin 1024) (page q v : Nat) (a : RegAt), s.node.dev.pewter = false → s.node.tenantUse t.val = 0 → page < 15 → v < 2 ^ 32 →
    cover vfRows true (4096 * page) 4 = .regs [a] → a.row.name = .qDb → a.idx = page → a.row.width = 4 → a.row.mask (fun x => x != .ro) ≠ 0 →
    a.row.reserved v = 0 → s.node.vfQueue t.val page = some q →
    (bitAt v 31 = false → exec (.doorbell (.vf t) page v) s = s.settled (s.node.doorbell q v))
    ∧ (bitAt v 31 = true → exec (.queueFlush (.vf t) page v) s = s.settled (s.node.doorbell q v)))
  ∧ (∀ (s : State) (q v : Nat) (r : Option Role) (a : RegAt), Accepts s.node .pf .qDb q v r a → a.off = 0x2000000 + 4096 * q → a.row.width = 4 →
    (bitAt v 31 = false → exec (.doorbell .pf q v) s = s.settled ((recorded s.node .pf r a v).doorbell q (taken a v)))
    ∧ (bitAt v 31 = true → exec (.queueFlush .pf q v) s = s.settled ((recorded s.node .pf r a v).doorbell q (taken a v))))
  ∧ (∀ (s : State) (c : Fin 1024) (a : RegAt), regOff .cliStat c.val = a.off → cover bar0Rows false a.off 8 = .regs [a] → a.off + 8 ≤ 0x4000000 →
    a.row.name = .cliStat → a.idx = c.val → a.row.width = 8 → s.node.dev.pewter = false → readerOk (s.node.roleOf .pf) a = true →
    (s.node.cliId c.val).valid = true → (s.node.cliId c.val).remote = false → (s.node.cliId c.val).func = 0 →
    exec (.clientStatRead .pf c) s = s.next ((s.node.touchStat c.val).emit (.readData .pf (s.node.cliStat c.val % 2 ^ 64))))

/-- 15 R500, 17 R547: the mailbox. -/
def Obligations.MailboxResults : Prop :=
  (∀ (s : State) (src : Src) (v : Nat) (b : Bytes) (r : Option Role) (a : RegAt),
    let n := s.node.fillWindow b
    Accepts n src .mboxCtl 0 v r a → fld v 0 3 = 1 → fld v 3 13 ≤ 3839 →
    let data := (List.range 512).flatMap fun i => natLe 8 (n.reg .mboxWin i)
    let m : Node := { n with mbox := { n.mbox with staged := KList.put n.mbox.staged (fld v 3 13) data } }
    exec (.mboxWrite src v b) s = s.next (m.mboxStatus 0))
  ∧ (∀ (s : State) (src : Src) (v : Nat) (r : Option Role) (a : RegAt), Accepts s.node src .mboxCtl 0 v r a → fld v 0 3 = 2 →
    s.node.dev.pewter = false → s.node.dev.slot ≠ b2n (bitAt v 16) → (s.node.roleOf src [.installer]).isSome = true → s.node.auditOk = true →
    exec (.mboxCommit src v true) s = s.next (((s.node.audit (s.node.regAct src (some .installer) 0x10F00 v) 0).putSlot (bitAt v 16)).mboxStatus 0))
  ∧ (∀ (s : State) (src : Src) (v : Nat) (r : Option Role) (a : RegAt), Accepts s.node src .mboxCtl 0 v r a → fld v 0 3 = 3 →
    exec (.mboxClear src v) s = s.next (({ s.node with qspi := { s.node.qspi with fails := 0 } } : Node).mboxStatus 0))
  ∧ (∀ (s : State) (src : Src) (v : Nat) (r : Option Role) (a : RegAt), Accepts s.node src .mboxCtl 0 v r a → fld v 0 3 = 4 → s.node.dev.pewter = true →
    exec (.mboxReset src v) s = s.next ((s.node.free.2.mboxStatus 0).requestLevel 0 0 (s.node.free.1 % 16)))

/-! ## The host and board interfaces (17) -/

/-- 17 R538-R555: functions, the link, CXL's mailbox, MCTP and PLDM, GPIO. -/
def Obligations.HostInterfaceResults : Prop :=
  (∀ (s : State) (f : Fin 1025), exec (.functionLevelReset f) s = s.settled (s.node.functionReset fun g => g == f.val))
  ∧ (∀ (s : State), let n := s.node.functionReset fun g => decide (1 ≤ g)
    exec .vfEnableClear s = s.settled { n with hif := { n.hif with vfEnable := false } })
  ∧ (∀ (s : State) (f : Fin 1025), exec (.poisonedTlp f) s = s.next ((s.node.free.2.logEvent
    (logEv (freeCode s.node.free.1) 0 (if f.val = 0 then 2048 else f.val - 1))).emit (.aer f.val 2)))
  ∧ (∀ (s : State), exec (.unsupportedRequest true) s = s.next (s.node.emit (.aer 0 3))
    ∧ exec (.unsupportedRequest false) s = s.next ((s.node.emit (.aer 0 3)).emit (.cpl 1 [])))
  ∧ (∀ (s : State) (w g : Nat) (flit cxl : Bool),
    let h : Hif := { s.node.hif with linkUp := true, linkWidth := w, linkSpeed := g, linkFlit := flit, linkCxl := cxl, msixMasked := [] }
    s.node.dev.pewter = false → w ∈ [1, 2, 4, 8, 16] → 1 ≤ g → g ≤ 6 → exec (.pcieLinkUp w g flit cxl) s = s.next { s.node with hif := h })
  ∧ (∀ (s : State), exec .identifyMemoryDevice s = s.next (s.node.emit (.mbox (natLe 8 (s.node.hif.capGb * 2 ^ 30)))))
  ∧ (∀ (s : State), ∃ b n, Node.freeBytes 20 s.node = (b, n) ∧ exec .getSupportedLogs s = s.next (n.emit (.mbox (natLe 8 1 ++ b))))
  ∧ (∀ (s : State) (off len : Nat), ∃ b n, Node.freeBytes (min len 4096) s.node = (b, n)
    ∧ exec (.getLog off len) s = s.next (n.emit (.mbox (natLe 4 off ++ b))))
  ∧ (∀ (s : State) (l : Fin 4), exec (.getEventRecords l) s = s.next (s.node.emit (.mbox ((KList.getD s.node.hif.cxlEvents l.val []).flatMap (natLe 2)))))
  ∧ (∀ (s : State) (l : Fin 4) (hs : List Nat),
    let left := (KList.getD s.node.hif.cxlEvents l.val []).filter fun h => !hs.contains h
    let n : Node := { s.node with hif := { s.node.hif with cxlEvents := KList.put s.node.hif.cxlEvents l.val left } }
    exec (.clearEventRecords l hs) s = s.next (n.emit (.mbox [])))
  ∧ (∀ (s : State), exec .getHealthInfo s = s.next (s.node.emit (.mbox (natLe 1 (b2n (bitAt (getLe s.node.healthPage 7 1) 3)) ++ s.node.healthPage))))
  ∧ (∀ (s : State) (e : Nat), exec (.setEndpointId e) s = s.next (({ s.node with hif := { s.node.hif with eid := e % 256 } } : Node).emit (.mctp (natLe 1 e))))
  ∧ (∀ (s : State) (r : Nat), isSensor r = true → exec (.getPdr r) s = s.next (s.node.emit (.mctp (natLe 2 r ++ natLe 8 (sensorLimit r)))))
  ∧ (∀ (s : State) (r v : Nat), isSensor r = true → r < 128 → s.node.sensorValue r = some v →
    exec (.getSensorReading r) s = s.next (s.node.emit (.mctp (natLe 2 r ++ natLe 1 1 ++ natLe 4 v))))
  ∧ (∀ (s : State) (r : Nat), isSensor r = true → 128 ≤ r →
    exec (.getStateSensorReadings r) s = s.next (s.node.emit (.mctp (natLe 2 r ++ natLe 1 (s.node.stateValue r)))))
  ∧ (∀ (s : State) (e : Nat × Nat) (l : List (Nat × Nat)),
    let n : Node := { s.node with hif := { s.node.hif with pldmEvents := l }, mgt := { s.node.mgt with smbAlertN := l.isEmpty } }
    s.node.hif.pldmEvents = e :: l → exec .pollForPlatformEventMessage s = s.next (n.emit (.pldmEvent e.1 e.2)))
  ∧ (∀ (s : State) (p : Fin 8),
    let n : Node := { s.node with hif := { s.node.hif with gpioIn := s.node.hif.gpioIn - (s.node.hif.gpioIn &&& 2 ^ p.val) } }
    (fld (s.node.reg .gpioCfg) (2 * p.val) 2 ≠ 3 → exec (.gpioFallingEdge p) s = s.next n)
    ∧ (fld (s.node.reg .gpioCfg) (2 * p.val) 2 = 3 → exec (.gpioFallingEdge p) s = s.next (n.free.2.logUnit (freeCode n.free.1) (11 * 2 ^ 28))))

/-! ## Links (11; 14 R448, R449; 15 R502) -/

/-- In every state in which a command is due, it does `f` to the node. -/
def Sys2Proof.Claims.Does (c : Instr) (due : Node → Prop) (f : Node → Node) : Prop := ∀ s : State, due s.node → exec c s = s.next (f s.node)

/-- The same of a command after which a waiting pop may be served. -/
def Sys2Proof.Claims.DoesSettled (c : Instr) (due : Node → Prop) (f : Node → Node) : Prop := ∀ s : State, due s.node → exec c s = s.settled (f s.node)

/-- A port changed. -/
def Sys2Proof.Claims.onPort (p : Fin 16) (f : Node → Port → Port) (n : Node) : Node := n.setPort p.val (f n (n.port p.val))

/-- 11 R336-R349: lanes, flits, acknowledgement and replay. -/
def Obligations.LinkDataResults : Prop :=
  (∀ p l, DoesSettled (.laneErrorWindow p l) (fun _ => True) fun n =>
    ((List.range 9).filter fun i => decide ((n.port p.val).spareThr * 1024 < l.getD i 0)).foldl (fun n i => n.rxLaneBad p.val i)
      (onPort p (fun n x => { x with spareThr := fld (n.reg .portCfg p.val) 8 8 }) n))
  ∧ (∀ p l, DoesSettled (.laneSignalLoss p l) (fun _ => True) fun n => n.rxLaneBad p.val l.val)
  ∧ (∀ p l, let pw := (List.range 9).map fun i => min 127 (l.getD i 0)
    let after := fun (n : Node) => (pw.zip (List.range 9)).foldl (fun n t => n.tone p.val t.2 t.1) (onPort p (fun _ x => { x with laser := pw }) n)
    ((∃ v ∈ pw, 44 ≤ v) → DoesSettled (.laserPowerSample p l) (fun _ => True) after)
    ∧ ((∀ v ∈ pw, v < 44) → DoesSettled (.laserPowerSample p l) (fun _ => True) fun n => (after n).dropPort p.val))
  ∧ (∀ p m, m.lane < 8 → Does (.spare p m) (fun n => (n.port p.val).state = 5)
    (onPort p fun _ x => { x with txSwitch := x.txSwitch ++ [⟨m.lane, m.count % 4096, false⟩] }))
  ∧ (∀ p m, m.lane < 9 → Does (.width p m) (fun n => (n.port p.val).state = 5)
    (onPort p fun _ x => { x with txSwitch := x.txSwitch ++ [⟨m.lane, m.count % 4096, true⟩] }))
  ∧ (∀ p c, let here := fun (w : LaneSwitch) => w.count == c % 4096
    Does (.laneSwitch p true c) (fun _ => True) (onPort p fun _ x => { x with
      tx := (x.txSwitch.filter here).foldl switched x.tx, txSwitch := x.txSwitch.filter fun w => !here w,
      txSpared := x.txSpared || (x.txSwitch.filter here).any fun w => !w.width }))
  ∧ (∀ p c, let here := fun (w : LaneSwitch) => w.count == c % 4096
    Does (.laneSwitch p false c) (fun _ => True) fun n =>
    ((n.port p.val).rxSwitch.filter here).foldl
      (fun n w => (onPort p (fun _ x => x.count (if w.width then 11 else 10)) n).logUnit (if w.width then 0x0612 else 0x0611) (7 * 2 ^ 28 + p.val))
      (onPort p (fun _ x => { x with
        rx := (x.rxSwitch.filter here).foldl switched x.rx, rxSwitch := x.rxSwitch.filter fun w => !here w,
        rxSpared := x.rxSpared || (x.rxSwitch.filter here).any fun w => !w.width }) n))
  ∧ (∀ p f, DoesSettled (.dataFlit p f) (fun n => 3 ≤ (n.port p.val).state) fun n => (n.flitIn p.val f).sequenced p.val f)
  ∧ (∀ p f, DoesSettled (.ackFlit p f) (fun n => 3 ≤ (n.port p.val).state) fun n => if f.replayReq then (n.flitIn p.val f).replay p.val else n.flitIn p.val f)
  ∧ (∀ p f, DoesSettled (.idleFlit p f) (fun n => 3 ≤ (n.port p.val).state) fun n => n.flitIn p.val f)
  ∧ (∀ p c l b₀ b₁ b₂ b₃, let b := b₀ ++ b₁ ++ b₂ ++ b₃
    let f := readHead b
    let after := fun (k m : Nat) => onPort p fun _ x => ({ x with rxCount := c % 4096 } : Port).count k m
    let whole := b.length = 640 ∧ getLe b 636 4 = crc32c (slice b 0 636)
    let opened := fun (x : Port) => gcmOpen (KList.getD x.rxKeys (b2n f.keyPhase) []) (headIv b) (slice b 0 32) (slice b 32 576) (slice b 608 16)
    DoesSettled (.codewordReceive p c l false b₀ b₁ b₂ b₃) (fun n => 3 ≤ (n.port p.val).state) (after 5 1)
    ∧ DoesSettled (.codewordReceive p c l true b₀ b₁ b₂ b₃) (fun n => 3 ≤ (n.port p.val).state ∧ ¬ whole) (fun n => after 3 1 (after 6 (sumN l) n))
    ∧ DoesSettled (.codewordReceive p c l true b₀ b₁ b₂ b₃) (fun n => 3 ≤ (n.port p.val).state ∧ whole ∧ opened (n.port p.val) = none)
      (fun n => after 4 1 (after 6 (sumN l) n))
    ∧ DoesSettled (.codewordReceive p c l true b₀ b₁ b₂ b₃) (fun n => 3 ≤ (n.port p.val).state ∧ whole ∧ (opened (n.port p.val)).isSome = true) fun n =>
      let n := after 6 (sumN l) n
      match getLe b 0 1 % 16 with
      | 0 | 3 => n.flitIn p.val f
      | 1 | 2 => (n.flitIn p.val f).sequenced p.val f
      | 4 => if f.replayReq then (n.flitIn p.val f).replay p.val else n.flitIn p.val f
      | _ => n)
  ∧ (∀ p, Does (.ackTimer p) (fun n => 3 ≤ (n.port p.val).state ∧ n.ackDueNow (n.port p.val) = true) fun n => n.sendAck p.val false)
  ∧ (∀ p t, DoesSettled (.replayTimeout p) (fun n => (n.port p.val).timer = some t ∧ t + 4000 ≤ n.clk) fun n => n.replay p.val)

/-- 11 R353-R361, 14 R448, R449, 15 R502: keys, neighbours, bring-up, time. -/
def Obligations.LinkControlResults : Prop :=
  (∀ p, Does (.rekeyStart p) (fun n => (n.port p.val).state = 5 ∧ 2 ^ (n.port p.val).rekeyExp ≤ (n.port p.val).fctr) fun n => n.startRekey p.val)
  ∧ (∀ p q src sport, Does (.rekey p false ⟨q, src, sport⟩ true) (fun n => (n.port p.val).state = 3) fun n =>
    let r := n.agree p.val src sport 0
    r.2.setPort p.val { (n.port p.val) with keyOk := true, newKeys := some r.1 })
  ∧ (∀ p b q src sport, Does (.rekey p b ⟨q, src, sport⟩ true) (fun n => (n.port p.val).state = 5 ∧ (n.port p.val).rxPhase ≠ b) fun n =>
    let r := (n.startRekey p.val).agree p.val src sport (b2n b)
    (onPort p (fun _ x => { x with rxRekey := some (q % 4096), rxKeys := KList.put x.rxKeys (b2n b) r.1.2 }) r.2).turnKey p.val r.1.1)
  ∧ (∀ p, DoesSettled (.rekeyFail p) (fun n => (n.port p.val).state = 5 ∧ 2 ^ 40 - 1 ≤ (n.port p.val).fctr) fun n =>
    (n.logUnit 0x0613 (7 * 2 ^ 28 + p.val)).dropPort p.val)
  ∧ (∀ p i c ok, Does (.lcert p i c ok) (fun n => (n.port p.val).state = 3 ∧ (n.port p.val).certNext = i)
    (onPort p fun _ x => { x with certNext := i + 1, certOk := ok && i + 1 == c }))
  ∧ (∀ p x k t d, k < 16 → Does (.neigh p x k t d) (fun n => 4 ≤ (n.port p.val).state) fun n =>
    ((onPort p (fun _ y => { y with nv := true, nbr := x % 32768, annTime := t, alt := false, neighOk := true }) n).conflict p.val (x % 32768) t).seeDigest
      p.val (x % 32768) d)
  ∧ (∀ p rx, Does (.portLight p rx) (fun n => (n.port p.val).state = 0 ∧ (n.port p.val).retryAt = none ∧ bitAt (n.reg .portCfg p.val) 0 = true
      ∧ n.linksUp = true ∧ n.dev.ready = true ∧ 7 ≤ popcount 9 (tonesOk (n.port p.val).laser) ∧ 7 ≤ popcount 9 rx)
    (onPort p fun n x => { x with state := 1, since := n.clk, rxBad := 511 - rx % 512, txBad := 511 - tonesOk x.laser }))
  ∧ (∀ p e, e ≤ 1000000 → Does (.portTrain p e) (fun n => (n.port p.val).state = 1 ∧ n.clk < (n.port p.val).since + 1000000) (onPort p fun n x => { x with
      state := 2, since := n.clk, rx := lanesOf x.rxBad, tx := lanesOf x.txBad, rxSpared := bitAt (lanesOf x.rxBad) 8, txSpared := bitAt (lanesOf x.txBad) 8 }))
  ∧ (∀ p, Does (.portKey p) (fun n => (n.port p.val).state = 2 ∧ n.clk < (n.port p.val).since + 2000000) fun n =>
    ((onPort p (fun n x => { x with
      state := 3, since := n.clk, certNext := 0, certOk := false, keyOk := false, neighOk := false, keyPhase := false, rxPhase := false,
      txSeq := 0, e := 0, buffer := [], waiting := [], timer := none, replays := 0, fctr := 0,
      txKey := zeroKey, rxKeys := [(0, zeroKey)], newKeys := none }) n).sendCert p.val).sendRekey p.val false 0)
  ∧ (∀ p, Does (.portNeigh p) (fun n => (n.port p.val).state = 3 ∧ (n.port p.val).certOk = true ∧ (n.port p.val).keyOk = true
      ∧ n.clk < (n.port p.val).since + 20000000) fun n =>
    let k := (n.port p.val).newKeys.getD (zeroKey, zeroKey)
    let m := onPort p (fun n x => { x with state := 4, since := n.clk, fctr := 0, txKey := k.1, rxKeys := [(0, k.2)], newKeys := none,
                                           rekeyExp := fld (n.reg .linkCfg) 0 8 }) n
    m.sendMgmt p.val (natLe 1 4 ++ natLe 1 0 ++ natLe 2 m.dev.node ++ natLe 1 p.val ++ natLe 3 0 ++ natLe 8 m.now ++ natLe 16 m.digest))
  ∧ (∀ p, Does (.portUp p) (fun n => (n.port p.val).state = 4 ∧ (n.port p.val).neighOk = true ∧ n.clk < (n.port p.val).since + 1000000
      ∧ bitAt (n.reg .portCfg p.val) 0 = true) fun n =>
    (onPort p (fun n x => { x with
      state := 5, since := n.clk, credits := 2048, txSeq := 0, e := 0, buffer := [], waiting := [], timer := none, replays := 0,
      accepted := 0, ackDue := none, lastAck := none, replaySent := false, owed := 0, ackNow := false, diverged := 0,
      spareThr := fld (n.reg .portCfg p.val) 8 8 }) n).stateEvent (130 + p.val) 1)
  ∧ (∀ p, Does (.portStepTimeout p) (fun n => 1 ≤ (n.port p.val).state ∧ (n.port p.val).state ≤ 4
      ∧ n.passed (n.port p.val).since (stepLimit (n.port p.val).state) = true) fun n => n.dropPort p.val)
  ∧ (∀ p t, Does (.portRetry p) (fun n => (n.port p.val).retryAt = some t ∧ (n.port p.val).state = 0 ∧ t ≤ n.clk)
    (onPort p fun _ x => { (x.count 12) with retryAt := none }))
  ∧ (∀ p, Does (.timeExchange p) (fun n => (n.port p.val).state = 5) fun n =>
    let k := ((n.port p.val).exNum + 1) % 65536
    ((onPort p (fun _ x => { x with exNum := k }) n).sendTime p.val 1 k 0).sendTime p.val 2 k n.now)
  ∧ (∀ p k t, Does (.sync p k t) (fun n => (n.port p.val).state = 5) (onPort p fun n x => { x with syncNum := k, t2 := t, xchk := fld (n.reg .timeCfg) 16 16 }))
  ∧ (∀ p k t t', Does (.followUp p k t t') (fun n => (n.port p.val).state = 5 ∧ (n.port p.val).syncNum = k) fun n =>
    (onPort p (fun _ x => { x with t1 := t, t3 := t' }) n).sendTime p.val 3 k 0)
  ∧ (∀ p k t, Does (.delayReq p k t) (fun n => (n.port p.val).state = 5) fun n => n.sendTime p.val 4 k t)
  ∧ (∀ (s : State) (p : Fin 16) (k t4 : Nat),
    let x := s.node.port p.val
    let a : Int := (x.t2 : Int) - x.t1
    let b : Int := (t4 : Int) - x.t3
    let l : Links := { s.node.links with offset := ofSigned 32 ((a - b) / 2), delay := ofSigned 16 ((a + b) / 2) }
    let m : Node := { s.node with links := l }
    x.state = 5 → x.syncNum = k →
    (bitAt (s.node.reg .timeCfg) 4 = true → fld (s.node.reg .timeCfg) 0 4 = p.val → exec (.delayResp p k t4) s = s.next (m.correct ((a - b) / 2)))
    ∧ ((bitAt (s.node.reg .timeCfg) 4 = false ∨ fld (s.node.reg .timeCfg) 0 4 ≠ p.val) →
        exec (.delayResp p k t4) s = s.next (s.node.crossCheck p.val ((a - b) / 2))))
  ∧ (∀ t, Does (.timeHoldEnd t) (fun n => n.mgt.timeHold.isSome = true ∧ n.mgt.timeNs ≤ t) fun n =>
    { n with mgt := { n.mgt with timeHold := none, timeValid := true } })

/-! ## Fabric memory (12 R365-R381) -/

/-- A packet that reaches this node: it came in by an UP port and is for this node, while the node serves (12 R365). -/
def Sys2Proof.Claims.Arrives (n : Node) (p : Packet) : Prop := (n.port p.port.val).state = 5 ∧ p.dst = n.dev.node ∧ n.dataUp = true

/-- A write or an atomic that this node takes at once: of a current incarnation, to no node port, behind none that waits for
the journal. -/
def Sys2Proof.Claims.Takes (n : Node) (p : Packet) : Prop :=
  Arrives n p ∧ n.stale p = false ∧ p.addr < 0xF00000000000 ∧ n.fabric.held = []

/-- A response ends the access of its request. -/
def Sys2Proof.Claims.Responds (c : Packet → Instr) (ptype : Nat) (f : Packet → Node → Nat → Access → Node) : Prop :=
  ∀ p r id a, DoesSettled (c p) (fun n => Arrives n p ∧ n.requestOf p ptype = some r ∧ failureOf p = 0 ∧ r.acc = some id
      ∧ (n.dropReq (reqKey p.cls p.tag)).acc id = some a) fun n =>
    ((f p (n.dropReq (reqKey p.cls p.tag)) id a).countStall a.owner a.addr a.issued).tagFreed

/-- 12 R365-R381: requests that arrive, responses, timeouts. -/
def Obligations.FabricMemoryResults : Prop :=
  (∀ p, DoesSettled (.rd p) (fun n => (n.port p.port.val).state = 5 ∧ p.dst ≠ n.dev.node) fun n => n.forward p)
  ∧ (∀ p o a b, DoesSettled (.rd p) (fun n => Arrives n p ∧ n.stale p = false ∧ p.addr < 0xF00000000000 ∧ n.admitReq p 1 false = .ok (o, a)
      ∧ (n.tierRead { owner := o, tile := 0, due := false } a p.len).1 = .ok b) fun n =>
    (n.tierRead { owner := o, tile := 0, due := false } a p.len).2.answer p 2 0 b false)
  ∧ (∀ p o a, DoesSettled (.wr p) (fun n => Takes n p ∧ n.admitReq p 2 true = .ok (o, a) ∧ n.storeRoom o a p.len = true) fun n =>
    ((n.storeAt o a p.data (allBytes p.data.length)).served o a n.clk 0).answer p 4 0 [] false)
  ∧ (∀ p o a, DoesSettled (.pwr p) (fun n => Takes n p ∧ n.admitReq p 4 true = .ok (o, a) ∧ n.storeRoom o a p.len = true) fun n =>
    ((n.storeAt o a p.data (allBytes p.data.length)).served o a n.clk 0).postedDone p)
  ∧ (∀ p o a, DoesSettled (.amoPacket p) (fun n => Takes n p ∧ n.admitReq { p with len := amoWidth p.status } 3 true = .ok (o, a)
      ∧ n.amoCode o a (amoWidth p.status) = 0 ∧ n.storeRoom o a 8 = true) fun n =>
    let r := n.amoAt o a p.status (getLe p.data 0 8) (getLe p.data 8 8)
    (r.2.answer p 8 0 (natLe 8 r.1) false).served o a n.clk 0)
  ∧ (∀ p o a, DoesSettled (.wr p) (fun n => Takes n p ∧ n.admitReq p 2 true = .ok (o, a) ∧ n.storeRoom o a p.len = false) fun n =>
    { n with fabric := { n.fabric with held := [{ p with ptype := 3 }] } })
  ∧ (∀ p, DoesSettled (.wr p) (fun n => Arrives n p ∧ n.stale p = false) fun n => n.serveNext { p with ptype := 3 })
  ∧ (∀ p, DoesSettled (.pwr p) (fun n => Arrives n p ∧ n.stale p = false) fun n => n.serveNext { p with ptype := 5 })
  ∧ (∀ p, DoesSettled (.amoPacket p) (fun n => Arrives n p ∧ n.stale p = false) fun n => n.serveNext { p with ptype := 7 })
  ∧ (∀ p x l, DoesSettled (.pwrAckTimer p) (fun n => n.acksFor p = x :: l ∧ x.since + 1000 ≤ n.clk) fun n => n.sendPwrAck p)
  ∧ Responds .rdRsp 1 (fun p n id a => if bitAt a.addr 63 then n.giveAccess id a p.data else n.poolRead id a p.data)
  ∧ Responds .wrRsp 3 (fun _ n id a => if bitAt a.addr 63 then n.storeDone id a else n.poolWritten id a)
  ∧ Responds .amoRsp 7 (fun p n id a => n.giveAccess id a (natLe (amoWidth a.fn) (getLe p.data 0 (amoWidth a.fn))))
  ∧ (∀ p, DoesSettled (.pwrAck p) (fun n => Arrives n p) fun n => (ackTags 16 p.data).foldl (fun n t => n.postedAck p.src t) n)
  ∧ (∀ p r id, DoesSettled (.faultNote p) (fun n => Arrives n p ∧ n.requestOf p 5 = some r ∧ r.acc = some id) fun n =>
    (((n.dropReq (reqKey p.cls p.tag)).ledger p.data 0 r).endAccess id).tagFreed)
  ∧ (∀ k r, DoesSettled (.targetTimeout k) (fun n => KList.find? n.fabric.reqs k = some r ∧ r.ptype ≠ 5 ∧ n.passed r.issued n.tgtUs = true) fun n =>
    (n.failReq k 0x0603 1).tagFreed)
  ∧ (∀ k r, DoesSettled (.postedWriteTimeout k) (fun n => KList.find? n.fabric.reqs k = some r ∧ r.ptype = 5 ∧ n.passed r.issued n.tgtUs = true) fun n =>
    (n.failReq k 0x0603 1).tagFreed)

/-- 12 R373, R375, R399, 13 R411: windows, jobs, routes. -/
def Obligations.FabricItemResults : Prop :=
  (∀ (q : Fin 8192) a i, let b := slice a.item.bytes 72 32
    DoesSettled (.windowCreate q) (fun n => n.mHead q.val 0x38 = some a ∧ (a.item.fwd = false ∨ n.lentHere (readWindow b) = false)
      ∧ windowOk b = true ∧ n.jobActive (readWindow b).job = true
      ∧ (∀ x ∈ n.fabric.windows, x.2.overlaps (readWindow b) = false) ∧ KList.firstFree n.fabric.windows 4096 0 = some i) fun n =>
    ({ n with fabric := { n.fabric with windows := KList.put n.fabric.windows i (readWindow b) } } : Node).doneM q.val a (done 0 i))
  ∧ (∀ (q : Fin 8192) a, let w := readWindow (slice a.item.bytes 72 32)
    DoesSettled (.windowCreate q) (fun n => n.mHead q.val 0x38 = some a ∧ a.item.fwd = true ∧ windowOk (slice a.item.bytes 72 32) = true
      ∧ n.lentHere w = true) fun n => (n.takeGrant a.item.src w.gbase w.len).doneM q.val a (done 0))
  ∧ (∀ (q : Fin 8192) a w, let i := a.item.arg 0 % 4096
    DoesSettled (.windowRemove q) (fun n => n.mHead q.val 0x39 = some a ∧ KList.find? n.fabric.windows i = some w) fun n =>
    ({ n with fabric := { n.fabric with windows := KList.del n.fabric.windows i } } : Node).doneM q.val a (done 0))
  ∧ (∀ (q : Fin 8192) a, let j := a.item.arg 0 % 65536
    DoesSettled (.jobStart q) (fun n => n.mHead q.val 0x3A = some a ∧ j ≠ 0 ∧ n.job j = none ∧ n.fabric.jobs.length < 1024) fun n =>
    (n.setJob j { owner := if bitAt (a.item.arg 1) 10 then sysOwner else a.item.arg 1 % 1024,
                  members := n.memberList (n.qcfg q.val).owner (a.item.arg 2) a.item.count, faulted := false, posted := 0, seen := 0,
                  unreported := [] }).doneM q.val a (done 0))
  ∧ (∀ (q : Fin 8192) a, let j := a.item.arg 0 % 65536
    DoesSettled (.jobStop q) (fun n => n.mHead q.val 0x3C = some a ∧ (n.job j).isSome = true) fun n =>
    ({ n.faultJob j with fabric := { (n.faultJob j).fabric with jobs := KList.del (n.faultJob j).fabric.jobs j } } : Node).doneM q.val a (done 0))
  ∧ (∀ (q : Fin 8192) a, DoesSettled (.routeSet q) (fun n => n.mHead q.val 0x40 = some a) fun n =>
    ({ n with fabric := { n.fabric with routes := KList.put n.fabric.routes (a.item.arg 0 % 32768) (a.item.arg 1) } } : Node).doneM q.val a (done 0))

/-! ## The peloton (12 R382-R401) -/

/-- A decision of a kind that is first in sequence and due: it is applied, and `f` follows (12 R386). -/
def Sys2Proof.Claims.Decides (c : Instr) (kind : DecisionKind) (f : Held → Node → Node) : Prop :=
  ∀ h l, DoesSettled c (fun n => n.pelOn = true ∧ n.peloton.pending = h :: l ∧ h.kind = kind ∧ h.te ≤ n.now) fun n => f h (n.popDecision h)

/-- An entry of the membership table changed. -/
def Sys2Proof.Claims.setMember (n : Node) (x : Nat) (m : Member) : Node :=
  { n with peloton := { n.peloton with members := KList.put n.peloton.members x m } }

/-- 12 R383-R390, Tables 12.7 and 12.9: heartbeats, votes, decisions, beacons, the fence. -/
def Obligations.PelotonResults : Prop :=
  (∀ x, DoesSettled (.heartbeatMiss x) (fun n => n.pelOn = true ∧ (∃ p ∈ n.portsTo x, p.state = 5) ∧ (n.member x).state ≠ 0 ∧ (n.member x).state ≠ 7
      ∧ n.peloton.reported.contains (x, (n.member x).incarn) = false ∧ n.lastBeat x + n.missN * n.hbUs * 1000 + 50000 ≤ n.clk) fun n =>
    let tf := n.now - (n.clk - (n.lastBeat x + n.hbUs * 1000))
    let inc := (n.member x).incarn
    n.council.foldl (fun m c => if c == m.dev.node then m.takeSuspect ⟨x, inc, m.dev.node, tf⟩ else m.tellPel c 2 [x, inc, m.dev.node, tf])
      { n with peloton := { n.peloton with reported := (x, inc) :: n.peloton.reported } })
  ∧ (∀ a b c d, DoesSettled (.suspect a b c d) (fun n => n.pelOn = true) fun n => (n.hear c).takeSuspect ⟨a, b, c, d⟩)
  ∧ (∀ a b c d k, DoesSettled (.vote a b c d k) (fun n => n.pelOn = true ∧ (n.hear a).leads = true) fun n =>
    (n.hear a).takeVote { member := a, subject := b, incarn := c, kind := k, tf := d })
  ∧ (∀ d, DoesSettled (.decide d) (fun n => n.pelOn = true ∧ (n.port d.port.val).state = 5 ∧ n.peloton.dseq ≤ d.dseq
      ∧ ∀ h ∈ n.peloton.pending, h.dseq ≠ d.dseq) fun n =>
    (n.holdDecision { dseq := d.dseq, kind := d.kind, subject := d.subject, incarn := d.incarn, te := d.te, arg := d.arg }).floodPel 4
      [d.dseq, kindCode d.kind, d.subject, d.incarn, d.te, d.arg] (some d.port.val))
  ∧ Does .heartbeatSend (fun n => n.pelOn = true ∧ n.peloton.lastHb + n.hbUs * 1000 ≤ n.clk) (fun n =>
    let b := pelFields [n.dev.node, n.peloton.incarn, n.peloton.state, n.dev.func] ++ natLe 16 n.digest
      ++ pelFields [n.neighbours.length, n.peloton.round, n.peloton.p50]
    let m := n.upPorts.foldl (fun k p => k.sendOn p (k.packet 10 (k.port p).nbr 0 0 2 0 (natLe 8 1 ++ b))) n
    { m with peloton := { m.peloton with lastHb := m.clk } })
  ∧ (∀ m, DoesSettled (.heartbeat m) (fun n => n.pelOn = true ∧ (n.port m.port.val).state = 5 ∧ n.oldMessage m.node m.incarn = false) fun n =>
    let n := (n.hear m.node).seeDigest m.port.val m.node m.digest
    let w : Watched := { node := m.node, last := n.clk, missed := 0, tf := none }
    ({ n with peloton := { n.peloton with
        members := KList.put n.peloton.members m.node { (n.member m.node) with nwatch := min 16 m.nwatch }
        watched := w :: n.peloton.watched.filter (fun y => y.node != m.node)
        reported := n.peloton.reported.filter fun y => y.1 != m.node } } : Node).report395 m)
  ∧ Does .beaconSend (fun n => n.pelOn = true ∧ n.leads = true ∧ n.nCouncil < 2 * (n.council.filter n.heardFrom).length
      ∧ n.peloton.lastBeaconSent + 250000 ≤ n.clk) (fun n =>
    let q := n.peloton.beaconSeq + 1
    ({ n with peloton := { n.peloton with
        beaconSeq := q, lastBeaconSent := n.clk, beaconAt := some n.clk, leader := some n.dev.node } } : Node).floodPel 5 [n.dev.node, q, n.peloton.dseq] none)
  ∧ (∀ l q d p, DoesSettled (.beacon l q d p) (fun n => n.pelOn = true ∧ (n.port p.val).state = 5 ∧ n.peloton.fenced = false
      ∧ (n.peloton.leader = some l → n.peloton.beaconSeq < q)) fun n =>
    let n := n.hear l
    ({ n with peloton := { n.peloton with
        leader := some l, beaconAt := some n.clk, beaconSeq := q, nextDseq := max n.peloton.nextDseq (d + 1) } } : Node).floodPel 5 [l, q, d] (some p.val))
  ∧ DoesSettled .fenceTimeout (fun n => n.pelOn = true ∧ n.peloton.fenced = false ∧ 4 ≤ n.peloton.state ∧ n.peloton.state ≤ 6
      ∧ n.peloton.beaconAt.getD 0 + 1500000 ≤ n.clk) (fun n =>
    let m := (n.fabric.jobs.map (·.1)).foldl Node.faultJob n
    { m with peloton := { m.peloton with fenced := true, state := 8 } })
  ∧ Decides .nodeFailedDecision .nodeFailed (fun h n =>
      if (n.member h.subject).incarn ≠ h.incarn then n
      else
        let m := setMember n h.subject { (n.member h.subject) with state := 7 }
        if h.subject = m.dev.node then m.requestReset 6 none else m.nodeFailed h.subject)
  ∧ Decides .joinDecision .join (fun h n =>
      let f := fld h.arg 1 2
      let st := if f = 3 ∧ bitAt h.arg 0 = true then 5 else 4
      let m := setMember n h.subject { (n.member h.subject) with state := st, incarn := h.incarn, func := f }
      if h.subject = m.dev.node then
        { m with qspi := { m.qspi with incarn := h.incarn },
                 peloton := { m.peloton with incarn := h.incarn, state := st, fenced := false, beaconAt := some m.clk } }
      else m)
  ∧ Decides .jobFaultDecision .jobFault (fun h n => n.faultJob h.subject)
  ∧ Decides .functionDecision .function (fun h n =>
      let m := setMember n h.subject { (n.member h.subject) with func := h.arg % 4 }
      if h.subject = m.dev.node then m.changeFunction (h.arg % 4) else m)
  ∧ (∀ x h l, DoesSettled (.absentDecision x) (fun n => n.pelOn = true ∧ n.peloton.pending = h :: l ∧ h.kind = .absent ∧ h.subject = x ∧ h.te ≤ n.now) fun n =>
    let n := n.popDecision h
    let m := setMember n x { (n.member x) with state := 0 }
    if x = n.dev.node then { m with peloton := { m.peloton with state := 0 } } else m)

/-- 12 R389-R397, 13 R411: requests to the leader, roles, copies. -/
def Obligations.MembershipRequestResults : Prop :=
  (∀ x i f sp, DoesSettled (.joinRequest x i f sp) (fun n => n.pelOn = true) fun n => n.askJoin x i f sp)
  ∧ (∀ j t, DoesSettled (.jobFaultRequest j t) (fun n => n.pelOn = true) fun n => n.ask (held .jobFault j 0 t 0))
  ∧ (∀ x f t l v, functionCode (f % 4) l v = 0 → DoesSettled (.functionRequest x f t l v) (fun n => n.pelOn = true) fun n =>
    n.ask (held .function x (n.member x).incarn t (f % 4)))
  ∧ (∀ x t, DoesSettled (.leaveRequest x t) (fun n => n.pelOn = true) fun n => n.ask (held .leaving x (n.member x).incarn t 0))
  ∧ (∀ x l r, DoesSettled (.swapOutRequest x l r) (fun n => n.pelOn = true ∧ n.leads = true ∧ n.swapCode x l r = 0) fun n => n.swapNode x)
  ∧ (∀ sh d, DoesSettled (.drainTimeout sh) (fun n => n.peloton.drains.find? (fun d => d.id == sh) = some d
      ∧ n.passed d.since (1000 * fld (n.reg .pelCfg) 22 10) = true) fun n =>
    let m := n.endCtxs (n.ctxsWhere fun _ c => c.pins.any fun p => p.2.shard == sh && ((n.genOf p.2.inst p.2.gen).map (·.draining)) == some true) 3
    { m with peloton := { m.peloton with drains := n.peloton.drains.filter (· != d) } })
  ∧ (∀ m, (∀ sh g p, m ≠ .copySealed sh g p) → (∀ sh g, m ≠ .commit sh g) → DoesSettled (.shardStream m) (fun n => n.sealUp = true) fun n => n.shardMsg m)
  ∧ (∀ sh g p, DoesSettled (.shardStream (.copySealed sh g p)) (fun n => n.sealUp = true) fun n => (n.shardMsg (.copySealed sh g p)).receiverDone sh g)
  ∧ (∀ sh g, DoesSettled (.shardStream (.commit sh g)) (fun n => n.sealUp = true) fun n => (n.shardMsg (.commit sh g)).receiverDone sh g)
  ∧ (∀ sh part b x p, DoesSettled (.shardStream (.append sh part (x.nextOrd part) b)) (fun n => n.sealUp = true ∧ n.shard sh = some x
      ∧ n.follows sh = some p ∧ n.appendRoom x = true) fun n =>
    (n.pushEntry x part b).emit (.shard p (.held sh part (x.nextOrd part + 1) n.dev.node)))
  ∧ (∀ (q : Fin 8192) a, let v := a.item.arg 1
    let sb := if bitAt v 31 then some (fld v 16 15) else none
    sb ≠ some (fld v 0 15) → DoesSettled (.shardPair q) (fun n => n.mHead q.val 0x3D = some a) fun n =>
      (n.pairShard (shardOfKey (fld (a.item.arg 0) 28 10) (a.item.arg 0)) (fld v 0 15) sb).doneM q.val a (done 0))
  ∧ (∀ (q : Fin 8192) a, let o := fld (a.item.arg 0) 27 10
    let first := a.item.arg 0 % 2 ^ 27
    let k := a.item.count
    DoesSettled (.replSet q) (fun n => n.mHead q.val 0x3E = some a) fun n =>
      let l := ((List.range 8).map fun i => n.readLe (n.qcfg q.val).owner (a.item.arg 2 + 4 * i) 4).filter fun e => bitAt e 31
      let r : Repl := { owner := o, first := first, count := k, primary := a.item.arg 1 % 32768, replicas := l.map (· % 32768), seq := 0 }
      let old := n.peloton.repls.filter fun x => !(x.owner == o && decide (x.first < first + k) && decide (first < x.first + x.count))
      ({ n with peloton := { n.peloton with repls := r :: old }
                mem := { n.mem with replicas := n.mem.replicas.filter fun x => !(x.owner == o && decide (first ≤ x.region ∧ x.region < first + k)) } }
        : Node).doneM q.val a (done 0))
  ∧ (∀ (q : Fin 8192) a, a.item.arg 0 = 1 → DoesSettled (.pelRequestJoin q) (fun n => n.mHead q.val 0x3F = some a ∧ n.pelOn = true ∧ n.leads = true) fun n =>
    let x := a.item.arg 1 % 32768
    (n.askJoin x (if x = n.dev.node then n.peloton.incarn else ((n.member x).incarn + 1) % 65536) (a.item.arg 2 % 4)
      (decide (x = n.dev.node) && bitAt (n.reg .pelCfg) 7)).doneM q.val a (done 0))
  ∧ (∀ (q : Fin 8192) a, let x := a.item.arg 1 % 32768
    a.item.arg 0 = 3 → DoesSettled (.pelRequestFunction q) (fun n => n.mHead q.val 0x3F = some a ∧ n.pelOn = true ∧ n.leads = true
      ∧ functionCode (a.item.arg 2 % 4) (n.lendsAny x) (n.servesAny x) = 0) fun n =>
    (n.ask (held .function x (n.member x).incarn (a.item.arg 3) (a.item.arg 2 % 4))).doneM q.val a (done 0))
  ∧ (∀ (q : Fin 8192) a, let x := a.item.arg 1 % 32768
    a.item.arg 0 = 4 → DoesSettled (.pelRequestLeave q) (fun n => n.mHead q.val 0x3F = some a ∧ n.pelOn = true ∧ n.leads = true) fun n =>
    (n.ask (held .leaving x (n.member x).incarn (a.item.arg 3) 0)).doneM q.val a (done 0))
  ∧ (∀ (q : Fin 8192) a, let x := a.item.arg 1 % 32768
    a.item.arg 0 = 5 → DoesSettled (.pelRequestSwapOut q) (fun n => n.mHead q.val 0x3F = some a ∧ n.pelOn = true ∧ n.leads = true
      ∧ n.swapCode x (n.lendsAny x) (n.peloton.repls.any fun r => r.primary == x) = 0) fun n => (n.swapNode x).doneM q.val a (done 0))
  ∧ (∀ (q : Fin 8192) a, let j := a.item.arg 0 % 65536
    DoesSettled (.jobFault q) (fun n => n.mHead q.val 0x3B = some a ∧ (n.job j).isSome = true ∧ n.pelOn = false) fun n => (n.faultJob j).doneM q.val a (done 0))
  ∧ (∀ (q : Fin 8192) a, let j := a.item.arg 0 % 65536
    DoesSettled (.jobFault q) (fun n => n.mHead q.val 0x3B = some a ∧ (n.job j).isSome = true ∧ n.pelOn = true ∧ n.leads = true) fun n =>
    (n.ask (held .jobFault j 0 0 0)).doneM q.val a (done 0))

/-! ## Tenancy and trust (14) -/

/-- A request on a channel that is there, at a tenant that is there, in the order of negotiation (14 R434, R450). -/
def Sys2Proof.Claims.Requests (c : Instr) (ch : Chan) (need : SpdmConn → Bool) (due : Node → Prop) (f : Node → Node) : Prop :=
  DoesSettled c (fun n => n.chanUp ch = true ∧ (∀ t, ch = .vfDoe t → (n.ten t.val).valid = true) ∧ need (n.conn ch) = true ∧ due n) f

/-- A message of a session. -/
def Sys2Proof.Claims.InSession (c : Instr) (i : Nat) (est : Bool) (f : Node → Session → Node) : Prop :=
  ∀ x, DoesSettled c (fun n => n.session i = some x ∧ x.established = est ∧ n.chanUp x.chan = true) fun n => f n x

/-- 14 R450-R453, R456: SPDM. -/
def Obligations.SpdmResults : Prop :=
  (∀ ch, Requests (.getVersion ch) ch (fun _ => true) (fun _ => True) fun n =>
    (n.setConn { noConn ch with version := true }).spdmReply ch 0x04 (natLe 2 0x1200 ++ natLe 2 0x1300))
  ∧ (∀ ch, Requests (.getCapabilities ch) ch (·.version) (fun _ => True) fun n => (n.setConn { (n.conn ch) with caps := true }).spdmFree ch 0x61 16)
  ∧ (∀ ch, Requests (.negotiateAlgorithms ch true) ch (·.caps) (fun _ => True) fun n => (n.setConn { (n.conn ch) with algs := true }).spdmFree ch 0x63 32)
  ∧ (∀ ch, Requests (.getDigests ch) ch (·.algs) (fun n => n.sec.slot1 ≠ []) fun n =>
    (n.freeData 48).2.spdmReply ch 0x01 ((n.freeData 48).1 ++ Sha.sha384 n.sec.slot1))
  ∧ (∀ ch o l, Requests (.getCertificate ch 0 o l) ch (·.algs) (fun _ => True) fun n => n.spdmFree ch 0x02 (min l 1024))
  ∧ (∀ ch o l, Requests (.getCertificate ch 1 o l) ch (·.algs) (fun n => o < n.sec.slot1.length) fun n =>
    n.spdmReply ch 0x02 ((n.sec.slot1.drop o).take l))
  ∧ (∀ ch i k, i ≤ 1 → Requests (.challenge ch i k) ch (·.algs) (fun _ => True) fun n => n.spdmFree ch 0x03 176)
  ∧ (∀ ch i k, Requests (.getMeasurements ch i k) ch (·.algs) (fun n => (n.blocksOf ch).contains i = true) fun n =>
    let tid := match ch with
      | .vfDoe t => t.val
      | _ => 0
    (n.freeData 96).2.spdmReply ch 0x60 ((natLe 1 i ++ n.measureBlock i tid) ++ (n.freeData 96).1))
  ∧ (∀ ch k, Requests (.getMeasurements ch 0xFF k) ch (·.algs) (fun _ => True) fun n =>
    let tid := match ch with
      | .vfDoe t => t.val
      | _ => 0
    (n.freeData 96).2.spdmReply ch 0x60 (((n.blocksOf ch).flatMap fun i => natLe 1 i ++ n.measureBlock i tid) ++ (n.freeData 96).1))
  ∧ (∀ ch (i : Nat), Requests (.keyExchange ch none) ch (·.algs) (fun n => KList.firstFree n.sec.sessions 8 0 = some i) fun n =>
    let x : Session := { chan := ch, role := none, subject := 0, established := false, lastBeat := n.clk, keyGen := 0 }
    ({ n with sec := { n.sec with sessions := KList.put n.sec.sessions i x } } : Node).spdmFree ch 0x64 256)
  ∧ (∀ ch (i : Nat) cert, Requests (.keyExchange ch (some cert)) ch (·.algs) (fun n => KList.firstFree n.sec.sessions 8 0 = some i ∧ certOk cert n.now = true)
    fun n =>
    let x : Session := { chan := ch, role := cert.role, subject := cert.subject, established := false, lastBeat := n.clk, keyGen := 0 }
    ({ n with sec := { n.sec with sessions := KList.put n.sec.sessions i x } } : Node).spdmFree ch 0x64 256)
  ∧ (∀ i, InSession (.finish i true) i false fun n x => (n.setSession i { x with established := true, lastBeat := n.clk }).spdmReply x.chan 0x65 [])
  ∧ (∀ i, InSession (.spdmHeartbeat i) i true fun n x => (n.setSession i { x with lastBeat := n.clk }).spdmReply x.chan 0x68 [])
  ∧ (∀ i x, Does (.spdmHeartbeatTimeout i) (fun n => n.session i = some x ∧ x.lastBeat + 10000000000 ≤ n.clk) fun n => n.dropSession i)
  ∧ (∀ i, InSession (.keyUpdate i) i true fun n x => (n.setSession i { x with keyGen := x.keyGen + 1 }).spdmReply x.chan 0x69 [])
  ∧ (∀ i, InSession (.endSession i) i true fun n x => (n.dropSession i).spdmReply x.chan 0x6C [])
  ∧ (∀ ch, Requests (.getCsr ch) ch (·.algs) (fun _ => True) fun n => n.spdmFree ch 0x6D 256)
  ∧ (∀ i chain x, DoesSettled (.setCertificate i 1 chain) (fun n => n.session i = some x ∧ x.established = true ∧ n.chanUp x.chan = true
      ∧ x.role = some .installer ∧ n.auditOk = true) fun n =>
    let m := n.audit (spdmAct x.chan 2 0xEE x.subject 1 (Sha.sha384 chain)) 0
    ({ m with sec := { m.sec with slot1 := chain } } : Node).spdmReply x.chan 0x6E [])
  ∧ (∀ ch k b, Requests (.chunkSend ch k b true) ch (·.algs) (fun n => k = if (n.conn ch).request.isEmpty then 0 else (n.conn ch).nextChunk) fun n =>
    (n.setConn { (n.conn ch) with request := [], nextChunk := 0 }).emit (.spdm ch 0x05 (natLe 2 k)))
  ∧ (∀ ch k b, Requests (.chunkSend ch k b false) ch (·.algs) (fun n => k = if (n.conn ch).request.isEmpty then 0 else (n.conn ch).nextChunk) fun n =>
    (n.setConn { (n.conn ch) with request := (n.conn ch).request ++ b, nextChunk := k + 1 }).emit (.spdm ch 0x05 (natLe 2 k)))
  ∧ (∀ ch k, Requests (.chunkGet ch k) ch (·.algs) (fun n => k * Config.chunkSize < (n.conn ch).response.length) fun n =>
    n.emit (.spdm ch 0x06 (natLe 2 k ++ ((n.conn ch).response.drop (k * Config.chunkSize)).take Config.chunkSize)))

/-- A vendor operation that its session may do: audited first, then done (14 R462, R463). -/
def Sys2Proof.Claims.Performs (c : Instr) (i : Nat) (may : Session → Prop) (act : Node → Session → AuditAct) (due : Node → Session → Prop)
    (f : Node → Session → Node) : Prop :=
  ∀ x, DoesSettled c (fun n => n.session i = some x ∧ x.established = true ∧ n.chanUp x.chan = true ∧ may x ∧ n.auditOk = true ∧ due n x) fun n =>
    (f (n.audit (act n x) 0) x).emit (.vendor i 0)

/-- 14 R435-R445, R457-R461, R466: tenants, keys, anchors, tokens. -/
def Obligations.VendorOperationResults : Prop :=
  (∀ (t : Fin 1024) u, DoesSettled (.tenantDestroyComplete t) (fun n => KList.find? n.sec.destroying t.val = some u ∧ (∀ c ∈ n.spokes.ctxs, c.2.owner ≠ t.val)
      ∧ n.ownSlots t.val = [] ∧ KList.getD n.mem.regions t.val [] = []) fun n =>
    let m := n.zeroKey t.val
    { m with sec := { m.sec with destroying := KList.del m.sec.destroying t.val }
             mem := { m.mem with unmaps := m.mem.unmaps.filter fun u => u.owner != t.val || u.regions != [] }
             index := { m.index with objs := m.index.objs.filter (fun o => o.owner != t.val), objRegions := m.index.objRegions.filter fun p => p.1 != t.val } })
  ∧ (∀ k, Does (.keyParityError k true) (fun n => (n.kslot k.val).state ≠ 0) fun n => n.setKslot k.val { (n.kslot k.val) with state := 2, copies := 0 })
  ∧ (∀ k, Does (.keyParityError k false) (fun n => (n.kslot k.val).state = 1) fun n =>
    n.logEvent { code := 7, unit := 0, tid := 2048, all := false, count := 1, detail := natLe 2 k.val })
  ∧ (∀ i kp (t : Fin 1024) key, let k := key % 2 ^ 256
    Performs (.setTenantKey i kp t key) i (fun x => x.role = some .operator ∧ ∀ v, x.chan ≠ .vfDoe v)
      (fun _ x => spdmAct x.chan 1 1 x.subject t.val (natLe 8 (keyIdOf k))) (fun n _ => n.keyLoadCode t.val k = 0) fun n _ =>
      let m := n.setKslot t.val { state := 1, key := k, keyId := keyIdOf k, copies := 3 }
      let m := m.setTen t.val { (m.ten t.val) with kpersist := kp, ksrc := true }
      let ps := if kp then KList.put m.sec.persisted t.val { key := k, measure := m.dev.measure2 } else KList.del m.sec.persisted t.val
      { m with sec := { m.sec with persisted := ps } })
  ∧ (∀ i (t : Fin 1024), Performs (.setConsent i true) i (fun x => x.chan = .vfDoe t) (fun _ x => spdmAct x.chan 4 2 t.val t.val (natLe 1 1))
      (fun n _ => (n.ten t.val).valid = true) fun n _ => n.setTen t.val { (n.ten t.val) with consent := true })
  ∧ (∀ i (t : Fin 1024), Performs (.setConsent i false) i (fun x => x.chan = .vfDoe t) (fun _ x => spdmAct x.chan 4 2 t.val t.val (natLe 1 0))
      (fun n _ => (n.ten t.val).valid = true) fun n _ => (n.setTen t.val { (n.ten t.val) with consent := false }).resume fun k =>
        (n.setTen t.val { (n.ten t.val) with consent := false }).ownerOfThr k == some t.val)
  ∧ (∀ i o w x, DoesSettled (.regRead i o w) (fun n => n.session i = some x ∧ x.established = true ∧ x.chan = .mctp ∧ x.role.isSome = true) fun n =>
    (n.readReg (.mctp i) o w).emit (.vendor i 0))
  ∧ (∀ i o w v x, DoesSettled (.regWrite i o w v) (fun n => n.session i = some x ∧ x.established = true ∧ x.chan = .mctp ∧ x.role.isSome = true) fun n =>
    (n.writeReg (.mctp i) o w v false).dropDisabled.emit (.vendor i 0))
  ∧ (∀ i d x, Does (.setAnchor (some i) d true) (fun n => n.session i = some x ∧ x.established = true ∧ x.role = some .installer ∧ n.fuses.anchors ≠ []
      ∧ n.fuses.anchors.length < 4 ∧ n.auditOk = true) fun n =>
    let m := n.audit (spdmAct x.chan 2 5 x.subject n.fuses.anchors.length (natLe 32 d)) 0
    ({ m with fuses := { m.fuses with anchors := m.fuses.anchors ++ [d % 2 ^ 384] } } : Node).emit (.vendor i 0))
  ∧ (∀ i tok, Performs (.debugToken i tok) i (fun x => x.role = some .installer) (fun _ x => spdmAct x.chan 2 6 x.subject 0 (natLe 8 tok.expiry))
      (fun n _ => tok.serialOk = true ∧ tok.sigOk = true ∧ tok.challenge = n.sec.challenge ∧ n.now < tok.expiry) fun n _ =>
      { n.free.2 with sec := { n.free.2.sec with token := some { expiry := tok.expiry }, challenge := n.free.1 % 2 ^ 128 } })
  ∧ (∀ t, Does .debugTokenExpiry (fun n => n.sec.token = some t ∧ t.expiry ≤ n.now) fun n => { n with sec := { n.sec with token := none } })
  ∧ (∀ i tok, Performs (.makerToken i tok) i (fun x => x.role = some .maker) (fun _ x => spdmAct x.chan 3 7 x.subject 0 [])
      (fun n _ => tok.serialOk = true ∧ tok.sigOk = true ∧ n.dev.strap = 12) fun n _ =>
      { n with sec := { n.sec with kslots := [], persisted := [] }
               fuses := { n.fuses with rma := true }
               dev := { n.dev with unlocked := true } })

/-- 17 R553, R554, 14 R458-R461: JTAG. -/
def Obligations.JtagResults : Prop :=
  (∀ l, Does (.bypass l) (fun _ => True) fun n =>
    ({ n with hif := { n.hif with jtagIr := 1 } } : Node).emit (.jtag (((false :: l).take l.length).foldr (fun b a => b2n b + 2 * a) 0)))
  ∧ Does .idcode (fun _ => True) (fun n => ({ n with hif := { n.hif with jtagIr := 2 } } : Node).emit (.jtag 0x10E039E7))
  ∧ (∀ p, Does (.samplePreload p) (fun n => n.sec.token.isSome = true ∧ n.heldL2 = true) fun n => ({ n with hif := { n.hif with jtagIr := 3 } } : Node).jtagData)
  ∧ (∀ p, Does (.extest p) (fun n => n.sec.token.isSome = true ∧ n.heldL2 = true) fun n =>
    (({ n with hif := { n.hif with jtagIr := 4 } } : Node).emit (.pin 255 (bitAt p 0))).jtagData)
  ∧ (∀ c, Does (.jtagSystemDebug c) (fun n => 1 ≤ n.fuses.dbgPol ∧ n.sec.token.isSome = true) fun n => n.jtagData)
  ∧ (∀ c (t : Fin 1024) th h, Does (.jtagTenantDebug c t th h) (fun n => 2 ≤ n.fuses.dbgPol ∧ n.sec.token.isSome = true ∧ (n.ten t.val).consent = true
      ∧ n.ownerOfThr (thrNo th) = some t.val ∧ (n.thread (thrNo th)).isSome = true) fun n =>
    if h then ({ n with sec := { n.sec with halted := thrNo th :: n.sec.halted.filter (· != thrNo th) } } : Node).jtagData
    else (n.resume fun j => j == thrNo th).jtagData)
  ∧ (∀ c, Does (.jtagMakerTest c) (fun n => n.fuses.dbgPol = 3 ∧ n.dev.unlocked = true) fun n => n.jtagData)

/-! ## Power, clocks, power failure (15) -/

/-- 15 R471-R478: power, rails, clocks, temperature. -/
def Obligations.PowerResults : Prop :=
  (∀ (s : State) (t : Fin 8) (mw w : Nat),
    let lim := 1000 * fld (s.node.reg .tpwrLim) 0 8
    let n : Node := { s.node with power := { s.node.power with nodeW := min 1023 w } }
    let hi := if lim < mw then n.power.overCnt.getD t.val 0 + 1 else 0
    let room := if mw + 7030 ≤ lim then n.power.roomCnt.getD t.val 0 + 1 else 0
    let p : Power := { n.power with overCnt := setCount n.power.overCnt t.val (if hi = 4 then 0 else hi),
                                    roomCnt := setCount n.power.roomCnt t.val (if room = 100 then 0 else room) }
    let m : Node := { n with power := p }
    (s.node.fixedSlot = true → exec (.tilePowerEstimate t mw w) s = s.next n)
    ∧ (s.node.fixedSlot = false → hi < 4 → room < 100 → exec (.tilePowerEstimate t mw w) s = s.next m)
    ∧ (s.node.fixedSlot = false → hi = 4 → exec (.tilePowerEstimate t mw w) s = s.next (m.withdraw t.val false))
    ∧ (s.node.fixedSlot = false → hi = 0 → room = 100 → exec (.tilePowerEstimate t mw w) s = s.next (m.giveBack m.powerWd t.val)))
  ∧ (∀ r mv, (100 * mv < 95 * railNominal.getD r.val 0 ∨ 105 * railNominal.getD r.val 0 < 100 * mv) →
    Does (.railFault r mv false) (fun _ => True) fun n => n.railFault r.val)
  ∧ (∀ r mv, Does (.railFault r mv true) (fun _ => True) fun n => n.railFault r.val)
  ∧ (∀ l, Does (.pmbusStatusPoll l) (fun _ => True) fun n => (l.filter fun r => decide (1 ≤ r ∧ r < 17)).foldl Node.railFault n)
  ∧ (∀ mv ma dc, Does (.pmbusTelemetryPoll mv ma dc) (fun _ => True) fun n => (n.setSensors 32 (mv.take 17)).setSensors 64 (ma.take 17))
  ∧ (∀ h, Does (.hubFreewheel h) (fun n => n.threadsOf h.val = [] ∧ n.passed (KList.getD n.power.idleSince h.val 0) (fld (n.reg .clkCfg) 0 16) = true)
    fun n => n.setFreewheel h.val true)
  ∧ (∀ t, Does (.pllPowerDown t) (fun n => fld n.power.freewheel (4 * t.val) 4 = 15 ∧ (n.tile t.val).queue = [] ∧ (n.tile t.val).batch = none
      ∧ bitAt n.power.pllOn t.val = true ∧ (∀ j, j < 4 → n.passed (KList.getD n.power.idleSince (4 * t.val + j) 0) (1000 * fld (n.reg .clkCfg) 16 16) = true)
      ∧ n.passed (KList.getD n.power.idleSince (32 + t.val) 0) (1000 * fld (n.reg .clkCfg) 16 16) = true) fun n =>
    { n with power := { n.power with pllOn := n.power.pllOn - 2 ^ t.val } })
  ∧ (∀ t, Does (.pllRelock t) (fun n => bitAt n.power.pllOn t.val = false ∧ ((∃ j, j < 4 ∧ n.threadsOf (4 * t.val + j) ≠ []) ∨ (n.tile t.val).queue ≠ []))
    fun n => { n with power := { n.power with pllOn := n.power.pllOn + 2 ^ t.val } })
  ∧ (∀ (s : State) (d h : List Nat),
    let n := (s.node.setSensors 1 (d.take 11)).setSensors 12 (h.take 8)
    let thr := fld (n.reg .therm) 0 8
    let trip := fld (n.reg .therm) 8 8
    ((∃ x ∈ d, thr ≤ x) → (∀ x ∈ d, x < trip) → (∃ x ∈ d, trip ≤ x + 10) → exec (.thermalSample d h) s = s.next n.engage)
    ∧ ((∃ x ∈ d, thr ≤ x) → (∃ x ∈ d, trip ≤ x) → n.engage.mgt.thermTripN = true →
      exec (.thermalSample d h) s = s.next (({ n.engage with mgt := { n.engage.mgt with thermTripN := false } } : Node).requestReset 7 none))
    ∧ ((∀ x ∈ d, x + 5 < thr) → (∀ x ∈ h, x < 90) → (∀ x ∈ d, x + 10 < trip) → exec (.thermalSample d h) s = s.next
      { n with power := { n.power with coolSince := some (n.power.coolSince.getD n.clk) }, mgt := { n.mgt with thermTripN := true } }))
  ∧ Does .throttleWithdraw (fun n => n.power.throttle = true ∧ n.passed n.power.throttleStep 1000 = true) (fun n =>
    let m := (List.range 8).foldl (fun n t => n.withdraw t true) n
    { m with power := { m.power with throttleStep := m.clk } })
  ∧ (∀ t, Does .throttleRelease (fun n => n.power.coolSince = some t ∧ n.power.throttle = true ∧ t + 10000000 ≤ n.clk) fun n =>
    ((({ n with power := { n.power with throttle := false, throttleStep := n.clk } } : Node).logUnit 0x0803).service).seeNode)
  ∧ Does .throttleReturn (fun n => n.power.throttle = false ∧ n.passed n.power.throttleStep 10000 = true) (fun n =>
    let m := (List.range 8).foldl (fun n t => n.giveBack n.power.thermWd t) n
    { m with power := { m.power with throttleStep := m.clk } })

/-- 15 R480-R483, 10 R327-R332: a power failure. -/
def Obligations.PowerFailureResults : Prop :=
  (∀ dv ns, 2000 ≤ ns → Does (.pfSenseTrip dv ns) (fun n => n.mgt.pfPhase = .idle ∧ dv < fld (n.reg .pfCfg) 0 8) fun n =>
    let m : Node := { n with mgt := { n.mgt with pfPhase := .tripped, pfActive := true, pfSince := n.clk, nodeBusyN := false, incomplete := false } }
    { m.seeNode with dev := { m.dev with pfLogged := true } })
  ∧ Does .pfFreeze (fun n => n.mgt.pfPhase = .tripped ∧ n.mgt.pfSince + 3000 ≤ n.clk) (fun n => n.setPf .frozen)
  ∧ Does .pfPowerGate (fun n => n.mgt.pfPhase = .frozen ∧ n.mgt.pfSince + 8000 ≤ n.clk) (fun n =>
    { n with links := { n.links with ports := [] }, hif := { n.hif with linkUp := false }, power := { n.power with pllOn := 0 } })
  ∧ Does .journalSave (fun n => n.mgt.pfPhase = .frozen ∧ n.mgt.pfSince + 18000 ≤ n.clk) (fun n =>
    let m := n.writeSave false
    { m.setPf .saving with flash := { m.flash with state := if m.flash.popOk then 5 else m.flash.state } })
  ∧ Does .journalSaveComplete (fun n => n.mgt.pfPhase = .saving) (fun n =>
    let us := (n.clk - n.mgt.pfSince) / 1000
    let m := n.endHeader.countSave us true
    { m with mgt := { m.mgt with pfPhase := .done, pfActive := false, saves := (m.mgt.saves + 1) % 2 ^ 32, saveUs := us % 65536 } })
  ∧ (∀ dv, dv < 90 → Does (.busUndervoltage dv) (fun n => n.mgt.pfPhase ≠ .idle ∧ n.mgt.pfPhase ≠ .done) fun n =>
    let us := (n.clk - n.mgt.pfSince) / 1000
    let m := n.countSave us false
    { m with mgt := { m.mgt with pfPhase := .done, pfActive := false, incomplete := true, saves := (m.mgt.saves + 1) % 2 ^ 32, saveUs := us % 65536 } })
  ∧ (∀ dv ms, 10 ≤ ms → Does (.busRecovery dv ms) (fun n => n.mgt.pfPhase = .done ∧ fld (n.reg .pfCfg) 0 8 + 4 < dv) fun n =>
    ({ n with mgt := { n.mgt with pfPhase := .idle, waitReset := none, resets := [] } } : Node).requestLevel 0 0 1)

/-! ## Resets and the start (15 R484-R499) -/

/-- 15 R484-R499: sources, levels, and the start of the node. -/
def Obligations.ResetResults : Prop :=
  Does .powerOn (fun _ => True) (fun n => ({ n with mgt := { n.mgt with saves := 0 } } : Node).requestReset 0 none)
  ∧ Does .brownOut (fun n => n.mgt.pfPhase = .idle) (fun n => n.requestReset 1 none)
  ∧ (∀ us, 10 ≤ us → Does (.nodeRstN us) (fun _ => True) fun n => n.requestReset 2 none)
  ∧ DoesSettled .perstN (fun _ => True) (fun n => n.pcieReset.requestReset 3 none)
  ∧ DoesSettled .pcieHotReset (fun _ => True) (fun n => n.pcieReset.requestReset 4 none)
  ∧ DoesSettled .pcieLinkDown (fun _ => True) (fun n =>
    let m := (n.lapseAll (n.localClients none)).endSessions fun x => x.role.isSome || x.chan != .mctp
    { m with hif := { m.hif with linkUp := false } })
  ∧ Does .managementWatchdog (fun _ => True) (fun n => n.startBroken.requestReset 5 none)
  ∧ (∀ h ms, 100 ≤ ms → Does (.tileWatchdog h ms) (fun _ => True) fun n => n.requestReset 12 (some (h.val / 4)))
  ∧ (∀ t r, Does (.resetL3 t) (fun n => n.mgt.pfPhase = .idle ∧ n.dueReset 3 (some t.val) = some r) fun n => (n.begun r).l3 r.tile)
  ∧ (∀ r, Does .resetL2 (fun n => n.mgt.pfPhase = .idle ∧ n.dueReset 2 none = some r) fun n => (n.begun r).l2)
  ∧ (∀ r, Does .resetL1 (fun n => n.mgt.pfPhase = .idle ∧ n.dueReset 1 none = some r) fun n =>
    (if n.hif.linkUp then (n.begun r).emit (.aer 0 5) else n.begun r).l1)
  ∧ (∀ r, Does .resetL0 (fun n => n.mgt.pfPhase = .idle ∧ n.dueReset 0 none = some r) fun n =>
    (if n.hif.linkUp then (n.begun r).emit (.aer 0 5) else n.begun r).l0 r.source)
  ∧ (∀ t l r, Does (.resetComplete 2 t l) (fun n => n.mgt.resets.find? (fun r => r.begun && r.level == 2) = some r) fun n =>
    (List.range 8).foldl (fun n t => n.reloadTile l t) { n with mgt := { n.mgt with resets := n.mgt.resets.filter (· != r) } })
  ∧ (∀ t l r, Does (.resetComplete 3 t l) (fun n => n.mgt.resets.find? (fun r => r.begun && r.level == 3 && r.tile == t.val) = some r) fun n =>
    ({ n with mgt := { n.mgt with resets := n.mgt.resets.filter (· != r) } } : Node).reloadTile l t.val)
  ∧ (∀ (s : State) (i : StartInfo), (∃ r ∈ s.node.mgt.resets, r.begun = true ∧ r.level ≤ 1) → s.node.dev.starting = none →
    (3 ≤ s.node.qspi.fails → exec (.nodeStart i) s = s.next (s.node.readStrap i.adc).enterPewter)
    ∧ (s.node.qspi.fails < 3 → (s.node.readStrap i.adc).dev.strap = 14 → exec (.nodeStart i) s = s.next (s.node.readStrap i.adc).enterPewter)
    ∧ (s.node.qspi.fails < 3 → (s.node.readStrap i.adc).dev.strap ≠ 14 → i.railsOk = true →
      let n := s.node.readStrap i.adc
      let n : Node := { n with qspi := { n.qspi with fails := min 3 (n.qspi.fails + 1) }, dev := { n.dev with starting := some n.clk } }
      let want := strapSlotB n.dev.strap
      let okWant := if want then i.slotBOk else i.slotAOk
      let okOther := if want then i.slotAOk else i.slotBOk
      let d : Dev := { n.dev with slot := b2n (want == okWant), slotFallback := !okWant, measure1 := i.measure1, measure2 := i.measure2,
                                  measure3 := i.measure3, func := n.dev.func0 }
      let m := ({ n with
        dev := d
        spokes := { n.spokes with progs := i.progs.foldl (fun m p => KList.put m p.1 p.2) [], istore := i.words.foldl (fun m p => KList.put m p.1 p.2) [] }
        : Node }).enableRails
      let m : Node := { m with power := { m.power with railGood := 2 ^ 17 - 1, pllOn := 0xFF } }
      (okWant = true ∨ okOther = true) → ∀ k, m.configure i.cfgBlock i.cfgSigOk = some k →
      let k := (((k.startTests i.badChannels i.badSpokes i.badCassettes).checkPop i.pop).replayJournal i.journalOk).restoreKeys i.wrapOk
      let k := if k.dev.pfLogged then ({ k with dev := { k.dev with pfLogged := false } } : Node).logUnit 0x0802 (11 * 2 ^ 28) else k
      exec (.nodeStart i) s = s.next ({ k.free.2 with
        sec := { k.free.2.sec with challenge := k.free.1 % 2 ^ 128 }, dev := { k.free.2.dev with coldStart := false } } : Node).rejoin))
  ∧ (∀ t, DoesSettled .nodeReady (fun n => n.dev.starting = some t) fun n =>
    let m : Node := { n with
      dev := { n.dev with ready := true, starting := none }
      qspi := { n.qspi with fails := 0 }
      mgt := { n.mgt with resets := n.mgt.resets.filter (fun r => decide (2 ≤ r.level)), nodeBusyN := true } }
    ((m.sec.destroying.map (·.1)).foldl Node.destroySteps m).seeNode)
  ∧ (∀ t, Does .startTimeout (fun n => n.dev.starting = some t ∧ t + 2000000000 ≤ n.clk) fun n => n.startFails)

/-! ## Detection, logs, snapshots (16) -/

/-- 16 R505-R525: known-answer tests, ECC, lockstep, clocks, counter snapshots. -/
def Obligations.DetectionResults : Prop :=
  (∀ h p, Does (.spokeKat h p true) (fun n => bitAt (n.spokeRet h.val) p.val = false) fun n =>
    { n with spokes := { n.spokes with katAt := KList.put n.spokes.katAt (64 * h.val + p.val) (n.now - ceilDiv (10 * 20000) 11) } })
  ∧ (∀ h p, DoesSettled (.spokeKat h p false) (fun n => bitAt (n.spokeRet h.val) p.val = false) fun n => n.spokeFailed h.val p.val)
  ∧ (∀ t, Does (.cassetteKat t true) (fun n => bitAt n.power.tileRet t.val = false ∧ (n.tile t.val).batch = none) fun n =>
    { n with cas := { n.cas with tiles := KList.put n.cas.tiles t.val { (n.tile t.val) with katAt := n.now - ceilDiv (10 * 2000) 11 } } })
  ∧ (∀ t, DoesSettled (.cassetteKat t false) (fun n => bitAt n.power.tileRet t.val = false ∧ (n.tile t.val).batch = none) fun n => n.cassetteFailed t.val)
  ∧ Does (.eccError .corrected) (fun _ => True) (fun n => { n with log := { n.log with ecc := n.log.ecc + 1 } })
  ∧ (∀ o a, DoesSettled (.eccError (.memory o a)) (fun _ => True) fun n => n.dataError o a)
  ∧ (∀ h, DoesSettled (.eccError (.hubStore h)) (fun _ => True) fun n => ((n.logUnit 0x0501 (2 * 2 ^ 28 + h.val)).retireHub h.val).service)
  ∧ (∀ c, DoesSettled (.eccError (.hbmChannel c)) (fun _ => True) fun n => (n.logUnit 0x0501 (5 * 2 ^ 28 + c.val)).channelError c.val)
  ∧ (∀ h p, DoesSettled (.eccError (.spokeSram h p)) (fun _ => True) fun n =>
    let m := (n.logUnit 0x0501 (2 ^ 28 + 64 * h.val + p.val)).retireSpoke h p
    (m.endCtxs (m.ctxsOn fun t => thrHub t == h.val && thrSpoke t == p.val) 0x0503).service)
  ∧ (∀ t, DoesSettled (.eccError (.tileControl t)) (fun n => ∀ k, KList.find? n.power.src13At t.val = some k → k + 1000000000 ≤ n.clk) fun n =>
    let m : Node := { n with power := { n.power with src13At := KList.put n.power.src13At t.val n.clk } }
    m.requestReset 13 (some t.val))
  ∧ (∀ t k, DoesSettled (.eccError (.tileControl t)) (fun n => KList.find? n.power.src13At t.val = some k ∧ n.clk < k + 1000000000) fun n =>
    let m : Node := { n with power := { n.power with src13At := KList.put n.power.src13At t.val n.clk } }
    ((m.retireTile t.val).service).requestReset 13 (some t.val))
  ∧ DoesSettled (.clockLoss 8) (fun _ => True) (fun n => (n.logUnit 0x0806 (10 * 2 ^ 28 + 8)).pcieDown.service)
  ∧ Does .lockstepMismatch (fun _ => True) (fun n => ((n.logUnit 0x0504 (11 * 2 ^ 28)).startBroken).requestReset 8 none)
  ∧ (∀ k, k < 8 → DoesSettled (.clockLoss k) (fun _ => True) fun n => ((n.logUnit 0x0806 (10 * 2 ^ 28 + k)).retireTile k).service)
  ∧ (∀ k, 9 ≤ k → k ≤ 10 → Does (.clockLoss k) (fun _ => True) fun n =>
    ((List.range 8).map (8 * (k - 9) + ·)).foldl Node.dropPort (n.logUnit 0x0806 (10 * 2 ^ 28 + k)))
  ∧ (∀ k, 11 ≤ k → Does (.clockLoss k) (fun _ => True) fun n => (n.logUnit 0x0806 (10 * 2 ^ 28 + k)).startBroken.requestReset 5 none)
  ∧ (∀ t i q p, DoesSettled (.snapshotPortArm t i q p) (fun n => i ≠ n.dev.node ∧ n.snap.seen.contains (i, q) = false ∧ (n.port p.val).state = 5 ∧ n.now < t
      ∧ n.snap.armed.length < 4) fun n =>
    (({ n with snap := { n.snap with seen := (i, q) :: n.snap.seen } } : Node).armSnap t).floodArm t i q (some p.val))
  ∧ (∀ a, Does .snapshotLatch (fun n => n.snap.armed.find? (fun a => decide (a.t ≤ n.now)) = some a) fun n =>
    let m : Node := { n with snap := { n.snap with armed := n.snap.armed.filter (· != a), latching := n.snap.latching ++ [a] } }
    if a.seq % 2 = 0 then { m with snap := { m.snap with bank0 := n.latch } } else { m with snap := { m.snap with bank1 := n.latch } })
  ∧ (∀ b a, Does (.snapshotComplete b) (fun n => n.snap.latching.find? (fun a => a.seq % 2 == b.val) = some a) fun n =>
    let m : Node := { n with snap := { n.snap with latching := n.snap.latching.filter (· != a) } }
    if b.val = 0 then { m with snap := { m.snap with seq0 := a.seq } } else { m with snap := { m.snap with seq1 := a.seq } })

/-! ## Regions and tiers (09) -/

/-- 09 R271-R273, R284-R295: region items, the derailleur, replicas. -/
def Obligations.TierResults : Prop :=
  (∀ (q : Fin 8192) a m, let rs := itemRegions a.item
    DoesSettled (.regionMap q) (fun n => n.mHead q.val 0x28 = some a
      ∧ n.regionMap (n.regionItemOwner a.item) (fld (a.item.arg 2) 0 3) rs = (0, m)) fun _ => m.doneM q.val a (done 0 rs.length))
  ∧ (∀ (q : Fin 8192) a, let rs := itemRegions a.item
    rs ≠ [] → DoesSettled (.regionUnmap q) (fun n => n.mHead q.val 0x29 = some a ∧ n.allOf (n.regionItemOwner a.item) rs = true) fun n =>
      let m := n.popM q.val
      { m with mem := { m.mem with unmaps := m.mem.unmaps ++ [{ owner := n.regionItemOwner a.item, regions := rs, item := some a }] } })
  ∧ (∀ o r u, DoesSettled (.regionUnmapComplete o r) (fun n => n.mem.unmaps.find? (fun u => u.owner == o && u.regions.contains r) = some u
      ∧ n.quiet o r = true ∧ n.dataUp = true ∧ n.discardRoom o r = true) fun n => (n.unmapRegion o r).unmapStep u r)
  ∧ (∀ (q : Fin 8192) a, let rs := itemRegions a.item
    DoesSettled (.regionFlag q) (fun n => n.mHead q.val 0x2A = some a ∧ n.allOf (n.regionItemOwner a.item) rs = true
      ∧ n.tilesFit (n.flagRegions (n.regionItemOwner a.item) (fld (a.item.arg 2) 0 3) (fld (a.item.arg 3) 0 3) rs) = true) fun n =>
      (n.flagRegions (n.regionItemOwner a.item) (fld (a.item.arg 2) 0 3) (fld (a.item.arg 3) 0 3) rs).doneM q.val a (done 0 rs.length))
  ∧ Does .derailleurEpoch (fun n => n.passed n.mem.lastEpoch (1000 * fld (n.reg .drlCfg) 24 8) = true ∧ n.dataUp = true) (fun n => n.epochEnd)
  ∧ (∀ t, Does (.capacityDemotion t) (fun n => n.fixedSlot = false ∧ n.dataUp = true ∧ 8 * n.tierFree t.val < n.tierCap t.val) fun n =>
    n.demoteUpTo (ceilDiv (n.tierCap t.val) 8 - n.tierFree t.val - n.leavingAll t.val)
      (n.coldest fun _ _ r => r.tier == t.val && decide (r.heat ≤ fld (n.reg .drlCfg) 8 8)))
  ∧ (∀ i m c k, i < 64 → c < 32 → Does (.chunkCommit i) (fun n => KList.find? n.mem.moves i = some m ∧ m.stopped = none ∧ n.dataUp = true
      ∧ bitAt m.atDst c = false ∧ (∀ d, d < c → bitAt m.atDst d = true) ∧ n.copyChunk m c = some k) fun _ =>
    let m' : Move := { m with atDst := m.atDst ||| 2 ^ c }
    let k : Node := { k with mem := { k.mem with moves := KList.put k.mem.moves i m' } }
    if m'.atDst = 2 ^ 32 - 1 then k.switchMove i m' else k)
  ∧ (∀ i m, i < 64 → Does (.moveStop i 0x0B02) (fun n => KList.find? n.mem.moves i = some m ∧ n.dataUp = true
      ∧ (n.region m.owner m.region).map (·.tier) = some 3) fun n => n.loseRegion m.owner m.region)
  ∧ (∀ i c m, i < 64 → Does (.moveStop i c) (fun n => KList.find? n.mem.moves i = some m ∧ n.dataUp = true
      ∧ (c ≠ 0x0B02 ∨ (n.region m.owner m.region).map (·.tier) ≠ some 3)) fun n =>
    { n with mem := { n.mem with moves := KList.put n.mem.moves i { m with stopped := some c } } })
  ∧ (∀ o a k b r, Does (.replicaWriteApply o a k b) (fun n => NextWrite n o a k r) fun n => caughtUp n (n.write o a b) o k r)
  ∧ (∀ o r, Does (.replicaLagExceeded o r) (fun n => n.isReplica o r = true) fun n => n.setStale o r true)

/-! ## Flash (10) -/

/-- 10 R300-R325, 13 R431: what the media does. -/
def Obligations.FlashResults : Prop :=
  (∀ c, Does (.flashServiceSlot c) (fun n => n.fixedSlot = true) fun n =>
    { n with adm := { n.adm with flashSlot := KList.put n.adm.flashSlot c.val ((n.channelSlot c.val + 1) % (fld (n.reg .isoCfg) 12 4 + 1)) } })
  ∧ (∀ u w i p, w < 4 → DoesSettled (.flashReadDone u w (.hard i)) (fun n => KList.find? n.flash.map u = some p ∧ n.flsOn = true) fun n =>
    ((n.countCodeword i false).readBlk (p / 2 ^ 24) (p % 2 ^ 24 / max 1 n.pop.pagesPerBlock) 1 (n.tooHard i 0)).serveCxl u w)
  ∧ (∀ u w r i p, w < 4 → DoesSettled (.flashReadDone u w (.soft r i)) (fun n => KList.find? n.flash.map u = some p ∧ n.flsOn = true) fun n =>
    ((n.countCodeword i true).readBlk (p / 2 ^ 24) (p % 2 ^ 24 / max 1 n.pop.pagesPerBlock) 1 (n.tooHard i r)).serveCxl u w)
  ∧ (∀ u w p, let die := p / 2 ^ 24
    let b := fun (n : Node) => p % 2 ^ 24 / max 1 n.pop.pagesPerBlock
    let page := fun (n : Node) => p % 2 ^ 24 % max 1 n.pop.pagesPerBlock
    let hard := fun (n : Node) => (n.countCodeword 40 true).readBlk die (b n) 1 (n.tooHard 40 (fld (n.reg .flsRdCfg) 4 4))
    w < 4 → DoesSettled (.flashReadDone u w .rebuilt) (fun n => KList.find? n.flash.map u = some p ∧ n.flsOn = true) (fun n =>
      let m : Node := { (hard n) with flash := { (hard n).flash with health := { (hard n).flash.health with rebuilds := (hard n).flash.health.rebuilds + 1 } } }
      (m.copyUnit die (b n) (page n, KList.getD ((hard n).blk die (b n)).units (page n) outside)).serveCxl u w)
    ∧ DoesSettled (.flashReadDone u w .uncorrectable) (fun n => KList.find? n.flash.map u = some p ∧ n.flsOn = true) (fun n =>
      let m : Node := { (hard n) with flash := { (hard n).flash with health := { (hard n).flash.health with uncorr := (hard n).flash.health.uncorr + 1 } } }
      (m.poisonUnit u 0x0702).serveCxl u w)
    ∧ DoesSettled (.flashReadDone u w .tagFail) (fun n => KList.find? n.flash.map u = some p ∧ n.flsOn = true) fun n =>
      (((n.countCodeword 0 false).readBlk die (b n) 1 false).poisonUnit u 0x0907).serveCxl u w)
  ∧ (∀ d b i r, Does (.patrolRead d b i r) (fun n => n.flsOn = true ∧ (n.blk d.val b).filled ≠ 0 ∧ (n.blk d.val b).pool ≠ 0 ∧ (n.blk d.val b).pool ≠ 4) fun n =>
    ((List.range (n.blk d.val b).filled).foldl (fun n _ => n.countCodeword i (decide (0 < r))) n).readBlk d.val b (n.blk d.val b).filled (n.tooHard i r))
  ∧ (∀ d b e, DoesSettled (.flashProgramDone d b true e) (fun _ => True) id)
  ∧ (∀ d b, DoesSettled (.flashProgramDone d b false false) (fun n => n.flsOn = true ∧ d < n.flash.dies ∧ bitAt n.flash.dieRet d = false
      ∧ n.pop.staticBlocks ≤ b ∧ b < n.pop.blocksPerDie ∧ (n.blk d b).pool ≠ 4 ∧ (n.blk d b).pool ≠ 0) fun n => n.retireBlk d b)
  ∧ (∀ d k, DoesSettled (.dieRetire ⟨d, k⟩) (fun n => n.flsOn = true ∧ (k = true ∨ n.dieWorn d.val = true)) fun n => n.retireDie d.val)
  ∧ (∀ d, DoesSettled (.garbageCollection d) (fun n => n.flsOn = true ∧ d.val < n.flash.dies ∧ bitAt n.flash.dieRet d.val = false ∧ n.sysWindow d.val = true
      ∧ n.dieFreePct d.val < fld (n.reg .flsCfg) 8 8
      ∧ (n.dieFreePct d.val < fld (n.reg .flsCfg) 16 8 ∨ n.flash.gcOn.contains d.val = true)) fun n => n.collectOne d.val)
  ∧ (∀ d b, DoesSettled (.slcFold d true) (fun n => n.oldestBuffer d.val = some b ∧ n.flsOn = true ∧ n.sysWindow d.val = true) fun n => n.recycle d.val b)
  ∧ (∀ d a b, DoesSettled (.wearLevelMove d) (fun n => n.wearPair d.val = some (a, b) ∧ n.flsOn = true ∧ n.sysWindow d.val = true
      ∧ (∀ t, KList.find? n.flash.lastMove d.val = some t → n.passed t 1000000 = true) ∧ bitAt n.flash.dieRet d.val = false
      ∧ fld (n.reg .flsWlCfg) 16 16 < n.topErases d.val - a.2.erases ∧ n.mapBytes + 64 * (n.validUnits d.val a.1).length ≤ mapShare) fun n =>
    let m := n.moveInto d.val a.1 b.1
    { m with flash := { m.flash with lastMove := KList.put m.flash.lastMove d.val m.clk, health := { m.flash.health with wlMoves := m.flash.health.wlMoves + 1 } } })
  ∧ (∀ d b, DoesSettled (.blockRefresh d b) (fun n => n.flsOn = true ∧ n.sysWindow d.val = true ∧ ((n.blk d.val b).pool = 1 ∨ (n.blk d.val b).pool = 2)
      ∧ 1000 * fld (n.reg .flsWlCfg) 0 16 ≤ (n.blk d.val b).reads ∧ (n.blk d.val b).refreshed = none) fun n =>
    let m := n.recycle d.val b
    ({ m with flash := { m.flash with health := { m.flash.health with refreshed := m.flash.health.refreshed + 1 } } } : Node).setBlk d.val b
      { (m.blk d.val b) with refreshed := some m.clk })
  ∧ (∀ d, Does (.zqCalibration d) (fun n => n.flsOn = true ∧ (∀ t, KList.find? n.flash.zqAt d.val = some t → n.passed t 250000 = true)
      ∧ d.val < n.flash.dies ∧ bitAt n.flash.dieRet d.val = false) fun n =>
    { n with flash := { n.flash with zqAt := KList.put n.flash.zqAt d.val n.clk } })
  ∧ (∀ u, DoesSettled .writeBack (fun n => n.writeBackDue = some u ∧ n.flsOn = true
      ∧ ∀ o r d, n.unitHome u = some (o, r) → n.nextDie = some d → n.ownWindow o d = true) fun n => (n.collectFirst.writeBackUnit u).serveHeld)
  ∧ (∀ p, Does (.mapPageWriteback p) (fun n => n.flsOn = true ∧ n.pageDue p = true) fun n => n.writeMapPage p)
  ∧ DoesSettled .journalStage (fun n => n.flash.waits = []) (fun n => n.serveHeld)
  ∧ (∀ w, DoesSettled .journalStage (fun n => n.flsOn = true ∧ n.flash.waits.find? (fun w => n.dataRoom w.rcd) = some w) fun n =>
    ((({ n with flash := { n.flash with waits := n.flash.waits.erase w } } : Node).stage w.rcd).applyLine w.rcd).ackLine w.ack)

/-! ## The whole machine -/

/-- A step takes the command at the front of the queue and runs it with the rest of the queue; on an empty queue a
nanosecond passes, in which only the clock and node time move (the model's choice, notes/assumptions/1.md). -/
def Obligations.StepRunsFrontCommand : Prop :=
  (∀ (n : Node) (c : Instr) (r : List Instr), step { node := n, pending := c :: r } = exec c { node := n, pending := r })
  ∧ (∀ n : Node, n.mgt.timeHold = none → step { node := n, pending := [] } =
      .next { node := { n with clk := n.clk + 1, mgt := { n.mgt with timeNs := (n.mgt.timeNs + 1) % 2 ^ 64 } }, pending := [] })
  ∧ (∀ (n : Node) (h : Nat), n.mgt.timeHold = some h → step { node := n, pending := [] } = .next { node := { n with clk := n.clk + 1 }, pending := [] })

/-- Every command completes in every state: no fault, no refusal. It leaves the queue of waiting commands as it was, and both
byte maps in canonical form. -/
def Obligations.EveryCommandCompletes : Prop :=
  ∀ (c : Instr) (s : State), ∃ n : Node, exec c s = .next { node := n, pending := s.pending } ∧ memOk n.mem.bytes = true ∧ memOk n.flash.media = true

/-- From every state whose byte maps are in canonical form, every step leads to such a state. -/
def Obligations.StepKeepsByteMaps : Prop := ∀ s t : State, s.ok = true → step s = .next t → t.ok = true

/-- Reset values that the field tables state: a field of a register, by its lowest bit and width. -/
def Sys2Proof.Claims.resetFields : List (RegName × Nat × Nat × Nat) :=
  [(.pfCfg, 0, 8, 108), (.mrgCfg, 0, 16, 100), (.drlCfg, 24, 8, 10), (.drlCfg, 16, 8, 16), (.drlCfg, 8, 8, 2), (.drlCfg, 0, 8, 16),
   (.stallCfg, 0, 16, 2), (.replCfg, 0, 16, 100), (.stoCfg, 16, 16, 500), (.stoCfg, 0, 16, 2000), (.tmoCfg, 0, 14, 1000),
   (.gateCfg, 0, 20, 2000), (.egrCfg, 16, 10, 64), (.egrCfg, 0, 10, 400), (.egrCfg3, 0, 10, 200)]

/-- After reset no command waits, both byte maps are in canonical form, node time is 0 and not valid, and the registers hold the
reset values of their field tables. -/
def Obligations.ResetState : Prop :=
  State.reset.pending = [] ∧ State.reset.ok = true ∧ State.reset.node.mgt.timeNs = 0 ∧ State.reset.node.mgt.timeValid = false
  ∧ (∀ (i : Nat), ∀ p ∈ resetFields, fld (State.reset.node.reg p.1 i) p.2.1 p.2.2.1 = p.2.2.2)
  ∧ (∀ (i : Nat) (n : RegName), State.reset.node.reg n i = regReset n)
  ∧ State.reset.node.cfgSpace 0 = { vendor := 0x1F6B, device := 0x0E03, revision := 0x10, classCode := 0x050210 }
  ∧ (∀ t : Fin 1024, State.reset.node.cfgSpace (t.val + 1) = { vendor := 0x1F6B, device := 0x0E13, revision := 0x10, classCode := 0x120000 })

/-- No semaphore or counter has a waiter, and the node engines have nothing for another node's ports. -/
def Sys2Proof.Claims.Quiet (n : Node) : Prop :=
  (∀ p ∈ n.qsy.syncs, p.2.type = 0 ∨ p.2.type = 3 → p.2.waiters = []) ∧ n.fabric.outbox = [] ∧ n.fabric.portOut = []

/-- What the end of a command leaves of the node that the other statements name: `next` is that node with its byte maps in
canonical form, which is the node itself where they are; `settled` is `next` where no waiting `Q.POP` has an item, no semaphore
or counter has a waiter and nothing leaves for another node's ports, and else serves and sends it. -/
def Obligations.SettledKeepsTheNode : Prop :=
  (∀ (s : State) (n : Node), s.next n = .next { node := n.tidy, pending := s.pending })
  ∧ (∀ n : Node, memOk n.mem.bytes = true → memOk n.flash.media = true → n.tidy = n)
  ∧ (∀ n : Node, (∀ k ∈ n.poppers, ∀ t q d b l, n.thread k = some t → t.wait = some (.pop q d b l) → n.popSlots q = 0) → Quiet n → n.settle = n)
  ∧ (∀ (n : Node) (k : Nat) (t : Thread) (q d b : Nat) (l : Option Nat),
      n.poppers = [k] → n.thread k = some t → t.wait = some (.pop q d b l) → n.popSlots q ≠ 0 → d + 128 * n.popSlots q ≤ 4096 * t.lsize →
      Quiet n → n.settle = n.popInto k t q d t.waitRd)
  ∧ (∀ (n : Node) (i : Nat) (x : Sync), n.poppers = [] → n.fabric.outbox = [] → n.fabric.portOut = [] →
      (n.qsy.syncs.filter fun p => !p.2.waiters.isEmpty) = [(i, x)] → (x.type = 0 ∨ x.type = 3) → n.settle = n.settleSem i x x.value)

/-- A byte map in canonical form reads as the map that it came from, is itself where that map was in canonical form, and two
maps in canonical form that read the same are the same. -/
def Obligations.CanonicalBytesReadTheSame : Prop :=
  (∀ (l : List Host.Cell) (k : Nat), KList.ok l = true → cellGet (canonCells l) k = cellGet l k)
  ∧ (∀ l : List Host.Cell, memOk l = true → canonCells l = l)
  ∧ (∀ l m : List Host.Cell, memOk l = true → memOk m = true → (∀ k, cellGet l k = cellGet m k) → l = m)

/-- Memory of an owner: what was written reads back, every other byte of the owner is as it was, and so is every byte of every
other owner. -/
def Obligations.MemoryOfOneOwner : Prop :=
  ∀ (n : Node) (o a : Nat) (b : Bytes), memOk n.mem.bytes = true → a % 2 ^ 48 + b.length ≤ 2 ^ 48 →
    (n.write o a b).read o a b.length = b
    ∧ (∀ c k, c % 2 ^ 48 + k ≤ 2 ^ 48 → (c % 2 ^ 48 + k ≤ a % 2 ^ 48 ∨ a % 2 ^ 48 + b.length ≤ c % 2 ^ 48) → (n.write o a b).read o c k = n.read o c k)
    ∧ (∀ p c k, p ≠ o → c % 2 ^ 48 + k ≤ 2 ^ 48 → (n.write o a b).read p c k = n.read p c k)
    ∧ memOk (n.write o a b).mem.bytes = true

/-- The registers of a thread: s0 reads 0 and discards writes, k0 reads all ones and discards writes, every other register
reads what was last written, with its poison, and a write changes no other register. -/
def Obligations.RegistersReadBack : Prop :=
  (∀ (t : Thread) (d r : Nat) (v : W64) (p : Bool), (t.setS d v p).getS r = if r = 0 then 0 else if r = d then v else t.getS r)
  ∧ (∀ (t : Thread) (d r : Nat) (v : W64) (p : Bool), (t.setS d v p).poisoned (.s r) = if d ≠ 0 ∧ r = d then p else t.poisoned (.s r))
  ∧ (∀ (t : Thread) (d r : Nat) (v : V512) (p : Bool), (t.setV d v p).getV r = if r = d then v.toNat else t.getV r)
  ∧ (∀ (t : Thread) (d r : Nat) (v : V512) (p : Bool), (t.setV d v p).poisoned (.v r) = if r = d then p else t.poisoned (.v r))
  ∧ (∀ (t : Thread) (d r v : Nat), (t.setK d v).getK r = if r = 0 then 2 ^ 64 - 1 else if r = d then v % 2 ^ 64 else t.getK r)
  ∧ (∀ (t : Thread) (d r : Nat) (v : W64) (p : Bool), (t.setS d v p).getV r = t.getV r ∧ (t.setS d v p).getK r = t.getK r ∧ (t.setS d v p).pc = t.pc)
  ∧ (∀ (t : Thread) (d r : Nat) (v : V512) (p : Bool), (t.setV d v p).getS r = t.getS r ∧ (t.setV d v p).getK r = t.getK r ∧ (t.setV d v p).pc = t.pc)
  ∧ (∀ (t : Thread) (d r v : Nat), (t.setK d v).getS r = t.getS r ∧ (t.setK d v).getV r = t.getV r ∧ (t.setK d v).pc = t.pc)

/-- Every field of a Thilen word stands where 06 Table 6.7 puts it, and so do those of the two words that the spec's examples
give: `LD.D s5, [s4 + s7 << 3 + 24]` and a `SCAN.PQ4`. -/
def Obligations.FieldsOfAWord : Prop :=
  (∀ (op fn : Nat) (f : F1), let w := (encF1 op fn f).toNat
    fld w 57 7 = op % 128 ∧ fld w 51 6 = fn % 64 ∧ fld w 45 6 = f.rd.toNat ∧ fld w 39 6 = f.ra.toNat ∧ fld w 33 6 = f.rb.toNat
    ∧ fld w 27 6 = f.rc.toNat ∧ fld w 24 3 = f.k.toNat ∧ fld w 23 1 = f.mz.toNat ∧ fld w 19 4 = f.et.toNat ∧ fld w 0 19 = f.rsv.toNat)
  ∧ (∀ (op fn : Nat) (f : F2), let w := (encF2 op fn f).toNat
    fld w 57 7 = op % 128 ∧ fld w 52 5 = fn % 32 ∧ fld w 46 6 = f.rd.toNat ∧ fld w 40 6 = f.ra.toNat ∧ fld w 32 8 = f.rsv.toNat
    ∧ fld w 0 32 = f.imm.toNat)
  ∧ (∀ (op fn : Nat) (f : F3), let w := (encF3 op fn f).toNat
    fld w 57 7 = op % 128 ∧ fld w 52 5 = fn % 32 ∧ fld w 46 6 = f.rd.toNat ∧ fld w 40 6 = f.ra.toNat ∧ fld w 34 6 = f.rb.toNat
    ∧ fld w 32 2 = f.sc.toNat ∧ fld w 31 1 = f.sp.toNat ∧ fld w 30 1 = f.x.toNat ∧ fld w 27 3 = f.k.toNat ∧ fld w 25 2 = f.ord.toNat
    ∧ fld w 0 25 = f.disp.toNat)
  ∧ (∀ (op fn : Nat) (f : F4), let w := (encF4 op fn f).toNat
    fld w 57 7 = op % 128 ∧ fld w 52 5 = fn % 32 ∧ fld w 46 6 = f.ra.toNat ∧ fld w 40 6 = f.rb.toNat ∧ fld w 34 6 = f.rc.toNat
    ∧ fld w 32 2 = f.h.toNat ∧ fld w 29 3 = f.k.toNat ∧ fld w 16 13 = f.fl.toNat ∧ fld w 0 16 = f.imm.toNat)
  ∧ (∀ (op fn : Nat) (f : F5), let w := (encF5 op fn f).toNat
    fld w 57 7 = op % 128 ∧ fld w 51 6 = f.rd.toNat ∧ fld w 48 3 = fn % 8 ∧ fld w 0 48 = f.imm.toNat)
  ∧ encF3 0x40 6 { rd := 5, ra := 4, rb := 7, sc := 1, sp := 1, x := 0, k := 0, ord := 0, disp := 24 } = 0x8061441D80000018#64
  ∧ encF4 0x59 0 { ra := 20, rb := 21, rc := 22, h := 0, k := 0, fl := 0x3F, imm := 0x0C00 } = 0xB2051558003F0C00#64

/-- The instructions of 06 in format F1, with their opcodes and functions. -/
def Sys2Proof.Claims.coreF1 : List ((Thr → F1 → Instr) × Nat × Nat) :=
  [(Instr.add, 1, 0), (Instr.sub, 1, 1), (Instr.and, 1, 2), (Instr.or, 1, 3), (Instr.xor, 1, 4), (Instr.shl, 1, 5), (Instr.shr, 1, 6), (Instr.sra, 1, 7), (Instr.slt, 1, 8), (Instr.sltu, 1, 9),
   (Instr.min, 1, 10), (Instr.max, 1, 11), (Instr.minu, 1, 12), (Instr.maxu, 1, 13), (Instr.sel, 1, 14), (Instr.popc, 1, 15), (Instr.clz, 1, 16), (Instr.ctz, 1, 17), (Instr.ptest, 1, 18)]
  ++ [(Instr.mul, 2, 0), (Instr.mulh, 2, 1), (Instr.mulhu, 2, 2), (Instr.div, 2, 3), (Instr.divu, 2, 4), (Instr.rem, 2, 5), (Instr.remu, 2, 6)]
  ++ [(Instr.fadd, 3, 0), (Instr.fsub, 3, 1), (Instr.fmul, 3, 2), (Instr.fdiv, 3, 3), (Instr.fsqrt, 3, 4), (Instr.fmin, 3, 5), (Instr.fmax, 3, 6), (Instr.feq, 3, 7), (Instr.flt, 3, 8),
   (Instr.fle, 3, 9), (Instr.fcvt, 3, 10)]
  ++ [(Instr.kand, 4, 0), (Instr.kor, 4, 1), (Instr.kxor, 4, 2), (Instr.knot, 4, 3), (Instr.kmovS2k, 4, 4), (Instr.kmovK2s, 4, 5), (Instr.kpopc, 4, 6)]
  ++ [(Instr.vadd, 8, 0), (Instr.vsub, 8, 1), (Instr.vmul, 8, 2), (Instr.vmin, 8, 3), (Instr.vmax, 8, 4), (Instr.vand, 8, 5), (Instr.vor, 8, 6), (Instr.vxor, 8, 7), (Instr.vshl, 8, 8),
   (Instr.vshr, 8, 9), (Instr.vsra, 8, 10), (Instr.vpopc, 8, 11), (Instr.vdotp, 8, 12)]
  ++ [(Instr.vcmpEq, 9, 0), (Instr.vcmpNe, 9, 1), (Instr.vcmpLt, 9, 2), (Instr.vcmpLe, 9, 3)]
  ++ [(Instr.vmov, 10, 0), (Instr.vbcast, 10, 1), (Instr.vext, 10, 2), (Instr.vperm, 10, 3), (Instr.vcvt, 10, 4), (Instr.vredAdd, 10, 6), (Instr.vredMin, 10, 7), (Instr.vredMax, 10, 8)]
  ++ [(Instr.fence, 12, 0), (Instr.fenceRemote, 12, 1), (Instr.nop, 13, 0), (Instr.endThread, 13, 1), (Instr.yield, 13, 2)]

/-- The instructions of 06 in format F2. -/
def Sys2Proof.Claims.coreF2 : List ((Thr → F2 → Instr) × Nat × Nat) :=
  [(Instr.addi, 0x20, 0), (Instr.andi, 0x20, 1), (Instr.ori, 0x20, 2), (Instr.xori, 0x20, 3), (Instr.shli, 0x20, 4), (Instr.shri, 0x20, 5), (Instr.srai, 0x20, 6), (Instr.slti, 0x20, 7),
   (Instr.sltiu, 0x20, 8)]
  ++ [(Instr.beq, 0x21, 0), (Instr.bne, 0x21, 1), (Instr.blt, 0x21, 2), (Instr.bge, 0x21, 3), (Instr.bltu, 0x21, 4), (Instr.bgeu, 0x21, 5), (Instr.jal, 0x22, 0), (Instr.jalr, 0x22, 1),
   (Instr.srd, 0x23, 0), (Instr.swr, 0x23, 1)]

/-- When an instruction does not reach its effect: the thread is free, or something holds it (nothing happens); its PC is outside
its program (`ISA_PC_RANGE`); the store holds a word of no assigned opcode and function (`ISA_ILLEGAL`), or another word (nothing
happens); or a reserved bit is set (`ISA_ILLEGAL`). -/
def Sys2Proof.Claims.Stopped (c : Instr) (th : Thr) (w : W64) (reserved : Bool) : Prop :=
  ∀ s : State,
    (s.node.thread (thrNo th) = none → exec c s = s.next s.node)
    ∧ ∀ t x, s.node.thread (thrNo th) = some t → s.node.ctx t.ctx = some x →
      (s.node.canIssue (thrNo th) t = false → exec c s = s.next s.node)
      ∧ (s.node.canIssue (thrNo th) t = true → (t.pc < t.lo ∨ t.hi ≤ t.pc) →
        exec c s = s.settled (s.node.threadFault (thrNo th) t.pc 0x0165 w.toNat 0))
      ∧ (s.node.canIssue (thrNo th) t = true → t.lo ≤ t.pc → t.pc < t.hi → s.node.reservedAt t.pc = true →
        exec c s = s.settled (s.node.threadFault (thrNo th) t.pc 0x0160 (s.node.instrAt t.pc) 0))
      ∧ (s.node.canIssue (thrNo th) t = true → t.lo ≤ t.pc → t.pc < t.hi → s.node.reservedAt t.pc = false → s.node.fetched t.pc w = false →
        exec c s = s.next s.node)
      ∧ (s.node.canIssue (thrNo th) t = true → t.lo ≤ t.pc → t.pc < t.hi → s.node.reservedAt t.pc = false → s.node.fetched t.pc w = true →
        reserved = true → exec c s = s.settled (s.node.threadFault (thrNo th) t.pc 0x0160 w.toNat 0))

/-- Every instruction of 06 in formats F1 and F2 stops as R164, R173, R184 and R188 say; an instruction of the integer group whose
source or destination is outstanding stalls: the state stays. -/
def Obligations.InstructionsThatDoNotIssue : Prop :=
  (∀ p ∈ coreF1, ∀ (th : Thr) (f : F1), Stopped (p.1 th f) th (encF1 p.2.1 p.2.2 f) (f.rsv != 0))
  ∧ (∀ p ∈ coreF2, ∀ (th : Thr) (f : F2), Stopped (p.1 th f) th (encF2 p.2.1 p.2.2 f) (f.rsv != 0))
  ∧ (∀ p ∈ coreF1, p.2.1 ≤ 2 → p.2 ≠ (1, 14) → ¬ (p.2.1 = 1 ∧ 15 ≤ p.2.2) → ∀ (s : State) (th : Thr) (f : F1) (t : Thread) (x : Ctx),
      f.rsv = 0 → Issues s th (encF1 p.2.1 p.2.2 f) t x → ¬ Landed s th [sDst f.rd.toNat, .s f.ra.toNat, .s f.rb.toNat] →
      exec (p.1 th f) s = s.next s.node)

/-! ## Selection and records -/

/-- Entries with one key and one vector ID are one entry (04 R104: they are indistinguishable). -/
def Sys2Proof.Claims.Alike (l : List Entry) : Prop := ∀ a ∈ l, ∀ b ∈ l, a.key = b.key → a.id = b.id → a = b

/-- The best `cap` of some candidates in the order of 04 R103, and the least key among the others. -/
def Sys2Proof.Claims.kept (cap : Nat) (l : List Entry) : TopList :=
  let s := l.foldr insertEntry []
  ⟨cap, s.take cap, ((s.drop cap).map (·.key)).foldl min padKey⟩

/-- However candidates arrive, a list of capacity C ends with the C first of them in the order of 04 R103, and DROP_KEY is the
least key among the others. -/
def Obligations.TopKKeepsTheBest : Prop :=
  (∀ (cap : Nat) (l : List Entry), Alike l → l.foldl TopList.offer (TopList.empty cap) = kept cap l)
  ∧ (∀ (cap : Nat) (l m : List Entry), Alike l → l.Perm m → l.foldl TopList.offer (TopList.empty cap) = m.foldl TopList.offer (TopList.empty cap))

/-- Merging the lists of the parts gives the list of the whole, DROP_KEY included: how candidates are split over gangs, tiles and
nodes does not show in the result. -/
def Obligations.MergingPartsIsMergingTheWhole : Prop :=
  ∀ (cap : Nat) (parts : List (List Entry)), Alike parts.flatten →
    mergeLists cap (parts.map fun p => ((p.foldl TopList.offer (TopList.empty cap)).entries, (p.foldl TopList.offer (TopList.empty cap)).drop))
      = parts.flatten.foldl TopList.offer (TopList.empty cap)

/-- From every position of a merge plan, going from parent to parent reaches position 0, within the depth of 04 Table 4.3. -/
def Obligations.PartialsReachTheCoordinator : Prop :=
  ∀ (p : Plan) (i : Nat), i < p.nlist.length → ∃ k, p.parent^[k] i = 0 ∧
    (∀ j ≤ k, p.parent^[j] i < p.nlist.length) ∧
    k ≤ (match p.topo with
      | 0 => 1
      | 1 => p.nlist.length
      | 2 => p.nlist.length - 1
      | _ => ceilDiv (p.nlist.length - 1) 2)

/-- At most 20,480 records of the log ring are unread, whatever is logged; on a full ring a record is coalesced or dropped, and
counted, and the ring's counts stay. -/
def Obligations.LogRingStaysBounded : Prop :=
  ∀ (n : Node) (e : LogEv), n.log.head < 2 ^ 32 → n.log.tail < 2 ^ 32 → n.log.unread ≤ 20480 →
    (n.logEvent e).log.head < 2 ^ 32 ∧ (n.logEvent e).log.tail = n.log.tail ∧ (n.logEvent e).log.unread ≤ 20480
    ∧ (n.log.unread = 20480 → (n.logEvent e).log.head = n.log.head
      ∧ (n.logEvent e).log.drop + (n.logEvent e).log.coal = n.log.drop + n.log.coal + 1)

/-- While 17,920 or more records are unconsumed, a record with the code and TID of an unconsumed one adds to the newest such, and
no record is written; another is appended, or, on a full ring, dropped. (In fixed-slot mode each TID has its own share: 14
Table 14.10.) -/
def Obligations.FullLogRingCoalesces : Prop :=
  ∀ (n : Node) (e : LogEv), n.fixedSlot = false → KList.ok n.log.ring = true → n.log.head < 2 ^ 32 → n.log.tail < 2 ^ 32 →
    17920 ≤ n.log.unread → n.log.unread ≤ 20480 →
    let m := (n.logEvent e).log
    let num := fun k => (n.log.head + 2 ^ 32 - 1 - k) % 2 ^ 32
    let same := fun k => ∃ x, KList.find? n.log.ring (num k) = some x ∧ x.code = e.code ∧ x.tid = e.tid
    (∀ k x, k < n.log.unread → KList.find? n.log.ring (num k) = some x → x.code = e.code → x.tid = e.tid → (∀ j < k, ¬ same j) →
      KList.find? m.ring (num k) = some { x with count := x.count + 1, last := n.now, flags := x.flags ||| 1 }
      ∧ (∀ i, i ≠ num k → KList.find? m.ring i = KList.find? n.log.ring i)
      ∧ m.coal = n.log.coal + 1 ∧ m.drop = n.log.drop ∧ m.head = n.log.head ∧ m.tail = n.log.tail)
    ∧ ((∀ k < n.log.unread, ¬ same k) → n.log.unread < 20480 →
      (∃ x, KList.find? m.ring n.log.head = some x ∧ x.code = e.code ∧ x.tid = e.tid ∧ x.count = e.count ∧ x.time = n.now ∧ x.last = n.now)
      ∧ m.head = (n.log.head + 1) % 2 ^ 32 ∧ m.coal = n.log.coal ∧ m.drop = n.log.drop)
    ∧ ((∀ k < n.log.unread, ¬ same k) → n.log.unread = 20480 → m.ring = n.log.ring ∧ m.head = n.log.head ∧ m.drop = n.log.drop + 1)

/-- Where the replay buffer holds the flits from O on, an acknowledgement A with d(A, O - 1) in 1-N frees every flit up to and
including A, and the flits ahead of A stay; any other is ignored, and one ahead of the newest flit sent is counted in counter 9. -/
def Obligations.AcknowledgementsFreeFlits : Prop :=
  ∀ (n : Node) (p a : Nat),
    let x := n.port p
    let o := (x.txSeq + 4096 - x.buffer.length) % 4096
    let newest := (x.txSeq + 4095) % 4096
    a < 4096 → x.txSeq < 4096 → x.buffer.length ≤ 1024 → (∀ i f, x.buffer[i]? = some f → f.seq = (o + i) % 4096) →
    ((1 ≤ seqD a ((o + 4095) % 4096) ∧ seqD a ((o + 4095) % 4096) ≤ x.buffer.length) →
      n.ackIn p a = n.setPort p { x with
        buffer := x.buffer.filter fun f => decide (1 ≤ seqD f.seq a ∧ seqD f.seq a ≤ 2047)
        timer := if a = newest then none else some n.clk
        replays := 0 })
    ∧ (¬ (1 ≤ seqD a ((o + 4095) % 4096) ∧ seqD a ((o + 4095) % 4096) ≤ x.buffer.length) →
      (1 ≤ seqD a newest ∧ seqD a newest ≤ 2047 → n.ackIn p a = n.setPort p (x.count 9))
      ∧ (¬ (1 ≤ seqD a newest ∧ seqD a newest ≤ 2047) → n.ackIn p a = n))

/-- Each audit record that follows a held one carries that one's digest. -/
def Sys2Proof.Claims.Chained (n : Node) : Prop :=
  KList.ok n.sec.audit = true ∧ (∀ p ∈ n.sec.audit, p.1 < n.sec.audSeq)
  ∧ ∀ (i : Nat) (r r' : AudRec), KList.find? n.sec.audit i = some r → KList.find? n.sec.audit (i + 1) = some r' → r'.prev = Sha.sha384 (auditBytes r)

/-- A new audit record keeps the chain of digests, takes the next sequence number, leaves every record that it does not overwrite,
and the first record of all carries the digest of the DeviceID key. Where no record can be written, a privileged act that would
succeed is refused with `AUDIT_UNAVAILABLE` and changes nothing, but for the firmware update of Pewter mode; else its record is written before it acts,
in the QSPI area of 256 records where the flash population fails. -/
def Obligations.AuditChainHolds : Prop :=
  (∀ (n : Node) (a : AuditAct) (st : Nat), Chained n → Chained (n.audit a st))
  ∧ (∀ (n : Node) (a : AuditAct) (st : Nat), n.auditOk = true → n.sec.audSeq = 0 →
      ∃ r, KList.find? (n.audit a st).sec.audit 0 = some r ∧ r.prev = Sha.sha384 n.deviceKey)
  ∧ (∀ (n : Node) (a : AuditAct) (st : Nat), n.auditOk = true → Chained n →
      (n.audit a st).sec.audSeq = n.sec.audSeq + 1
      ∧ (∃ r, KList.find? (n.audit a st).sec.audit n.sec.audSeq = some r ∧ r.seq = n.sec.audSeq ∧ r.act = a.act ∧ r.status = st)
      ∧ ∀ i r, i + 65536 ≠ n.sec.audSeq → KList.find? n.sec.audit i = some r → KList.find? (n.audit a st).sec.audit i = some r)
  ∧ (∀ n : Node, n.auditOk = (n.flash.popOk || decide (n.qspi.auditUsed < 256)))
  ∧ (∀ (n : Node) (a : AuditAct) (st : Nat), n.flash.popOk = false → n.auditOk = true → (n.audit a st).qspi.auditUsed = n.qspi.auditUsed + 1)
  ∧ (∀ (n : Node) (a : AuditAct) (f : Node → Node), n.auditOk = false → n.privileged a 0 f = (0x0905, n))
  ∧ (∀ (s : State) (src : Src) (v : Nat) (r : Option Role) (a : RegAt), Accepts s.node src .mboxCtl 0 v r a → fld v 0 3 = 2 →
      s.node.dev.pewter = true → (s.node.roleOf src [.installer]).isSome = true → s.node.auditOk = false →
      exec (.mboxCommit src v true) s = s.next ((s.node.putSlot (bitAt v 16)).mboxStatus 0))
  ∧ (∀ (n : Node) (a : AuditAct) (f : Node → Node), n.auditOk = true → n.privileged a 0 f = (0, f (n.audit a 0)))
  ∧ (∀ (n : Node) (a : AuditAct) (c : Nat) (f : Node → Node), n.auditOk = true → c ≠ 0 → n.privileged a c f = (c, n.audit a c))
end

