-- ==== Sys2Proof/Laws/Memory.lean ====
section
/-! SUPPORT. Keyed lists and byte maps: what a lookup reads after a change, and that every operation on a byte map keeps
its canonical form. -/

namespace Sys2Proof

theorem KList.find?_put {α : Type} (l : KList α) (n m : Nat) (x : α) :
    KList.find? (KList.put l n x) m = if m = n then some x else KList.find? l m := by
  induction l with
  | nil =>
    simp only [KList.put, KList.find?]
    split
    · rfl
    · split <;> rfl
  | cons p t ih =>
    obtain ⟨k, v⟩ := p
    simp only [KList.put]
    split
    · subst n
      simp only [KList.find?]
      split <;> rfl
    · split
      · simp only [KList.find?]
        by_cases h1 : m = n
        · simp [h1]
        · rw [if_neg h1, if_neg h1]
          by_cases h2 : m < n
          · rw [if_pos h2, if_neg (by omega), if_pos (by omega)]
          · rw [if_neg h2]
      · simp only [KList.find?]
        by_cases h1 : m = k
        · rw [if_pos h1, if_neg (by omega), if_pos h1]
        · rw [if_neg h1, if_neg h1]
          by_cases h2 : m < k
          · rw [if_pos h2, if_neg (by omega), if_pos h2]
          · rw [if_neg h2, if_neg h2, ih]

theorem KList.getD_put {α : Type} (l : KList α) (n m : Nat) (x d : α) :
    KList.getD (KList.put l n x) m d = if m = n then x else KList.getD l m d := by
  simp only [KList.getD, KList.find?_put]
  split <;> rfl

theorem KList.okFrom_mono {α : Type} (l : KList α) (a b : Nat) (h : a ≤ b) (hl : KList.okFrom (some b) l = true) : KList.okFrom (some a) l = true := by
  cases l with
  | nil => rfl
  | cons p t =>
    obtain ⟨k, v⟩ := p
    simp only [KList.okFrom, Bool.and_eq_true, decide_eq_true_eq] at hl ⊢
    exact ⟨by omega, hl.2⟩

theorem KList.find?_below {α : Type} (l : KList α) (b m : Nat) (h : KList.okFrom (some b) l = true) (hm : m ≤ b) : KList.find? l m = none := by
  cases l with
  | nil => rfl
  | cons p t =>
    obtain ⟨k, v⟩ := p
    simp only [KList.okFrom, Bool.and_eq_true, decide_eq_true_eq] at h
    simp only [KList.find?]
    rw [if_neg (by omega), if_pos (by omega)]

theorem KList.okFrom_put {α : Type} (l : KList α) (b n : Nat) (x : α) (h : KList.okFrom (some b) l = true) (hb : b < n) :
    KList.okFrom (some b) (KList.put l n x) = true := by
  induction l generalizing b with
  | nil => simp [KList.put, KList.okFrom, hb]
  | cons p t ih =>
    obtain ⟨k, v⟩ := p
    simp only [KList.okFrom, Bool.and_eq_true, decide_eq_true_eq] at h
    simp only [KList.put]
    split
    · simp only [KList.okFrom, Bool.and_eq_true, decide_eq_true_eq]; exact h
    · split
      · simp only [KList.okFrom, Bool.and_eq_true, decide_eq_true_eq]; exact ⟨hb, by assumption, h.2⟩
      · simp only [KList.okFrom, Bool.and_eq_true, decide_eq_true_eq]; exact ⟨h.1, ih k h.2 (by omega)⟩

theorem KList.ok_put {α : Type} (l : KList α) (n : Nat) (x : α) (h : KList.ok l = true) : KList.ok (KList.put l n x) = true := by
  cases l with
  | nil => rfl
  | cons p t =>
    obtain ⟨k, v⟩ := p
    simp only [KList.ok, KList.okFrom] at h
    simp only [KList.put, KList.ok]
    split
    · simpa [KList.okFrom] using h
    · split
      · simp only [KList.okFrom, Bool.and_eq_true, decide_eq_true_eq]; exact ⟨by assumption, h⟩
      · simp only [KList.okFrom]; exact KList.okFrom_put t k n x h (by omega)

theorem KList.okFrom_del {α : Type} (l : KList α) (b n : Nat) (h : KList.okFrom (some b) l = true) : KList.okFrom (some b) (KList.del l n) = true := by
  induction l generalizing b with
  | nil => rfl
  | cons p t ih =>
    obtain ⟨k, v⟩ := p
    simp only [KList.okFrom, Bool.and_eq_true, decide_eq_true_eq] at h
    simp only [KList.del]
    split
    · exact KList.okFrom_mono t b k (by omega) h.2
    · split
      · simp only [KList.okFrom, Bool.and_eq_true, decide_eq_true_eq]; exact h
      · simp only [KList.okFrom, Bool.and_eq_true, decide_eq_true_eq]; exact ⟨h.1, ih k h.2⟩

theorem KList.ok_of_okFrom {α : Type} (l : KList α) (b : Nat) (h : KList.okFrom (some b) l = true) : KList.ok l = true := by
  cases l with
  | nil => rfl
  | cons p t =>
    obtain ⟨k, v⟩ := p
    simp only [KList.okFrom, Bool.and_eq_true, decide_eq_true_eq] at h
    exact h.2

theorem KList.ok_del {α : Type} (l : KList α) (n : Nat) (h : KList.ok l = true) : KList.ok (KList.del l n) = true := by
  cases l with
  | nil => rfl
  | cons p t =>
    obtain ⟨k, v⟩ := p
    simp only [KList.ok, KList.okFrom] at h
    simp only [KList.del, KList.ok]
    split
    · exact KList.ok_of_okFrom t k h
    · split
      · exact h
      · exact KList.okFrom_del t k n h

theorem KList.find?_del {α : Type} (l : KList α) (n m : Nat) (h : KList.ok l = true) :
    KList.find? (KList.del l n) m = if m = n then none else KList.find? l m := by
  induction l with
  | nil => simp [KList.del, KList.find?]
  | cons p t ih =>
    obtain ⟨k, v⟩ := p
    simp only [KList.ok, KList.okFrom] at h
    simp only [KList.del]
    split
    · subst n
      by_cases h1 : m = k
      · rw [if_pos h1, h1]; exact KList.find?_below t k k h (by omega)
      · rw [if_neg h1]
        simp only [KList.find?]
        rw [if_neg h1]
        split
        · exact KList.find?_below t k m h (by omega)
        · rfl
    · split
      · simp only [KList.find?]
        by_cases h1 : m = n
        · rw [if_pos h1, if_neg (by omega), if_pos (by omega)]
        · rw [if_neg h1]
      · simp only [KList.find?]
        rw [ih (KList.ok_of_okFrom t k h)]
        by_cases h1 : m = k
        · rw [if_pos h1, if_neg (by omega), if_pos h1]
        · rw [if_neg h1, if_neg h1]
          by_cases h2 : m < k
          · rw [if_pos h2]; split <;> simp_all
          · rw [if_neg h2, if_neg h2]

theorem KList.mem_put {α : Type} (l : KList α) (n : Nat) (x : α) (p : Nat × α) (h : p ∈ KList.put l n x) : p = (n, x) ∨ p ∈ l := by
  induction l with
  | nil => simp only [KList.put, List.mem_singleton] at h; exact .inl h
  | cons q t ih =>
    obtain ⟨k, v⟩ := q
    simp only [KList.put] at h
    split at h
    · subst n
      rcases List.mem_cons.mp h with h | h
      · exact .inl h
      · exact .inr (List.mem_cons_of_mem _ h)
    · split at h
      · rcases List.mem_cons.mp h with h | h
        · exact .inl h
        · exact .inr h
      · rcases List.mem_cons.mp h with h | h
        · exact .inr (h ▸ List.mem_cons_self ..)
        · rcases ih h with h | h
          · exact .inl h
          · exact .inr (List.mem_cons_of_mem _ h)

theorem KList.mem_del {α : Type} (l : KList α) (n : Nat) (p : Nat × α) (h : p ∈ KList.del l n) : p ∈ l := by
  induction l with
  | nil => exact h
  | cons q t ih =>
    obtain ⟨k, v⟩ := q
    simp only [KList.del] at h
    split at h
    · exact List.mem_cons_of_mem _ h
    · split at h
      · exact h
      · rcases List.mem_cons.mp h with h | h
        · exact h ▸ List.mem_cons_self ..
        · exact List.mem_cons_of_mem _ (ih h)

namespace Machine

theorem memOk_iff (l : List Host.Cell) : memOk l = true ↔ KList.ok l = true ∧ ∀ c ∈ l, c.2 ≠ 0 := by
  simp [memOk]

/-- A byte written reads back; every other byte is as it was. -/
theorem cellGet_cellPut (l : List Host.Cell) (k j : Nat) (b : Byte) (h : KList.ok l = true) :
    cellGet (cellPut l k b) j = if j = k then b else cellGet l j := by
  unfold cellPut cellGet
  split
  · next hb =>
    simp only [KList.getD, KList.find?_del l k j h]
    split
    · simp [hb]
    · rfl
  · exact KList.getD_put l k j b 0

theorem cellPut_memOk (l : List Host.Cell) (k : Nat) (b : Byte) (h : memOk l = true) : memOk (cellPut l k b) = true := by
  rw [memOk_iff] at h ⊢
  unfold cellPut
  split
  · exact ⟨KList.ok_del l k h.1, fun c hc => h.2 c (KList.mem_del l k c hc)⟩
  · next hb =>
    refine ⟨KList.ok_put l k b h.1, fun c hc => ?_⟩
    rcases KList.mem_put l k b c hc with rfl | hc
    · exact hb
    · exact h.2 c hc

theorem cellPut_ok (l : List Host.Cell) (k : Nat) (b : Byte) (h : KList.ok l = true) : KList.ok (cellPut l k b) = true := by
  unfold cellPut
  split
  · exact KList.ok_del l k h
  · exact KList.ok_put l k b h

/-- Every write keeps the canonical form. -/
theorem cellWrite_memOk (l : List Host.Cell) (k : Nat) (b : Bytes) (h : memOk l = true) : memOk (cellWrite l k b) = true := by
  induction b generalizing l k with
  | nil => exact h
  | cons x t ih => exact ih _ _ (cellPut_memOk l k x h)

theorem cellWrite_ok (l : List Host.Cell) (k : Nat) (b : Bytes) (h : KList.ok l = true) : KList.ok (cellWrite l k b) = true := by
  induction b generalizing l k with
  | nil => exact h
  | cons x t ih => exact ih _ _ (cellPut_ok l k x h)

/-- One byte after a write: the byte written there, or the one that was. -/
theorem cellGet_cellWrite (l : List Host.Cell) (k j : Nat) (b : Bytes) (h : KList.ok l = true) :
    cellGet (cellWrite l k b) j = if k ≤ j ∧ j < k + b.length then b.getD (j - k) 0 else cellGet l j := by
  induction b generalizing l k with
  | nil => simp [cellWrite]
  | cons x t ih =>
    simp only [cellWrite]
    rw [ih _ _ (cellPut_ok l k x h), cellGet_cellPut l k j x h]
    simp only [List.length_cons]
    by_cases h1 : j = k
    · subst h1
      rw [if_neg (by omega), if_pos rfl, if_pos (by omega)]; simp
    · by_cases h2 : k + 1 ≤ j ∧ j < k + 1 + t.length
      · rw [if_pos h2, if_pos (by omega)]
        obtain ⟨d, rfl⟩ : ∃ d, j = k + 1 + d := ⟨j - (k + 1), by omega⟩
        rw [show k + 1 + d - (k + 1) = d by omega, show k + 1 + d - k = d + 1 by omega]; simp
      · rw [if_neg h2, if_neg h1, if_neg (by omega)]

/-- Whatever the list, its canonical form is in canonical form. -/
theorem canonCells_memOk (l : List Host.Cell) : memOk (canonCells l) = true := by
  induction l with
  | nil => rfl
  | cons c t ih => exact cellPut_memOk _ _ _ ih

theorem Node.tidy_memOk (n : Node) : memOk n.tidy.mem.bytes = true := canonCells_memOk _
theorem Node.tidy_mediaOk (n : Node) : memOk n.tidy.flash.media = true := canonCells_memOk _

theorem Node.write_memOk (n : Node) (o a : Nat) (b : Bytes) (h : memOk n.mem.bytes = true) : memOk (n.write o a b).mem.bytes = true :=
  cellWrite_memOk _ _ _ h

theorem okFrom_filter (l : List Host.Cell) (p : Host.Cell → Bool) (b : Nat) (h : KList.okFrom (some b) l = true) :
    KList.okFrom (some b) (l.filter p) = true := by
  induction l generalizing b with
  | nil => rfl
  | cons c t ih =>
    obtain ⟨k, v⟩ := c
    simp only [KList.okFrom, Bool.and_eq_true, decide_eq_true_eq] at h
    by_cases hp : p (k, v) = true
    · rw [List.filter_cons_of_pos hp]
      simp only [KList.okFrom, Bool.and_eq_true, decide_eq_true_eq]; exact ⟨h.1, ih k h.2⟩
    · rw [List.filter_cons_of_neg hp]
      exact ih b (KList.okFrom_mono t b k (by omega) h.2)

/-- Zeroing a stretch keeps the canonical form. -/
theorem Node.zero_memOk (n : Node) (o a k : Nat) (h : memOk n.mem.bytes = true) : memOk (n.zero o a k).mem.bytes = true := by
  rw [memOk_iff] at h ⊢
  refine ⟨?_, fun c hc => h.2 c (List.mem_of_mem_filter hc)⟩
  have h1 := h.1
  simp only [Node.zero]
  generalize n.mem.bytes = l at h1
  cases l with
  | nil => rfl
  | cons c t =>
    obtain ⟨k', v⟩ := c
    simp only [KList.ok, KList.okFrom] at h1
    rw [List.filter_cons]
    split
    · simp only [KList.ok, KList.okFrom]; exact okFrom_filter t _ k' h1
    · exact KList.ok_of_okFrom _ k' (okFrom_filter t _ k' h1)

theorem reset_memOk : memOk State.reset.node.mem.bytes = true := rfl

end Machine
end Sys2Proof
end

