-- ==== Sys2Proof/Laws/Ends.lean ====
section
/-! SUPPORT. How commands end, and what an instruction of a thread and an item of a queue do: each once. -/

namespace Sys2Proof.Machine

/-- An outcome that is a next state with the queue as it was. -/
def Ends (s : State) (r : Result) : Prop := ∃ n, r = s.next n

theorem ends_next (s : State) (n : Node) : Ends s (s.next n) := ⟨n, rfl⟩
theorem ends_settled (s : State) (n : Node) : Ends s (s.settled n) := ⟨n.settle, rfl⟩

/-- What an outcome that ends is. -/
theorem Ends.next {s : State} {r : Result} (h : Ends s r) :
    ∃ n : Node, r = .next { node := n, pending := s.pending } ∧ memOk n.mem.bytes = true ∧ memOk n.flash.media = true := by
  obtain ⟨n, rfl⟩ := h
  exact ⟨n.tidy, rfl, n.tidy_memOk, n.tidy_mediaOk⟩

theorem ends_issue (s : State) (th : Thr) (w : W64) (f : Nat → Thread → Ctx → Eff) : Ends s (s.issue th w f) := by
  unfold State.issue
  simp only
  split
  · exact ends_next ..
  · split
    · exact ends_next ..
    · split
      · exact ends_next ..
      · split
        · exact ends_settled ..
        · split
          · exact ends_settled ..
          · split
            · exact ends_next ..
            · split
              · exact ends_settled ..
              · exact ends_next ..
              · exact ends_settled ..

theorem ends_runM (s : State) (q op : Nat) (f : Admitted → Node) : Ends s (s.runM q op f) := by
  unfold State.runM
  split
  · exact ends_settled ..
  · exact ends_next ..

/-- An item that its queue runs next has its effect. -/
theorem runM_some (s : State) (q op : Nat) (f : Admitted → Node) (a : Admitted) (h : s.node.mHead q op = some a) :
    s.runM q op f = s.settled (f a) := by simp [State.runM, h]

theorem runM_none (s : State) (q op : Nat) (f : Admitted → Node) (h : s.node.mHead q op = none) : s.runM q op f = s.next s.node := by
  simp [State.runM, h]

/-- A thread that is free does nothing. -/
theorem issue_free (s : State) (th : Thr) (w : W64) (f : Nat → Thread → Ctx → Eff) (h : s.node.thread (thrNo th) = none) :
    s.issue th w f = s.next s.node := by simp [State.issue, h]

/-- A thread that something holds does nothing. -/
theorem issue_held (s : State) (th : Thr) (w : W64) (f : Nat → Thread → Ctx → Eff) (t : Thread) (x : Ctx)
    (h : s.node.thread (thrNo th) = some t) (hx : s.node.ctx t.ctx = some x) (hc : s.node.canIssue (thrNo th) t = false) :
    s.issue th w f = s.next s.node := by simp [State.issue, h, hx, hc]

/-- A PC outside the program. -/
theorem issue_outside (s : State) (th : Thr) (w : W64) (f : Nat → Thread → Ctx → Eff) (t : Thread) (x : Ctx)
    (h : s.node.thread (thrNo th) = some t) (hx : s.node.ctx t.ctx = some x) (hc : s.node.canIssue (thrNo th) t = true)
    (hp : t.pc < t.lo ∨ t.hi ≤ t.pc) : s.issue th w f = s.settled (s.node.threadFault (thrNo th) t.pc 0x0165 w.toNat 0) := by
  simp [State.issue, h, hx, hc, hp]

/-- A reserved word in the store (06 R188). -/
theorem issue_reserved (s : State) (th : Thr) (w : W64) (f : Nat → Thread → Ctx → Eff) (t : Thread) (x : Ctx)
    (h : s.node.thread (thrNo th) = some t) (hx : s.node.ctx t.ctx = some x) (hc : s.node.canIssue (thrNo th) t = true)
    (hl : t.lo ≤ t.pc) (hh : t.pc < t.hi) (hr : s.node.reservedAt t.pc = true) :
    s.issue th w f = s.settled (s.node.threadFault (thrNo th) t.pc 0x0160 (s.node.instrAt t.pc) 0) := by
  have : ¬ (t.pc < t.lo ∨ t.hi ≤ t.pc) := by omega
  simp [State.issue, h, hx, hc, hr, this]

/-- Another word in the store. -/
theorem issue_other (s : State) (th : Thr) (w : W64) (f : Nat → Thread → Ctx → Eff) (t : Thread) (x : Ctx)
    (h : s.node.thread (thrNo th) = some t) (hx : s.node.ctx t.ctx = some x) (hc : s.node.canIssue (thrNo th) t = true)
    (hl : t.lo ≤ t.pc) (hh : t.pc < t.hi) (hr : s.node.reservedAt t.pc = false) (hf : s.node.fetched t.pc w = false) :
    s.issue th w f = s.next s.node := by
  have : ¬ (t.pc < t.lo ∨ t.hi ≤ t.pc) := by omega
  simp [State.issue, h, hx, hc, hr, hf, this]

/-- An instruction that issues ends as its effect says. -/
theorem issue_eff (s : State) (th : Thr) (w : W64) (f : Nat → Thread → Ctx → Eff) (t : Thread) (x : Ctx)
    (h : s.node.thread (thrNo th) = some t) (hx : s.node.ctx t.ctx = some x) (hc : s.node.canIssue (thrNo th) t = true)
    (hl : t.lo ≤ t.pc) (hh : t.pc < t.hi) (hr : s.node.reservedAt t.pc = false) (hf : s.node.fetched t.pc w = true) :
    s.issue th w f = match f (thrNo th) t x with
      | .fault c a => s.settled (s.node.threadFault (thrNo th) t.pc c w.toNat a)
      | .stall => s.next s.node
      | .done m => s.settled m := by
  have : ¬ (t.pc < t.lo ∨ t.hi ≤ t.pc) := by omega
  simp only [State.issue, h, hx, hc, hr, hf]
  simp only [Bool.not_true, Bool.false_eq_true, if_false]
  refine (if_neg (by simpa using this)).trans ?_
  cases f (thrNo th) t x <;> rfl

theorem regOp_done (n : Node) (k : Nat) (t t' : Thread) (regs consumed : List Dst) (hr : ∀ r ∈ regs, n.pendingReg k r = false)
    (hc : ∀ r ∈ consumed, t.poisoned r = false) : n.regOp k t regs consumed t' = .done (n.setThread k t'.step) := by
  have h1 : regs.any (n.pendingReg k) = false := by simpa using hr
  have h2 : consumed.any t.poisoned = false := by simpa using hc
  simp [Node.regOp, h1, h2]

theorem regOp_stall (n : Node) (k : Nat) (t t' : Thread) (regs consumed : List Dst) (hr : ¬ ∀ r ∈ regs, n.pendingReg k r = false) :
    n.regOp k t regs consumed t' = .stall := by
  have h1 : regs.any (n.pendingReg k) = true := by simpa using hr
  simp [Node.regOp, h1]

theorem regOp_poisoned (n : Node) (k : Nat) (t t' : Thread) (regs consumed : List Dst) (hr : ∀ r ∈ regs, n.pendingReg k r = false)
    (hc : ¬ ∀ r ∈ consumed, t.poisoned r = false) : n.regOp k t regs consumed t' = .fault 0x0530 0 := by
  have h1 : regs.any (n.pendingReg k) = false := by simpa using hr
  have h2 : consumed.any t.poisoned = true := by simpa using hc
  simp [Node.regOp, h1, h2]

end Sys2Proof.Machine
end

