-- ==== Sys2Proof/Laws/Arrivals.lean ====
section
/-! SUPPORT. What the shared ways in do when their checks pass: SPDM requests, messages of a session, privileged operations,
packets, requests to the leader. -/

namespace Sys2Proof.Machine

/-- A privileged operation without a failure code, with room in the audit log (14 R462, R463). -/
theorem privileged_passes (n : Node) (a : AuditAct) (f : Node → Node) (h : n.auditOk = true) : n.privileged a 0 f = (0, f (n.audit a 0)) := by
  simp [Node.privileged, h]

/-- An SPDM request whose channel is up, for a valid tenant, in its order (14 R450). -/
theorem spdm_passes (s : State) (c : Chan) (need : SpdmConn → Bool) (f : Node → Node) (up : s.node.chanUp c = true)
    (valid : ∀ t, c = .vfDoe t → (s.node.ten t.val).valid = true) (order : need (s.node.conn c) = true) : s.spdm c need f = s.settled (f s.node) := by
  cases c with
  | vfDoe t => simp [State.spdm, up, order, valid t rfl]
  | mctp => simp [State.spdm, up, order]
  | pfDoe => simp [State.spdm, up, order]

/-- A message of a session of the state that it needs (14 R451). -/
theorem inSession_passes (s : State) (i : Nat) (est : Bool) (f : Node → Session → Node) (x : Session) (h : s.node.session i = some x)
    (e : x.established = est) (up : s.node.chanUp x.chan = true) : s.inSession i est f = s.settled (f s.node x) := by
  simp [State.inSession, h, e, up]

/-- An operation of an established session that may ask for it (14 R457). -/
theorem vendor_passes (s : State) (i : Nat) (kind : Session → Bool) (f : Node → Session → Nat × Node) (x : Session) (h : s.node.session i = some x)
    (e : x.established = true) (up : s.node.chanUp x.chan = true) (may : kind x = true) :
    s.vendor i kind f = s.settled ((f s.node x).2.emit (.vendor i (f s.node x).1)) := by
  simp [State.vendor, h, e, up, may]

/-- A packet for this node, by an UP port, while the node serves (12 R365). -/
theorem arrive_here (s : State) (p : Packet) (f : Node → Node) (port : (s.node.port p.port).state = 5) (dst : p.dst = s.node.dev.node)
    (up : s.node.dataUp = true) : s.arrive p f = s.settled (f s.node) := by
  simp [State.arrive, port, dst, up]

/-- A packet for another node (12 R365). -/
theorem arrive_other (s : State) (p : Packet) (f : Node → Node) (port : (s.node.port p.port).state = 5) (dst : p.dst ≠ s.node.dev.node) :
    s.arrive p f = s.settled (s.node.forward p) := by
  simp [State.arrive, port, dst]

/-- A request to the leader, at the leader (15 R478). -/
theorem pelRequest_leads (s : State) (q kind : Nat) (f : Node → Admitted → Nat × Node) (a : Admitted) (h : s.node.mHead q 0x3F = some a)
    (k : a.item.arg 0 = kind) (on : s.node.pelOn = true) (l : s.node.leads = true) :
    s.pelRequest q kind f = s.settled ((f s.node a).2.doneM q a (done (f s.node a).1)) := by
  rw [State.pelRequest, runM_some s q 0x3F _ a h]
  simp [k, on, l]

end Sys2Proof.Machine
end

