-- ==== Sys2Proof/Laws/Registers.lean ====
section
/-! SUPPORT. What a register access that 00 R556 lets through does. -/

namespace Sys2Proof.Machine

/-- The node once an act is in the audit log. -/
def Node.acted (n : Node) (src : Src) (r : Option Role) (a : RegAt) (v : Nat) : Node :=
  match r with
  | some r => n.audit (n.regAct src (some r) a.off v) 0
  | none => n

/-- One register other than `MGT_MBOX_CTL`, every check passed. -/
theorem writeOne_passes (n : Node) (src : Src) (h : List Role → Option Role) (a : RegAt) (v : Nat) (b : Bool) (r : Option Role)
    (hn : a.row.name ≠ .mboxCtl) (role : n.writeRole src h a v = (0, r)) (wr : a.row.mask (fun x => x != .ro) ≠ 0)
    (rsv : a.row.reserved v = 0) (rng : n.regCheck a.row.name a.idx (v &&& a.row.mask fun x => x != .ro) = 0)
    (aud : r.isSome = true → n.auditOk = true) :
    n.writeOne src h a v b = (0, (n.acted src r a v).regEffect src a (v &&& a.row.mask fun x => x != .ro)) := by
  cases r with
  | none => simp [Node.writeOne, role, wr, rsv, rng, hn, Node.acted]
  | some r => simp [Node.writeOne, role, wr, rsv, rng, hn, Node.acted, Node.privileged, aud rfl]

/-- One whole register, its checks passed. -/
theorem writeRegs_one (n m : Node) (src : Src) (f : Node → RegAt → Nat → Nat × Node) (a : RegAt) (v : Nat)
    (fits : v < 2 ^ (8 * a.row.width)) (h : f n a v = (0, m)) : n.writeRegs src f [a] v = (0, m) := by
  simp [Node.writeRegs, Nat.mod_eq_of_lt fits, h]

/-- A write by the PF or the firmware of one whole register, its checks passed. -/
theorem writeReg_passes (n m : Node) (src : Src) (a : RegAt) (v : Nat) (b : Bool) (hs : src = .pf ∨ src = .fw)
    (whole : cover bar0Rows true a.off a.row.width = .regs [a]) (inside : a.off + a.row.width ≤ 0x4000000)
    (kept : n.dev.pewter = false ∨ pewterKeeps a.off = true) (fits : v < 2 ^ (8 * a.row.width))
    (h : n.writeOne src (n.roleOf src) a v b = (0, m)) : n.writeReg src a.off a.row.width v b = m := by
  have e := writeRegs_one n m src (fun s a v => s.writeOne src (s.roleOf src) a v b) a v fits h
  have k : (n.dev.pewter && !pewterKeeps a.off) = false := by rcases kept with k | k <;> simp [k]
  rcases hs with rfl | rfl <;> simp [Node.writeReg, Node.access, Node.srcOk, Nat.not_lt.mpr inside, k, whole, e]

/-- The same by the register's name. -/
theorem writeNamed_passes (n m : Node) (src : Src) (name : RegName) (i : Nat) (a : RegAt) (v : Nat) (b : Bool) (hs : src = .pf ∨ src = .fw)
    (found : findReg bar0Rows (regOff name i) = some a)
    (whole : cover bar0Rows true a.off a.row.width = .regs [a]) (inside : a.off + a.row.width ≤ 0x4000000)
    (kept : n.dev.pewter = false ∨ pewterKeeps a.off = true) (fits : v < 2 ^ (8 * a.row.width))
    (h : n.writeOne src (n.roleOf src) a v b = (0, m)) : n.writeNamed src name i v b = m := by
  simp [Node.writeNamed, found, writeReg_passes n m src a v b hs whole inside kept fits h]

/-- A read by the PF of one whole register that its role may read. -/
theorem readReg_passes (n : Node) (a : RegAt) (whole : cover bar0Rows false a.off a.row.width = .regs [a])
    (inside : a.off + a.row.width ≤ 0x4000000) (kept : n.dev.pewter = false ∨ pewterKeeps a.off = true)
    (may : readerOk (n.roleOf .pf) a = true) : n.readReg .pf a.off a.row.width =
      (n.readEffect .pf a).emit (.readData .pf (n.regValueAt a % 2 ^ (8 * a.row.width))) := by
  have k : (n.dev.pewter && !pewterKeeps a.off) = false := by rcases kept with k | k <;> simp [k]
  simp [Node.readReg, Node.readAccess, Node.srcOk, Nat.not_lt.mpr inside, k, whole, Node.readRegs, may]

end Sys2Proof.Machine
end

