-- ==== Sys2Proof/Laws/State.lean ====
section
/-! SUPPORT. What each update of the node and of a thread leaves of each field: one lemma per field per update, and what an
accessor reads after an update. No proof need unfold a record update. -/

namespace Sys2Proof.Machine

/-! ### `Node.setThread` -/

@[simp] theorem Node.setThread_fuses (n : Node) (k : Nat) (t : Thread) : (n.setThread k t).fuses = n.fuses := rfl
@[simp] theorem Node.setThread_qspi (n : Node) (k : Nat) (t : Thread) : (n.setThread k t).qspi = n.qspi := rfl
@[simp] theorem Node.setThread_dev (n : Node) (k : Nat) (t : Thread) : (n.setThread k t).dev = n.dev := rfl
@[simp] theorem Node.setThread_mgt (n : Node) (k : Nat) (t : Thread) : (n.setThread k t).mgt = n.mgt := rfl
@[simp] theorem Node.setThread_power (n : Node) (k : Nat) (t : Thread) : (n.setThread k t).power = n.power := rfl
@[simp] theorem Node.setThread_mbox (n : Node) (k : Nat) (t : Thread) : (n.setThread k t).mbox = n.mbox := rfl
@[simp] theorem Node.setThread_log (n : Node) (k : Nat) (t : Thread) : (n.setThread k t).log = n.log := rfl
@[simp] theorem Node.setThread_snap (n : Node) (k : Nat) (t : Thread) : (n.setThread k t).snap = n.snap := rfl
@[simp] theorem Node.setThread_sec (n : Node) (k : Nat) (t : Thread) : (n.setThread k t).sec = n.sec := rfl
@[simp] theorem Node.setThread_hif (n : Node) (k : Nat) (t : Thread) : (n.setThread k t).hif = n.hif := rfl
@[simp] theorem Node.setThread_qsy (n : Node) (k : Nat) (t : Thread) : (n.setThread k t).qsy = n.qsy := rfl
@[simp] theorem Node.setThread_adm (n : Node) (k : Nat) (t : Thread) : (n.setThread k t).adm = n.adm := rfl
@[simp] theorem Node.setThread_index (n : Node) (k : Nat) (t : Thread) : (n.setThread k t).index = n.index := rfl
@[simp] theorem Node.setThread_spokes_threads (n : Node) (k : Nat) (t : Thread) : (n.setThread k t).spokes.threads = KList.put n.spokes.threads k t := rfl
@[simp] theorem Node.setThread_spokes_ctxs (n : Node) (k : Nat) (t : Thread) : (n.setThread k t).spokes.ctxs = n.spokes.ctxs := rfl
@[simp] theorem Node.setThread_spokes_accesses (n : Node) (k : Nat) (t : Thread) : (n.setThread k t).spokes.accesses = n.spokes.accesses := rfl
@[simp] theorem Node.setThread_spokes_istore (n : Node) (k : Nat) (t : Thread) : (n.setThread k t).spokes.istore = n.spokes.istore := rfl
@[simp] theorem Node.setThread_spokes_progs (n : Node) (k : Nat) (t : Thread) : (n.setThread k t).spokes.progs = n.spokes.progs := rfl
@[simp] theorem Node.setThread_spokes_pfaultCnt (n : Node) (k : Nat) (t : Thread) : (n.setThread k t).spokes.pfaultCnt = n.spokes.pfaultCnt := rfl
@[simp] theorem Node.setThread_spokes_pfaultLast (n : Node) (k : Nat) (t : Thread) : (n.setThread k t).spokes.pfaultLast = n.spokes.pfaultLast := rfl
@[simp] theorem Node.setThread_spokes_retired (n : Node) (k : Nat) (t : Thread) : (n.setThread k t).spokes.retired = n.spokes.retired := rfl
@[simp] theorem Node.setThread_spokes_katAt (n : Node) (k : Nat) (t : Thread) : (n.setThread k t).spokes.katAt = n.spokes.katAt := rfl
@[simp] theorem Node.setThread_sel (n : Node) (k : Nat) (t : Thread) : (n.setThread k t).sel = n.sel := rfl
@[simp] theorem Node.setThread_cas (n : Node) (k : Nat) (t : Thread) : (n.setThread k t).cas = n.cas := rfl
@[simp] theorem Node.setThread_store (n : Node) (k : Nat) (t : Thread) : (n.setThread k t).store = n.store := rfl
@[simp] theorem Node.setThread_mem (n : Node) (k : Nat) (t : Thread) : (n.setThread k t).mem = n.mem := rfl
@[simp] theorem Node.setThread_flash (n : Node) (k : Nat) (t : Thread) : (n.setThread k t).flash = n.flash := rfl
@[simp] theorem Node.setThread_links (n : Node) (k : Nat) (t : Thread) : (n.setThread k t).links = n.links := rfl
@[simp] theorem Node.setThread_fabric (n : Node) (k : Nat) (t : Thread) : (n.setThread k t).fabric = n.fabric := rfl
@[simp] theorem Node.setThread_peloton (n : Node) (k : Nat) (t : Thread) : (n.setThread k t).peloton = n.peloton := rfl
@[simp] theorem Node.setThread_regs (n : Node) (k : Nat) (t : Thread) : (n.setThread k t).regs = n.regs := rfl
@[simp] theorem Node.setThread_out (n : Node) (k : Nat) (t : Thread) : (n.setThread k t).out = n.out := rfl
@[simp] theorem Node.setThread_clk (n : Node) (k : Nat) (t : Thread) : (n.setThread k t).clk = n.clk := rfl
@[simp] theorem Node.setThread_freeCtr (n : Node) (k : Nat) (t : Thread) : (n.setThread k t).freeCtr = n.freeCtr := rfl
@[simp] theorem Node.setThread_nextId (n : Node) (k : Nat) (t : Thread) : (n.setThread k t).nextId = n.nextId := rfl
@[simp] theorem Node.setThread_ctx' (n : Node) (k : Nat) (t : Thread) (j : Nat) : (n.setThread k t).ctx j = n.ctx j := rfl
@[simp] theorem Node.setThread_acc' (n : Node) (k : Nat) (t : Thread) (j : Nat) : (n.setThread k t).acc j = n.acc j := rfl
@[simp] theorem Node.setThread_reg' (n : Node) (k : Nat) (t : Thread) (m : RegName) (j : Nat) : (n.setThread k t).reg m j = n.reg m j := rfl
@[simp] theorem Node.setThread_queue' (n : Node) (k : Nat) (t : Thread) (j : Nat) : (n.setThread k t).queue j = n.queue j := rfl
@[simp] theorem Node.setThread_qcfg' (n : Node) (k : Nat) (t : Thread) (j : Nat) : (n.setThread k t).qcfg j = n.qcfg j := rfl
@[simp] theorem Node.setThread_sync' (n : Node) (k : Nat) (t : Thread) (j : Nat) : (n.setThread k t).sync j = n.sync j := rfl
@[simp] theorem Node.setThread_client' (n : Node) (k : Nat) (t : Thread) (j : Nat) : (n.setThread k t).client j = n.client j := rfl
@[simp] theorem Node.setThread_cliId' (n : Node) (k : Nat) (t : Thread) (j : Nat) : (n.setThread k t).cliId j = n.cliId j := rfl
@[simp] theorem Node.setThread_slot' (n : Node) (k : Nat) (t : Thread) (j : Nat) : (n.setThread k t).slot j = n.slot j := rfl
@[simp] theorem Node.setThread_tile' (n : Node) (k : Nat) (t : Thread) (j : Nat) : (n.setThread k t).tile j = n.tile j := rfl
@[simp] theorem Node.setThread_port' (n : Node) (k : Nat) (t : Thread) (j : Nat) : (n.setThread k t).port j = n.port j := rfl
@[simp] theorem Node.setThread_job' (n : Node) (k : Nat) (t : Thread) (j : Nat) : (n.setThread k t).job j = n.job j := rfl
@[simp] theorem Node.setThread_session' (n : Node) (k : Nat) (t : Thread) (j : Nat) : (n.setThread k t).session j = n.session j := rfl
@[simp] theorem Node.setThread_ten' (n : Node) (k : Nat) (t : Thread) (j : Nat) : (n.setThread k t).ten j = n.ten j := rfl
@[simp] theorem Node.setThread_kslot' (n : Node) (k : Nat) (t : Thread) (j : Nat) : (n.setThread k t).kslot j = n.kslot j := rfl
@[simp] theorem Node.setThread_region' (n : Node) (k : Nat) (t : Thread) (p g : Nat) : (n.setThread k t).region p g = n.region p g := rfl
@[simp] theorem Node.setThread_read' (n : Node) (k : Nat) (t : Thread) (p c w : Nat) : (n.setThread k t).read p c w = n.read p c w := rfl
@[simp] theorem Node.setThread_dataUp' (n : Node) (k : Nat) (t : Thread) : (n.setThread k t).dataUp = n.dataUp := rfl
@[simp] theorem Node.setThread_linksUp' (n : Node) (k : Nat) (t : Thread) : (n.setThread k t).linksUp = n.linksUp := rfl
@[simp] theorem Node.setThread_now' (n : Node) (k : Nat) (t : Thread) : (n.setThread k t).now = n.now := rfl
@[simp] theorem Node.setThread_fixedSlot' (n : Node) (k : Nat) (t : Thread) : (n.setThread k t).fixedSlot = n.fixedSlot := rfl
@[simp] theorem Node.setThread_auditOk' (n : Node) (k : Nat) (t : Thread) : (n.setThread k t).auditOk = n.auditOk := rfl

/-! ### `Node.setCtx` -/

@[simp] theorem Node.setCtx_fuses (n : Node) (k : Nat) (x : Ctx) : (n.setCtx k x).fuses = n.fuses := rfl
@[simp] theorem Node.setCtx_qspi (n : Node) (k : Nat) (x : Ctx) : (n.setCtx k x).qspi = n.qspi := rfl
@[simp] theorem Node.setCtx_dev (n : Node) (k : Nat) (x : Ctx) : (n.setCtx k x).dev = n.dev := rfl
@[simp] theorem Node.setCtx_mgt (n : Node) (k : Nat) (x : Ctx) : (n.setCtx k x).mgt = n.mgt := rfl
@[simp] theorem Node.setCtx_power (n : Node) (k : Nat) (x : Ctx) : (n.setCtx k x).power = n.power := rfl
@[simp] theorem Node.setCtx_mbox (n : Node) (k : Nat) (x : Ctx) : (n.setCtx k x).mbox = n.mbox := rfl
@[simp] theorem Node.setCtx_log (n : Node) (k : Nat) (x : Ctx) : (n.setCtx k x).log = n.log := rfl
@[simp] theorem Node.setCtx_snap (n : Node) (k : Nat) (x : Ctx) : (n.setCtx k x).snap = n.snap := rfl
@[simp] theorem Node.setCtx_sec (n : Node) (k : Nat) (x : Ctx) : (n.setCtx k x).sec = n.sec := rfl
@[simp] theorem Node.setCtx_hif (n : Node) (k : Nat) (x : Ctx) : (n.setCtx k x).hif = n.hif := rfl
@[simp] theorem Node.setCtx_qsy (n : Node) (k : Nat) (x : Ctx) : (n.setCtx k x).qsy = n.qsy := rfl
@[simp] theorem Node.setCtx_adm (n : Node) (k : Nat) (x : Ctx) : (n.setCtx k x).adm = n.adm := rfl
@[simp] theorem Node.setCtx_index (n : Node) (k : Nat) (x : Ctx) : (n.setCtx k x).index = n.index := rfl
@[simp] theorem Node.setCtx_spokes_threads (n : Node) (k : Nat) (x : Ctx) : (n.setCtx k x).spokes.threads = n.spokes.threads := rfl
@[simp] theorem Node.setCtx_spokes_ctxs (n : Node) (k : Nat) (x : Ctx) : (n.setCtx k x).spokes.ctxs = KList.put n.spokes.ctxs k x := rfl
@[simp] theorem Node.setCtx_spokes_accesses (n : Node) (k : Nat) (x : Ctx) : (n.setCtx k x).spokes.accesses = n.spokes.accesses := rfl
@[simp] theorem Node.setCtx_spokes_istore (n : Node) (k : Nat) (x : Ctx) : (n.setCtx k x).spokes.istore = n.spokes.istore := rfl
@[simp] theorem Node.setCtx_spokes_progs (n : Node) (k : Nat) (x : Ctx) : (n.setCtx k x).spokes.progs = n.spokes.progs := rfl
@[simp] theorem Node.setCtx_spokes_pfaultCnt (n : Node) (k : Nat) (x : Ctx) : (n.setCtx k x).spokes.pfaultCnt = n.spokes.pfaultCnt := rfl
@[simp] theorem Node.setCtx_spokes_pfaultLast (n : Node) (k : Nat) (x : Ctx) : (n.setCtx k x).spokes.pfaultLast = n.spokes.pfaultLast := rfl
@[simp] theorem Node.setCtx_spokes_retired (n : Node) (k : Nat) (x : Ctx) : (n.setCtx k x).spokes.retired = n.spokes.retired := rfl
@[simp] theorem Node.setCtx_spokes_katAt (n : Node) (k : Nat) (x : Ctx) : (n.setCtx k x).spokes.katAt = n.spokes.katAt := rfl
@[simp] theorem Node.setCtx_sel (n : Node) (k : Nat) (x : Ctx) : (n.setCtx k x).sel = n.sel := rfl
@[simp] theorem Node.setCtx_cas (n : Node) (k : Nat) (x : Ctx) : (n.setCtx k x).cas = n.cas := rfl
@[simp] theorem Node.setCtx_store (n : Node) (k : Nat) (x : Ctx) : (n.setCtx k x).store = n.store := rfl
@[simp] theorem Node.setCtx_mem (n : Node) (k : Nat) (x : Ctx) : (n.setCtx k x).mem = n.mem := rfl
@[simp] theorem Node.setCtx_flash (n : Node) (k : Nat) (x : Ctx) : (n.setCtx k x).flash = n.flash := rfl
@[simp] theorem Node.setCtx_links (n : Node) (k : Nat) (x : Ctx) : (n.setCtx k x).links = n.links := rfl
@[simp] theorem Node.setCtx_fabric (n : Node) (k : Nat) (x : Ctx) : (n.setCtx k x).fabric = n.fabric := rfl
@[simp] theorem Node.setCtx_peloton (n : Node) (k : Nat) (x : Ctx) : (n.setCtx k x).peloton = n.peloton := rfl
@[simp] theorem Node.setCtx_regs (n : Node) (k : Nat) (x : Ctx) : (n.setCtx k x).regs = n.regs := rfl
@[simp] theorem Node.setCtx_out (n : Node) (k : Nat) (x : Ctx) : (n.setCtx k x).out = n.out := rfl
@[simp] theorem Node.setCtx_clk (n : Node) (k : Nat) (x : Ctx) : (n.setCtx k x).clk = n.clk := rfl
@[simp] theorem Node.setCtx_freeCtr (n : Node) (k : Nat) (x : Ctx) : (n.setCtx k x).freeCtr = n.freeCtr := rfl
@[simp] theorem Node.setCtx_nextId (n : Node) (k : Nat) (x : Ctx) : (n.setCtx k x).nextId = n.nextId := rfl
@[simp] theorem Node.setCtx_thread' (n : Node) (k : Nat) (x : Ctx) (j : Nat) : (n.setCtx k x).thread j = n.thread j := rfl
@[simp] theorem Node.setCtx_acc' (n : Node) (k : Nat) (x : Ctx) (j : Nat) : (n.setCtx k x).acc j = n.acc j := rfl
@[simp] theorem Node.setCtx_reg' (n : Node) (k : Nat) (x : Ctx) (m : RegName) (j : Nat) : (n.setCtx k x).reg m j = n.reg m j := rfl
@[simp] theorem Node.setCtx_queue' (n : Node) (k : Nat) (x : Ctx) (j : Nat) : (n.setCtx k x).queue j = n.queue j := rfl
@[simp] theorem Node.setCtx_qcfg' (n : Node) (k : Nat) (x : Ctx) (j : Nat) : (n.setCtx k x).qcfg j = n.qcfg j := rfl
@[simp] theorem Node.setCtx_sync' (n : Node) (k : Nat) (x : Ctx) (j : Nat) : (n.setCtx k x).sync j = n.sync j := rfl
@[simp] theorem Node.setCtx_client' (n : Node) (k : Nat) (x : Ctx) (j : Nat) : (n.setCtx k x).client j = n.client j := rfl
@[simp] theorem Node.setCtx_cliId' (n : Node) (k : Nat) (x : Ctx) (j : Nat) : (n.setCtx k x).cliId j = n.cliId j := rfl
@[simp] theorem Node.setCtx_slot' (n : Node) (k : Nat) (x : Ctx) (j : Nat) : (n.setCtx k x).slot j = n.slot j := rfl
@[simp] theorem Node.setCtx_tile' (n : Node) (k : Nat) (x : Ctx) (j : Nat) : (n.setCtx k x).tile j = n.tile j := rfl
@[simp] theorem Node.setCtx_port' (n : Node) (k : Nat) (x : Ctx) (j : Nat) : (n.setCtx k x).port j = n.port j := rfl
@[simp] theorem Node.setCtx_job' (n : Node) (k : Nat) (x : Ctx) (j : Nat) : (n.setCtx k x).job j = n.job j := rfl
@[simp] theorem Node.setCtx_session' (n : Node) (k : Nat) (x : Ctx) (j : Nat) : (n.setCtx k x).session j = n.session j := rfl
@[simp] theorem Node.setCtx_ten' (n : Node) (k : Nat) (x : Ctx) (j : Nat) : (n.setCtx k x).ten j = n.ten j := rfl
@[simp] theorem Node.setCtx_kslot' (n : Node) (k : Nat) (x : Ctx) (j : Nat) : (n.setCtx k x).kslot j = n.kslot j := rfl
@[simp] theorem Node.setCtx_region' (n : Node) (k : Nat) (x : Ctx) (p g : Nat) : (n.setCtx k x).region p g = n.region p g := rfl
@[simp] theorem Node.setCtx_read' (n : Node) (k : Nat) (x : Ctx) (p c w : Nat) : (n.setCtx k x).read p c w = n.read p c w := rfl
@[simp] theorem Node.setCtx_dataUp' (n : Node) (k : Nat) (x : Ctx) : (n.setCtx k x).dataUp = n.dataUp := rfl
@[simp] theorem Node.setCtx_linksUp' (n : Node) (k : Nat) (x : Ctx) : (n.setCtx k x).linksUp = n.linksUp := rfl
@[simp] theorem Node.setCtx_now' (n : Node) (k : Nat) (x : Ctx) : (n.setCtx k x).now = n.now := rfl
@[simp] theorem Node.setCtx_fixedSlot' (n : Node) (k : Nat) (x : Ctx) : (n.setCtx k x).fixedSlot = n.fixedSlot := rfl
@[simp] theorem Node.setCtx_auditOk' (n : Node) (k : Nat) (x : Ctx) : (n.setCtx k x).auditOk = n.auditOk := rfl

/-! ### `Node.endAccess` -/

@[simp] theorem Node.endAccess_fuses (n : Node) (k : Nat) : (n.endAccess k).fuses = n.fuses := rfl
@[simp] theorem Node.endAccess_qspi (n : Node) (k : Nat) : (n.endAccess k).qspi = n.qspi := rfl
@[simp] theorem Node.endAccess_dev (n : Node) (k : Nat) : (n.endAccess k).dev = n.dev := rfl
@[simp] theorem Node.endAccess_mgt (n : Node) (k : Nat) : (n.endAccess k).mgt = n.mgt := rfl
@[simp] theorem Node.endAccess_power (n : Node) (k : Nat) : (n.endAccess k).power = n.power := rfl
@[simp] theorem Node.endAccess_mbox (n : Node) (k : Nat) : (n.endAccess k).mbox = n.mbox := rfl
@[simp] theorem Node.endAccess_log (n : Node) (k : Nat) : (n.endAccess k).log = n.log := rfl
@[simp] theorem Node.endAccess_snap (n : Node) (k : Nat) : (n.endAccess k).snap = n.snap := rfl
@[simp] theorem Node.endAccess_sec (n : Node) (k : Nat) : (n.endAccess k).sec = n.sec := rfl
@[simp] theorem Node.endAccess_hif (n : Node) (k : Nat) : (n.endAccess k).hif = n.hif := rfl
@[simp] theorem Node.endAccess_qsy (n : Node) (k : Nat) : (n.endAccess k).qsy = n.qsy := rfl
@[simp] theorem Node.endAccess_adm (n : Node) (k : Nat) : (n.endAccess k).adm = n.adm := rfl
@[simp] theorem Node.endAccess_index (n : Node) (k : Nat) : (n.endAccess k).index = n.index := rfl
@[simp] theorem Node.endAccess_spokes_threads (n : Node) (k : Nat) : (n.endAccess k).spokes.threads = n.spokes.threads := rfl
@[simp] theorem Node.endAccess_spokes_ctxs (n : Node) (k : Nat) : (n.endAccess k).spokes.ctxs = n.spokes.ctxs := rfl
@[simp] theorem Node.endAccess_spokes_accesses (n : Node) (k : Nat) : (n.endAccess k).spokes.accesses = KList.del n.spokes.accesses k := rfl
@[simp] theorem Node.endAccess_spokes_istore (n : Node) (k : Nat) : (n.endAccess k).spokes.istore = n.spokes.istore := rfl
@[simp] theorem Node.endAccess_spokes_progs (n : Node) (k : Nat) : (n.endAccess k).spokes.progs = n.spokes.progs := rfl
@[simp] theorem Node.endAccess_spokes_pfaultCnt (n : Node) (k : Nat) : (n.endAccess k).spokes.pfaultCnt = n.spokes.pfaultCnt := rfl
@[simp] theorem Node.endAccess_spokes_pfaultLast (n : Node) (k : Nat) : (n.endAccess k).spokes.pfaultLast = n.spokes.pfaultLast := rfl
@[simp] theorem Node.endAccess_spokes_retired (n : Node) (k : Nat) : (n.endAccess k).spokes.retired = n.spokes.retired := rfl
@[simp] theorem Node.endAccess_spokes_katAt (n : Node) (k : Nat) : (n.endAccess k).spokes.katAt = n.spokes.katAt := rfl
@[simp] theorem Node.endAccess_sel (n : Node) (k : Nat) : (n.endAccess k).sel = n.sel := rfl
@[simp] theorem Node.endAccess_cas (n : Node) (k : Nat) : (n.endAccess k).cas = n.cas := rfl
@[simp] theorem Node.endAccess_store (n : Node) (k : Nat) : (n.endAccess k).store = n.store := rfl
@[simp] theorem Node.endAccess_mem (n : Node) (k : Nat) : (n.endAccess k).mem = n.mem := rfl
@[simp] theorem Node.endAccess_flash (n : Node) (k : Nat) : (n.endAccess k).flash = n.flash := rfl
@[simp] theorem Node.endAccess_links (n : Node) (k : Nat) : (n.endAccess k).links = n.links := rfl
@[simp] theorem Node.endAccess_fabric (n : Node) (k : Nat) : (n.endAccess k).fabric = n.fabric := rfl
@[simp] theorem Node.endAccess_peloton (n : Node) (k : Nat) : (n.endAccess k).peloton = n.peloton := rfl
@[simp] theorem Node.endAccess_regs (n : Node) (k : Nat) : (n.endAccess k).regs = n.regs := rfl
@[simp] theorem Node.endAccess_out (n : Node) (k : Nat) : (n.endAccess k).out = n.out := rfl
@[simp] theorem Node.endAccess_clk (n : Node) (k : Nat) : (n.endAccess k).clk = n.clk := rfl
@[simp] theorem Node.endAccess_freeCtr (n : Node) (k : Nat) : (n.endAccess k).freeCtr = n.freeCtr := rfl
@[simp] theorem Node.endAccess_nextId (n : Node) (k : Nat) : (n.endAccess k).nextId = n.nextId := rfl
@[simp] theorem Node.endAccess_thread' (n : Node) (k : Nat) (j : Nat) : (n.endAccess k).thread j = n.thread j := rfl
@[simp] theorem Node.endAccess_ctx' (n : Node) (k : Nat) (j : Nat) : (n.endAccess k).ctx j = n.ctx j := rfl
@[simp] theorem Node.endAccess_reg' (n : Node) (k : Nat) (m : RegName) (j : Nat) : (n.endAccess k).reg m j = n.reg m j := rfl
@[simp] theorem Node.endAccess_queue' (n : Node) (k : Nat) (j : Nat) : (n.endAccess k).queue j = n.queue j := rfl
@[simp] theorem Node.endAccess_qcfg' (n : Node) (k : Nat) (j : Nat) : (n.endAccess k).qcfg j = n.qcfg j := rfl
@[simp] theorem Node.endAccess_sync' (n : Node) (k : Nat) (j : Nat) : (n.endAccess k).sync j = n.sync j := rfl
@[simp] theorem Node.endAccess_client' (n : Node) (k : Nat) (j : Nat) : (n.endAccess k).client j = n.client j := rfl
@[simp] theorem Node.endAccess_cliId' (n : Node) (k : Nat) (j : Nat) : (n.endAccess k).cliId j = n.cliId j := rfl
@[simp] theorem Node.endAccess_slot' (n : Node) (k : Nat) (j : Nat) : (n.endAccess k).slot j = n.slot j := rfl
@[simp] theorem Node.endAccess_tile' (n : Node) (k : Nat) (j : Nat) : (n.endAccess k).tile j = n.tile j := rfl
@[simp] theorem Node.endAccess_port' (n : Node) (k : Nat) (j : Nat) : (n.endAccess k).port j = n.port j := rfl
@[simp] theorem Node.endAccess_job' (n : Node) (k : Nat) (j : Nat) : (n.endAccess k).job j = n.job j := rfl
@[simp] theorem Node.endAccess_session' (n : Node) (k : Nat) (j : Nat) : (n.endAccess k).session j = n.session j := rfl
@[simp] theorem Node.endAccess_ten' (n : Node) (k : Nat) (j : Nat) : (n.endAccess k).ten j = n.ten j := rfl
@[simp] theorem Node.endAccess_kslot' (n : Node) (k : Nat) (j : Nat) : (n.endAccess k).kslot j = n.kslot j := rfl
@[simp] theorem Node.endAccess_region' (n : Node) (k : Nat) (p g : Nat) : (n.endAccess k).region p g = n.region p g := rfl
@[simp] theorem Node.endAccess_read' (n : Node) (k : Nat) (p c w : Nat) : (n.endAccess k).read p c w = n.read p c w := rfl
@[simp] theorem Node.endAccess_dataUp' (n : Node) (k : Nat) : (n.endAccess k).dataUp = n.dataUp := rfl
@[simp] theorem Node.endAccess_linksUp' (n : Node) (k : Nat) : (n.endAccess k).linksUp = n.linksUp := rfl
@[simp] theorem Node.endAccess_now' (n : Node) (k : Nat) : (n.endAccess k).now = n.now := rfl
@[simp] theorem Node.endAccess_fixedSlot' (n : Node) (k : Nat) : (n.endAccess k).fixedSlot = n.fixedSlot := rfl
@[simp] theorem Node.endAccess_auditOk' (n : Node) (k : Nat) : (n.endAccess k).auditOk = n.auditOk := rfl

/-! ### `Node.setReg` -/

@[simp] theorem Node.setReg_fuses (n : Node) (r : RegName) (i v : Nat) : (n.setReg r i v).fuses = n.fuses := rfl
@[simp] theorem Node.setReg_qspi (n : Node) (r : RegName) (i v : Nat) : (n.setReg r i v).qspi = n.qspi := rfl
@[simp] theorem Node.setReg_dev (n : Node) (r : RegName) (i v : Nat) : (n.setReg r i v).dev = n.dev := rfl
@[simp] theorem Node.setReg_mgt (n : Node) (r : RegName) (i v : Nat) : (n.setReg r i v).mgt = n.mgt := rfl
@[simp] theorem Node.setReg_power (n : Node) (r : RegName) (i v : Nat) : (n.setReg r i v).power = n.power := rfl
@[simp] theorem Node.setReg_mbox (n : Node) (r : RegName) (i v : Nat) : (n.setReg r i v).mbox = n.mbox := rfl
@[simp] theorem Node.setReg_log (n : Node) (r : RegName) (i v : Nat) : (n.setReg r i v).log = n.log := rfl
@[simp] theorem Node.setReg_snap (n : Node) (r : RegName) (i v : Nat) : (n.setReg r i v).snap = n.snap := rfl
@[simp] theorem Node.setReg_sec (n : Node) (r : RegName) (i v : Nat) : (n.setReg r i v).sec = n.sec := rfl
@[simp] theorem Node.setReg_hif (n : Node) (r : RegName) (i v : Nat) : (n.setReg r i v).hif = n.hif := rfl
@[simp] theorem Node.setReg_qsy (n : Node) (r : RegName) (i v : Nat) : (n.setReg r i v).qsy = n.qsy := rfl
@[simp] theorem Node.setReg_adm (n : Node) (r : RegName) (i v : Nat) : (n.setReg r i v).adm = n.adm := rfl
@[simp] theorem Node.setReg_index (n : Node) (r : RegName) (i v : Nat) : (n.setReg r i v).index = n.index := rfl
@[simp] theorem Node.setReg_spokes (n : Node) (r : RegName) (i v : Nat) : (n.setReg r i v).spokes = n.spokes := rfl
@[simp] theorem Node.setReg_sel (n : Node) (r : RegName) (i v : Nat) : (n.setReg r i v).sel = n.sel := rfl
@[simp] theorem Node.setReg_cas (n : Node) (r : RegName) (i v : Nat) : (n.setReg r i v).cas = n.cas := rfl
@[simp] theorem Node.setReg_store (n : Node) (r : RegName) (i v : Nat) : (n.setReg r i v).store = n.store := rfl
@[simp] theorem Node.setReg_mem (n : Node) (r : RegName) (i v : Nat) : (n.setReg r i v).mem = n.mem := rfl
@[simp] theorem Node.setReg_flash (n : Node) (r : RegName) (i v : Nat) : (n.setReg r i v).flash = n.flash := rfl
@[simp] theorem Node.setReg_links (n : Node) (r : RegName) (i v : Nat) : (n.setReg r i v).links = n.links := rfl
@[simp] theorem Node.setReg_fabric (n : Node) (r : RegName) (i v : Nat) : (n.setReg r i v).fabric = n.fabric := rfl
@[simp] theorem Node.setReg_peloton (n : Node) (r : RegName) (i v : Nat) : (n.setReg r i v).peloton = n.peloton := rfl
@[simp] theorem Node.setReg_regs (n : Node) (r : RegName) (i v : Nat) : (n.setReg r i v).regs = KList.put n.regs (regOff r i) v := rfl
@[simp] theorem Node.setReg_out (n : Node) (r : RegName) (i v : Nat) : (n.setReg r i v).out = n.out := rfl
@[simp] theorem Node.setReg_clk (n : Node) (r : RegName) (i v : Nat) : (n.setReg r i v).clk = n.clk := rfl
@[simp] theorem Node.setReg_freeCtr (n : Node) (r : RegName) (i v : Nat) : (n.setReg r i v).freeCtr = n.freeCtr := rfl
@[simp] theorem Node.setReg_nextId (n : Node) (r : RegName) (i v : Nat) : (n.setReg r i v).nextId = n.nextId := rfl
@[simp] theorem Node.setReg_thread' (n : Node) (r : RegName) (i v : Nat) (j : Nat) : (n.setReg r i v).thread j = n.thread j := rfl
@[simp] theorem Node.setReg_ctx' (n : Node) (r : RegName) (i v : Nat) (j : Nat) : (n.setReg r i v).ctx j = n.ctx j := rfl
@[simp] theorem Node.setReg_acc' (n : Node) (r : RegName) (i v : Nat) (j : Nat) : (n.setReg r i v).acc j = n.acc j := rfl
@[simp] theorem Node.setReg_queue' (n : Node) (r : RegName) (i v : Nat) (j : Nat) : (n.setReg r i v).queue j = n.queue j := rfl
@[simp] theorem Node.setReg_sync' (n : Node) (r : RegName) (i v : Nat) (j : Nat) : (n.setReg r i v).sync j = n.sync j := rfl
@[simp] theorem Node.setReg_client' (n : Node) (r : RegName) (i v : Nat) (j : Nat) : (n.setReg r i v).client j = n.client j := rfl
@[simp] theorem Node.setReg_slot' (n : Node) (r : RegName) (i v : Nat) (j : Nat) : (n.setReg r i v).slot j = n.slot j := rfl
@[simp] theorem Node.setReg_tile' (n : Node) (r : RegName) (i v : Nat) (j : Nat) : (n.setReg r i v).tile j = n.tile j := rfl
@[simp] theorem Node.setReg_port' (n : Node) (r : RegName) (i v : Nat) (j : Nat) : (n.setReg r i v).port j = n.port j := rfl
@[simp] theorem Node.setReg_job' (n : Node) (r : RegName) (i v : Nat) (j : Nat) : (n.setReg r i v).job j = n.job j := rfl
@[simp] theorem Node.setReg_session' (n : Node) (r : RegName) (i v : Nat) (j : Nat) : (n.setReg r i v).session j = n.session j := rfl
@[simp] theorem Node.setReg_ten' (n : Node) (r : RegName) (i v : Nat) (j : Nat) : (n.setReg r i v).ten j = n.ten j := rfl
@[simp] theorem Node.setReg_kslot' (n : Node) (r : RegName) (i v : Nat) (j : Nat) : (n.setReg r i v).kslot j = n.kslot j := rfl
@[simp] theorem Node.setReg_region' (n : Node) (r : RegName) (i v : Nat) (p g : Nat) : (n.setReg r i v).region p g = n.region p g := rfl
@[simp] theorem Node.setReg_read' (n : Node) (r : RegName) (i v : Nat) (p c w : Nat) : (n.setReg r i v).read p c w = n.read p c w := rfl
@[simp] theorem Node.setReg_dataUp' (n : Node) (r : RegName) (i v : Nat) : (n.setReg r i v).dataUp = n.dataUp := rfl
@[simp] theorem Node.setReg_linksUp' (n : Node) (r : RegName) (i v : Nat) : (n.setReg r i v).linksUp = n.linksUp := rfl
@[simp] theorem Node.setReg_now' (n : Node) (r : RegName) (i v : Nat) : (n.setReg r i v).now = n.now := rfl
@[simp] theorem Node.setReg_auditOk' (n : Node) (r : RegName) (i v : Nat) : (n.setReg r i v).auditOk = n.auditOk := rfl

/-! ### `Node.setQueue` -/

@[simp] theorem Node.setQueue_fuses (n : Node) (k : Nat) (x : Queue) : (n.setQueue k x).fuses = n.fuses := rfl
@[simp] theorem Node.setQueue_qspi (n : Node) (k : Nat) (x : Queue) : (n.setQueue k x).qspi = n.qspi := rfl
@[simp] theorem Node.setQueue_dev (n : Node) (k : Nat) (x : Queue) : (n.setQueue k x).dev = n.dev := rfl
@[simp] theorem Node.setQueue_mgt (n : Node) (k : Nat) (x : Queue) : (n.setQueue k x).mgt = n.mgt := rfl
@[simp] theorem Node.setQueue_power (n : Node) (k : Nat) (x : Queue) : (n.setQueue k x).power = n.power := rfl
@[simp] theorem Node.setQueue_mbox (n : Node) (k : Nat) (x : Queue) : (n.setQueue k x).mbox = n.mbox := rfl
@[simp] theorem Node.setQueue_log (n : Node) (k : Nat) (x : Queue) : (n.setQueue k x).log = n.log := rfl
@[simp] theorem Node.setQueue_snap (n : Node) (k : Nat) (x : Queue) : (n.setQueue k x).snap = n.snap := rfl
@[simp] theorem Node.setQueue_sec (n : Node) (k : Nat) (x : Queue) : (n.setQueue k x).sec = n.sec := rfl
@[simp] theorem Node.setQueue_hif (n : Node) (k : Nat) (x : Queue) : (n.setQueue k x).hif = n.hif := rfl
@[simp] theorem Node.setQueue_qsy_queues (n : Node) (k : Nat) (x : Queue) : (n.setQueue k x).qsy.queues = KList.put n.qsy.queues k x := rfl
@[simp] theorem Node.setQueue_qsy_syncs (n : Node) (k : Nat) (x : Queue) : (n.setQueue k x).qsy.syncs = n.qsy.syncs := rfl
@[simp] theorem Node.setQueue_qsy_epoch0 (n : Node) (k : Nat) (x : Queue) : (n.setQueue k x).qsy.epoch0 = n.qsy.epoch0 := rfl
@[simp] theorem Node.setQueue_adm (n : Node) (k : Nat) (x : Queue) : (n.setQueue k x).adm = n.adm := rfl
@[simp] theorem Node.setQueue_index (n : Node) (k : Nat) (x : Queue) : (n.setQueue k x).index = n.index := rfl
@[simp] theorem Node.setQueue_spokes (n : Node) (k : Nat) (x : Queue) : (n.setQueue k x).spokes = n.spokes := rfl
@[simp] theorem Node.setQueue_sel (n : Node) (k : Nat) (x : Queue) : (n.setQueue k x).sel = n.sel := rfl
@[simp] theorem Node.setQueue_cas (n : Node) (k : Nat) (x : Queue) : (n.setQueue k x).cas = n.cas := rfl
@[simp] theorem Node.setQueue_store (n : Node) (k : Nat) (x : Queue) : (n.setQueue k x).store = n.store := rfl
@[simp] theorem Node.setQueue_mem (n : Node) (k : Nat) (x : Queue) : (n.setQueue k x).mem = n.mem := rfl
@[simp] theorem Node.setQueue_flash (n : Node) (k : Nat) (x : Queue) : (n.setQueue k x).flash = n.flash := rfl
@[simp] theorem Node.setQueue_links (n : Node) (k : Nat) (x : Queue) : (n.setQueue k x).links = n.links := rfl
@[simp] theorem Node.setQueue_fabric (n : Node) (k : Nat) (x : Queue) : (n.setQueue k x).fabric = n.fabric := rfl
@[simp] theorem Node.setQueue_peloton (n : Node) (k : Nat) (x : Queue) : (n.setQueue k x).peloton = n.peloton := rfl
@[simp] theorem Node.setQueue_regs (n : Node) (k : Nat) (x : Queue) : (n.setQueue k x).regs = n.regs := rfl
@[simp] theorem Node.setQueue_out (n : Node) (k : Nat) (x : Queue) : (n.setQueue k x).out = n.out := rfl
@[simp] theorem Node.setQueue_clk (n : Node) (k : Nat) (x : Queue) : (n.setQueue k x).clk = n.clk := rfl
@[simp] theorem Node.setQueue_freeCtr (n : Node) (k : Nat) (x : Queue) : (n.setQueue k x).freeCtr = n.freeCtr := rfl
@[simp] theorem Node.setQueue_nextId (n : Node) (k : Nat) (x : Queue) : (n.setQueue k x).nextId = n.nextId := rfl
@[simp] theorem Node.setQueue_thread' (n : Node) (k : Nat) (x : Queue) (j : Nat) : (n.setQueue k x).thread j = n.thread j := rfl
@[simp] theorem Node.setQueue_ctx' (n : Node) (k : Nat) (x : Queue) (j : Nat) : (n.setQueue k x).ctx j = n.ctx j := rfl
@[simp] theorem Node.setQueue_acc' (n : Node) (k : Nat) (x : Queue) (j : Nat) : (n.setQueue k x).acc j = n.acc j := rfl
@[simp] theorem Node.setQueue_reg' (n : Node) (k : Nat) (x : Queue) (m : RegName) (j : Nat) : (n.setQueue k x).reg m j = n.reg m j := rfl
@[simp] theorem Node.setQueue_qcfg' (n : Node) (k : Nat) (x : Queue) (j : Nat) : (n.setQueue k x).qcfg j = n.qcfg j := rfl
@[simp] theorem Node.setQueue_sync' (n : Node) (k : Nat) (x : Queue) (j : Nat) : (n.setQueue k x).sync j = n.sync j := rfl
@[simp] theorem Node.setQueue_client' (n : Node) (k : Nat) (x : Queue) (j : Nat) : (n.setQueue k x).client j = n.client j := rfl
@[simp] theorem Node.setQueue_cliId' (n : Node) (k : Nat) (x : Queue) (j : Nat) : (n.setQueue k x).cliId j = n.cliId j := rfl
@[simp] theorem Node.setQueue_slot' (n : Node) (k : Nat) (x : Queue) (j : Nat) : (n.setQueue k x).slot j = n.slot j := rfl
@[simp] theorem Node.setQueue_tile' (n : Node) (k : Nat) (x : Queue) (j : Nat) : (n.setQueue k x).tile j = n.tile j := rfl
@[simp] theorem Node.setQueue_port' (n : Node) (k : Nat) (x : Queue) (j : Nat) : (n.setQueue k x).port j = n.port j := rfl
@[simp] theorem Node.setQueue_job' (n : Node) (k : Nat) (x : Queue) (j : Nat) : (n.setQueue k x).job j = n.job j := rfl
@[simp] theorem Node.setQueue_session' (n : Node) (k : Nat) (x : Queue) (j : Nat) : (n.setQueue k x).session j = n.session j := rfl
@[simp] theorem Node.setQueue_ten' (n : Node) (k : Nat) (x : Queue) (j : Nat) : (n.setQueue k x).ten j = n.ten j := rfl
@[simp] theorem Node.setQueue_kslot' (n : Node) (k : Nat) (x : Queue) (j : Nat) : (n.setQueue k x).kslot j = n.kslot j := rfl
@[simp] theorem Node.setQueue_region' (n : Node) (k : Nat) (x : Queue) (p g : Nat) : (n.setQueue k x).region p g = n.region p g := rfl
@[simp] theorem Node.setQueue_read' (n : Node) (k : Nat) (x : Queue) (p c w : Nat) : (n.setQueue k x).read p c w = n.read p c w := rfl
@[simp] theorem Node.setQueue_dataUp' (n : Node) (k : Nat) (x : Queue) : (n.setQueue k x).dataUp = n.dataUp := rfl
@[simp] theorem Node.setQueue_linksUp' (n : Node) (k : Nat) (x : Queue) : (n.setQueue k x).linksUp = n.linksUp := rfl
@[simp] theorem Node.setQueue_now' (n : Node) (k : Nat) (x : Queue) : (n.setQueue k x).now = n.now := rfl
@[simp] theorem Node.setQueue_fixedSlot' (n : Node) (k : Nat) (x : Queue) : (n.setQueue k x).fixedSlot = n.fixedSlot := rfl
@[simp] theorem Node.setQueue_auditOk' (n : Node) (k : Nat) (x : Queue) : (n.setQueue k x).auditOk = n.auditOk := rfl

/-! ### `Node.setSync` -/

@[simp] theorem Node.setSync_fuses (n : Node) (k : Nat) (x : Sync) : (n.setSync k x).fuses = n.fuses := rfl
@[simp] theorem Node.setSync_qspi (n : Node) (k : Nat) (x : Sync) : (n.setSync k x).qspi = n.qspi := rfl
@[simp] theorem Node.setSync_dev (n : Node) (k : Nat) (x : Sync) : (n.setSync k x).dev = n.dev := rfl
@[simp] theorem Node.setSync_mgt (n : Node) (k : Nat) (x : Sync) : (n.setSync k x).mgt = n.mgt := rfl
@[simp] theorem Node.setSync_power (n : Node) (k : Nat) (x : Sync) : (n.setSync k x).power = n.power := rfl
@[simp] theorem Node.setSync_mbox (n : Node) (k : Nat) (x : Sync) : (n.setSync k x).mbox = n.mbox := rfl
@[simp] theorem Node.setSync_log (n : Node) (k : Nat) (x : Sync) : (n.setSync k x).log = n.log := rfl
@[simp] theorem Node.setSync_snap (n : Node) (k : Nat) (x : Sync) : (n.setSync k x).snap = n.snap := rfl
@[simp] theorem Node.setSync_sec (n : Node) (k : Nat) (x : Sync) : (n.setSync k x).sec = n.sec := rfl
@[simp] theorem Node.setSync_hif (n : Node) (k : Nat) (x : Sync) : (n.setSync k x).hif = n.hif := rfl
@[simp] theorem Node.setSync_qsy_queues (n : Node) (k : Nat) (x : Sync) : (n.setSync k x).qsy.queues = n.qsy.queues := rfl
@[simp] theorem Node.setSync_qsy_syncs (n : Node) (k : Nat) (x : Sync) : (n.setSync k x).qsy.syncs = KList.put n.qsy.syncs k x := rfl
@[simp] theorem Node.setSync_qsy_epoch0 (n : Node) (k : Nat) (x : Sync) : (n.setSync k x).qsy.epoch0 = n.qsy.epoch0 := rfl
@[simp] theorem Node.setSync_adm (n : Node) (k : Nat) (x : Sync) : (n.setSync k x).adm = n.adm := rfl
@[simp] theorem Node.setSync_index (n : Node) (k : Nat) (x : Sync) : (n.setSync k x).index = n.index := rfl
@[simp] theorem Node.setSync_spokes (n : Node) (k : Nat) (x : Sync) : (n.setSync k x).spokes = n.spokes := rfl
@[simp] theorem Node.setSync_sel (n : Node) (k : Nat) (x : Sync) : (n.setSync k x).sel = n.sel := rfl
@[simp] theorem Node.setSync_cas (n : Node) (k : Nat) (x : Sync) : (n.setSync k x).cas = n.cas := rfl
@[simp] theorem Node.setSync_store (n : Node) (k : Nat) (x : Sync) : (n.setSync k x).store = n.store := rfl
@[simp] theorem Node.setSync_mem (n : Node) (k : Nat) (x : Sync) : (n.setSync k x).mem = n.mem := rfl
@[simp] theorem Node.setSync_flash (n : Node) (k : Nat) (x : Sync) : (n.setSync k x).flash = n.flash := rfl
@[simp] theorem Node.setSync_links (n : Node) (k : Nat) (x : Sync) : (n.setSync k x).links = n.links := rfl
@[simp] theorem Node.setSync_fabric (n : Node) (k : Nat) (x : Sync) : (n.setSync k x).fabric = n.fabric := rfl
@[simp] theorem Node.setSync_peloton (n : Node) (k : Nat) (x : Sync) : (n.setSync k x).peloton = n.peloton := rfl
@[simp] theorem Node.setSync_regs (n : Node) (k : Nat) (x : Sync) : (n.setSync k x).regs = n.regs := rfl
@[simp] theorem Node.setSync_out (n : Node) (k : Nat) (x : Sync) : (n.setSync k x).out = n.out := rfl
@[simp] theorem Node.setSync_clk (n : Node) (k : Nat) (x : Sync) : (n.setSync k x).clk = n.clk := rfl
@[simp] theorem Node.setSync_freeCtr (n : Node) (k : Nat) (x : Sync) : (n.setSync k x).freeCtr = n.freeCtr := rfl
@[simp] theorem Node.setSync_nextId (n : Node) (k : Nat) (x : Sync) : (n.setSync k x).nextId = n.nextId := rfl
@[simp] theorem Node.setSync_thread' (n : Node) (k : Nat) (x : Sync) (j : Nat) : (n.setSync k x).thread j = n.thread j := rfl
@[simp] theorem Node.setSync_ctx' (n : Node) (k : Nat) (x : Sync) (j : Nat) : (n.setSync k x).ctx j = n.ctx j := rfl
@[simp] theorem Node.setSync_acc' (n : Node) (k : Nat) (x : Sync) (j : Nat) : (n.setSync k x).acc j = n.acc j := rfl
@[simp] theorem Node.setSync_reg' (n : Node) (k : Nat) (x : Sync) (m : RegName) (j : Nat) : (n.setSync k x).reg m j = n.reg m j := rfl
@[simp] theorem Node.setSync_queue' (n : Node) (k : Nat) (x : Sync) (j : Nat) : (n.setSync k x).queue j = n.queue j := rfl
@[simp] theorem Node.setSync_qcfg' (n : Node) (k : Nat) (x : Sync) (j : Nat) : (n.setSync k x).qcfg j = n.qcfg j := rfl
@[simp] theorem Node.setSync_client' (n : Node) (k : Nat) (x : Sync) (j : Nat) : (n.setSync k x).client j = n.client j := rfl
@[simp] theorem Node.setSync_cliId' (n : Node) (k : Nat) (x : Sync) (j : Nat) : (n.setSync k x).cliId j = n.cliId j := rfl
@[simp] theorem Node.setSync_slot' (n : Node) (k : Nat) (x : Sync) (j : Nat) : (n.setSync k x).slot j = n.slot j := rfl
@[simp] theorem Node.setSync_tile' (n : Node) (k : Nat) (x : Sync) (j : Nat) : (n.setSync k x).tile j = n.tile j := rfl
@[simp] theorem Node.setSync_port' (n : Node) (k : Nat) (x : Sync) (j : Nat) : (n.setSync k x).port j = n.port j := rfl
@[simp] theorem Node.setSync_job' (n : Node) (k : Nat) (x : Sync) (j : Nat) : (n.setSync k x).job j = n.job j := rfl
@[simp] theorem Node.setSync_session' (n : Node) (k : Nat) (x : Sync) (j : Nat) : (n.setSync k x).session j = n.session j := rfl
@[simp] theorem Node.setSync_ten' (n : Node) (k : Nat) (x : Sync) (j : Nat) : (n.setSync k x).ten j = n.ten j := rfl
@[simp] theorem Node.setSync_kslot' (n : Node) (k : Nat) (x : Sync) (j : Nat) : (n.setSync k x).kslot j = n.kslot j := rfl
@[simp] theorem Node.setSync_region' (n : Node) (k : Nat) (x : Sync) (p g : Nat) : (n.setSync k x).region p g = n.region p g := rfl
@[simp] theorem Node.setSync_read' (n : Node) (k : Nat) (x : Sync) (p c w : Nat) : (n.setSync k x).read p c w = n.read p c w := rfl
@[simp] theorem Node.setSync_dataUp' (n : Node) (k : Nat) (x : Sync) : (n.setSync k x).dataUp = n.dataUp := rfl
@[simp] theorem Node.setSync_linksUp' (n : Node) (k : Nat) (x : Sync) : (n.setSync k x).linksUp = n.linksUp := rfl
@[simp] theorem Node.setSync_now' (n : Node) (k : Nat) (x : Sync) : (n.setSync k x).now = n.now := rfl
@[simp] theorem Node.setSync_fixedSlot' (n : Node) (k : Nat) (x : Sync) : (n.setSync k x).fixedSlot = n.fixedSlot := rfl
@[simp] theorem Node.setSync_auditOk' (n : Node) (k : Nat) (x : Sync) : (n.setSync k x).auditOk = n.auditOk := rfl

/-! ### `Node.setTenTok` -/

@[simp] theorem Node.setTenTok_fuses (n : Node) (k v : Nat) : (n.setTenTok k v).fuses = n.fuses := rfl
@[simp] theorem Node.setTenTok_qspi (n : Node) (k v : Nat) : (n.setTenTok k v).qspi = n.qspi := rfl
@[simp] theorem Node.setTenTok_dev (n : Node) (k v : Nat) : (n.setTenTok k v).dev = n.dev := rfl
@[simp] theorem Node.setTenTok_mgt (n : Node) (k v : Nat) : (n.setTenTok k v).mgt = n.mgt := rfl
@[simp] theorem Node.setTenTok_power (n : Node) (k v : Nat) : (n.setTenTok k v).power = n.power := rfl
@[simp] theorem Node.setTenTok_mbox (n : Node) (k v : Nat) : (n.setTenTok k v).mbox = n.mbox := rfl
@[simp] theorem Node.setTenTok_log (n : Node) (k v : Nat) : (n.setTenTok k v).log = n.log := rfl
@[simp] theorem Node.setTenTok_snap (n : Node) (k v : Nat) : (n.setTenTok k v).snap = n.snap := rfl
@[simp] theorem Node.setTenTok_sec (n : Node) (k v : Nat) : (n.setTenTok k v).sec = n.sec := rfl
@[simp] theorem Node.setTenTok_hif (n : Node) (k v : Nat) : (n.setTenTok k v).hif = n.hif := rfl
@[simp] theorem Node.setTenTok_qsy (n : Node) (k v : Nat) : (n.setTenTok k v).qsy = n.qsy := rfl
@[simp] theorem Node.setTenTok_adm_tenTok (n : Node) (k v : Nat) : (n.setTenTok k v).adm.tenTok = KList.put n.adm.tenTok k v := rfl
@[simp] theorem Node.setTenTok_adm_clsTok (n : Node) (k v : Nat) : (n.setTenTok k v).adm.clsTok = n.adm.clsTok := rfl
@[simp] theorem Node.setTenTok_adm_lastClass (n : Node) (k v : Nat) : (n.setTenTok k v).adm.lastClass = n.adm.lastClass := rfl
@[simp] theorem Node.setTenTok_adm_lastPart (n : Node) (k v : Nat) : (n.setTenTok k v).adm.lastPart = n.adm.lastPart := rfl
@[simp] theorem Node.setTenTok_adm_gateOpen (n : Node) (k v : Nat) : (n.setTenTok k v).adm.gateOpen = n.adm.gateOpen := rfl
@[simp] theorem Node.setTenTok_adm_gateWindow (n : Node) (k v : Nat) : (n.setTenTok k v).adm.gateWindow = n.adm.gateWindow := rfl
@[simp] theorem Node.setTenTok_adm_fsBudget (n : Node) (k v : Nat) : (n.setTenTok k v).adm.fsBudget = n.adm.fsBudget := rfl
@[simp] theorem Node.setTenTok_adm_lines (n : Node) (k v : Nat) : (n.setTenTok k v).adm.lines = n.adm.lines := rfl
@[simp] theorem Node.setTenTok_adm_lastLine (n : Node) (k v : Nat) : (n.setTenTok k v).adm.lastLine = n.adm.lastLine := rfl
@[simp] theorem Node.setTenTok_adm_flashSlot (n : Node) (k v : Nat) : (n.setTenTok k v).adm.flashSlot = n.adm.flashSlot := rfl
@[simp] theorem Node.setTenTok_index (n : Node) (k v : Nat) : (n.setTenTok k v).index = n.index := rfl
@[simp] theorem Node.setTenTok_spokes (n : Node) (k v : Nat) : (n.setTenTok k v).spokes = n.spokes := rfl
@[simp] theorem Node.setTenTok_sel (n : Node) (k v : Nat) : (n.setTenTok k v).sel = n.sel := rfl
@[simp] theorem Node.setTenTok_cas (n : Node) (k v : Nat) : (n.setTenTok k v).cas = n.cas := rfl
@[simp] theorem Node.setTenTok_store (n : Node) (k v : Nat) : (n.setTenTok k v).store = n.store := rfl
@[simp] theorem Node.setTenTok_mem (n : Node) (k v : Nat) : (n.setTenTok k v).mem = n.mem := rfl
@[simp] theorem Node.setTenTok_flash (n : Node) (k v : Nat) : (n.setTenTok k v).flash = n.flash := rfl
@[simp] theorem Node.setTenTok_links (n : Node) (k v : Nat) : (n.setTenTok k v).links = n.links := rfl
@[simp] theorem Node.setTenTok_fabric (n : Node) (k v : Nat) : (n.setTenTok k v).fabric = n.fabric := rfl
@[simp] theorem Node.setTenTok_peloton (n : Node) (k v : Nat) : (n.setTenTok k v).peloton = n.peloton := rfl
@[simp] theorem Node.setTenTok_regs (n : Node) (k v : Nat) : (n.setTenTok k v).regs = n.regs := rfl
@[simp] theorem Node.setTenTok_out (n : Node) (k v : Nat) : (n.setTenTok k v).out = n.out := rfl
@[simp] theorem Node.setTenTok_clk (n : Node) (k v : Nat) : (n.setTenTok k v).clk = n.clk := rfl
@[simp] theorem Node.setTenTok_freeCtr (n : Node) (k v : Nat) : (n.setTenTok k v).freeCtr = n.freeCtr := rfl
@[simp] theorem Node.setTenTok_nextId (n : Node) (k v : Nat) : (n.setTenTok k v).nextId = n.nextId := rfl
@[simp] theorem Node.setTenTok_thread' (n : Node) (k v : Nat) (j : Nat) : (n.setTenTok k v).thread j = n.thread j := rfl
@[simp] theorem Node.setTenTok_ctx' (n : Node) (k v : Nat) (j : Nat) : (n.setTenTok k v).ctx j = n.ctx j := rfl
@[simp] theorem Node.setTenTok_acc' (n : Node) (k v : Nat) (j : Nat) : (n.setTenTok k v).acc j = n.acc j := rfl
@[simp] theorem Node.setTenTok_reg' (n : Node) (k v : Nat) (m : RegName) (j : Nat) : (n.setTenTok k v).reg m j = n.reg m j := rfl
@[simp] theorem Node.setTenTok_queue' (n : Node) (k v : Nat) (j : Nat) : (n.setTenTok k v).queue j = n.queue j := rfl
@[simp] theorem Node.setTenTok_qcfg' (n : Node) (k v : Nat) (j : Nat) : (n.setTenTok k v).qcfg j = n.qcfg j := rfl
@[simp] theorem Node.setTenTok_sync' (n : Node) (k v : Nat) (j : Nat) : (n.setTenTok k v).sync j = n.sync j := rfl
@[simp] theorem Node.setTenTok_client' (n : Node) (k v : Nat) (j : Nat) : (n.setTenTok k v).client j = n.client j := rfl
@[simp] theorem Node.setTenTok_cliId' (n : Node) (k v : Nat) (j : Nat) : (n.setTenTok k v).cliId j = n.cliId j := rfl
@[simp] theorem Node.setTenTok_slot' (n : Node) (k v : Nat) (j : Nat) : (n.setTenTok k v).slot j = n.slot j := rfl
@[simp] theorem Node.setTenTok_tile' (n : Node) (k v : Nat) (j : Nat) : (n.setTenTok k v).tile j = n.tile j := rfl
@[simp] theorem Node.setTenTok_port' (n : Node) (k v : Nat) (j : Nat) : (n.setTenTok k v).port j = n.port j := rfl
@[simp] theorem Node.setTenTok_job' (n : Node) (k v : Nat) (j : Nat) : (n.setTenTok k v).job j = n.job j := rfl
@[simp] theorem Node.setTenTok_session' (n : Node) (k v : Nat) (j : Nat) : (n.setTenTok k v).session j = n.session j := rfl
@[simp] theorem Node.setTenTok_ten' (n : Node) (k v : Nat) (j : Nat) : (n.setTenTok k v).ten j = n.ten j := rfl
@[simp] theorem Node.setTenTok_kslot' (n : Node) (k v : Nat) (j : Nat) : (n.setTenTok k v).kslot j = n.kslot j := rfl
@[simp] theorem Node.setTenTok_region' (n : Node) (k v : Nat) (p g : Nat) : (n.setTenTok k v).region p g = n.region p g := rfl
@[simp] theorem Node.setTenTok_read' (n : Node) (k v : Nat) (p c w : Nat) : (n.setTenTok k v).read p c w = n.read p c w := rfl
@[simp] theorem Node.setTenTok_dataUp' (n : Node) (k v : Nat) : (n.setTenTok k v).dataUp = n.dataUp := rfl
@[simp] theorem Node.setTenTok_linksUp' (n : Node) (k v : Nat) : (n.setTenTok k v).linksUp = n.linksUp := rfl
@[simp] theorem Node.setTenTok_now' (n : Node) (k v : Nat) : (n.setTenTok k v).now = n.now := rfl
@[simp] theorem Node.setTenTok_fixedSlot' (n : Node) (k v : Nat) : (n.setTenTok k v).fixedSlot = n.fixedSlot := rfl
@[simp] theorem Node.setTenTok_auditOk' (n : Node) (k v : Nat) : (n.setTenTok k v).auditOk = n.auditOk := rfl

/-! ### `Node.setClsTok` -/

@[simp] theorem Node.setClsTok_fuses (n : Node) (k v : Nat) : (n.setClsTok k v).fuses = n.fuses := rfl
@[simp] theorem Node.setClsTok_qspi (n : Node) (k v : Nat) : (n.setClsTok k v).qspi = n.qspi := rfl
@[simp] theorem Node.setClsTok_dev (n : Node) (k v : Nat) : (n.setClsTok k v).dev = n.dev := rfl
@[simp] theorem Node.setClsTok_mgt (n : Node) (k v : Nat) : (n.setClsTok k v).mgt = n.mgt := rfl
@[simp] theorem Node.setClsTok_power (n : Node) (k v : Nat) : (n.setClsTok k v).power = n.power := rfl
@[simp] theorem Node.setClsTok_mbox (n : Node) (k v : Nat) : (n.setClsTok k v).mbox = n.mbox := rfl
@[simp] theorem Node.setClsTok_log (n : Node) (k v : Nat) : (n.setClsTok k v).log = n.log := rfl
@[simp] theorem Node.setClsTok_snap (n : Node) (k v : Nat) : (n.setClsTok k v).snap = n.snap := rfl
@[simp] theorem Node.setClsTok_sec (n : Node) (k v : Nat) : (n.setClsTok k v).sec = n.sec := rfl
@[simp] theorem Node.setClsTok_hif (n : Node) (k v : Nat) : (n.setClsTok k v).hif = n.hif := rfl
@[simp] theorem Node.setClsTok_qsy (n : Node) (k v : Nat) : (n.setClsTok k v).qsy = n.qsy := rfl
@[simp] theorem Node.setClsTok_adm_tenTok (n : Node) (k v : Nat) : (n.setClsTok k v).adm.tenTok = n.adm.tenTok := rfl
@[simp] theorem Node.setClsTok_adm_clsTok (n : Node) (k v : Nat) : (n.setClsTok k v).adm.clsTok = KList.put n.adm.clsTok k v := rfl
@[simp] theorem Node.setClsTok_adm_lastClass (n : Node) (k v : Nat) : (n.setClsTok k v).adm.lastClass = n.adm.lastClass := rfl
@[simp] theorem Node.setClsTok_adm_lastPart (n : Node) (k v : Nat) : (n.setClsTok k v).adm.lastPart = n.adm.lastPart := rfl
@[simp] theorem Node.setClsTok_adm_gateOpen (n : Node) (k v : Nat) : (n.setClsTok k v).adm.gateOpen = n.adm.gateOpen := rfl
@[simp] theorem Node.setClsTok_adm_gateWindow (n : Node) (k v : Nat) : (n.setClsTok k v).adm.gateWindow = n.adm.gateWindow := rfl
@[simp] theorem Node.setClsTok_adm_fsBudget (n : Node) (k v : Nat) : (n.setClsTok k v).adm.fsBudget = n.adm.fsBudget := rfl
@[simp] theorem Node.setClsTok_adm_lines (n : Node) (k v : Nat) : (n.setClsTok k v).adm.lines = n.adm.lines := rfl
@[simp] theorem Node.setClsTok_adm_lastLine (n : Node) (k v : Nat) : (n.setClsTok k v).adm.lastLine = n.adm.lastLine := rfl
@[simp] theorem Node.setClsTok_adm_flashSlot (n : Node) (k v : Nat) : (n.setClsTok k v).adm.flashSlot = n.adm.flashSlot := rfl
@[simp] theorem Node.setClsTok_index (n : Node) (k v : Nat) : (n.setClsTok k v).index = n.index := rfl
@[simp] theorem Node.setClsTok_spokes (n : Node) (k v : Nat) : (n.setClsTok k v).spokes = n.spokes := rfl
@[simp] theorem Node.setClsTok_sel (n : Node) (k v : Nat) : (n.setClsTok k v).sel = n.sel := rfl
@[simp] theorem Node.setClsTok_cas (n : Node) (k v : Nat) : (n.setClsTok k v).cas = n.cas := rfl
@[simp] theorem Node.setClsTok_store (n : Node) (k v : Nat) : (n.setClsTok k v).store = n.store := rfl
@[simp] theorem Node.setClsTok_mem (n : Node) (k v : Nat) : (n.setClsTok k v).mem = n.mem := rfl
@[simp] theorem Node.setClsTok_flash (n : Node) (k v : Nat) : (n.setClsTok k v).flash = n.flash := rfl
@[simp] theorem Node.setClsTok_links (n : Node) (k v : Nat) : (n.setClsTok k v).links = n.links := rfl
@[simp] theorem Node.setClsTok_fabric (n : Node) (k v : Nat) : (n.setClsTok k v).fabric = n.fabric := rfl
@[simp] theorem Node.setClsTok_peloton (n : Node) (k v : Nat) : (n.setClsTok k v).peloton = n.peloton := rfl
@[simp] theorem Node.setClsTok_regs (n : Node) (k v : Nat) : (n.setClsTok k v).regs = n.regs := rfl
@[simp] theorem Node.setClsTok_out (n : Node) (k v : Nat) : (n.setClsTok k v).out = n.out := rfl
@[simp] theorem Node.setClsTok_clk (n : Node) (k v : Nat) : (n.setClsTok k v).clk = n.clk := rfl
@[simp] theorem Node.setClsTok_freeCtr (n : Node) (k v : Nat) : (n.setClsTok k v).freeCtr = n.freeCtr := rfl
@[simp] theorem Node.setClsTok_nextId (n : Node) (k v : Nat) : (n.setClsTok k v).nextId = n.nextId := rfl
@[simp] theorem Node.setClsTok_thread' (n : Node) (k v : Nat) (j : Nat) : (n.setClsTok k v).thread j = n.thread j := rfl
@[simp] theorem Node.setClsTok_ctx' (n : Node) (k v : Nat) (j : Nat) : (n.setClsTok k v).ctx j = n.ctx j := rfl
@[simp] theorem Node.setClsTok_acc' (n : Node) (k v : Nat) (j : Nat) : (n.setClsTok k v).acc j = n.acc j := rfl
@[simp] theorem Node.setClsTok_reg' (n : Node) (k v : Nat) (m : RegName) (j : Nat) : (n.setClsTok k v).reg m j = n.reg m j := rfl
@[simp] theorem Node.setClsTok_queue' (n : Node) (k v : Nat) (j : Nat) : (n.setClsTok k v).queue j = n.queue j := rfl
@[simp] theorem Node.setClsTok_qcfg' (n : Node) (k v : Nat) (j : Nat) : (n.setClsTok k v).qcfg j = n.qcfg j := rfl
@[simp] theorem Node.setClsTok_sync' (n : Node) (k v : Nat) (j : Nat) : (n.setClsTok k v).sync j = n.sync j := rfl
@[simp] theorem Node.setClsTok_client' (n : Node) (k v : Nat) (j : Nat) : (n.setClsTok k v).client j = n.client j := rfl
@[simp] theorem Node.setClsTok_cliId' (n : Node) (k v : Nat) (j : Nat) : (n.setClsTok k v).cliId j = n.cliId j := rfl
@[simp] theorem Node.setClsTok_slot' (n : Node) (k v : Nat) (j : Nat) : (n.setClsTok k v).slot j = n.slot j := rfl
@[simp] theorem Node.setClsTok_tile' (n : Node) (k v : Nat) (j : Nat) : (n.setClsTok k v).tile j = n.tile j := rfl
@[simp] theorem Node.setClsTok_port' (n : Node) (k v : Nat) (j : Nat) : (n.setClsTok k v).port j = n.port j := rfl
@[simp] theorem Node.setClsTok_job' (n : Node) (k v : Nat) (j : Nat) : (n.setClsTok k v).job j = n.job j := rfl
@[simp] theorem Node.setClsTok_session' (n : Node) (k v : Nat) (j : Nat) : (n.setClsTok k v).session j = n.session j := rfl
@[simp] theorem Node.setClsTok_ten' (n : Node) (k v : Nat) (j : Nat) : (n.setClsTok k v).ten j = n.ten j := rfl
@[simp] theorem Node.setClsTok_kslot' (n : Node) (k v : Nat) (j : Nat) : (n.setClsTok k v).kslot j = n.kslot j := rfl
@[simp] theorem Node.setClsTok_region' (n : Node) (k v : Nat) (p g : Nat) : (n.setClsTok k v).region p g = n.region p g := rfl
@[simp] theorem Node.setClsTok_read' (n : Node) (k v : Nat) (p c w : Nat) : (n.setClsTok k v).read p c w = n.read p c w := rfl
@[simp] theorem Node.setClsTok_dataUp' (n : Node) (k v : Nat) : (n.setClsTok k v).dataUp = n.dataUp := rfl
@[simp] theorem Node.setClsTok_linksUp' (n : Node) (k v : Nat) : (n.setClsTok k v).linksUp = n.linksUp := rfl
@[simp] theorem Node.setClsTok_now' (n : Node) (k v : Nat) : (n.setClsTok k v).now = n.now := rfl
@[simp] theorem Node.setClsTok_fixedSlot' (n : Node) (k v : Nat) : (n.setClsTok k v).fixedSlot = n.fixedSlot := rfl
@[simp] theorem Node.setClsTok_auditOk' (n : Node) (k v : Nat) : (n.setClsTok k v).auditOk = n.auditOk := rfl

/-! ### `Node.setClient` -/

@[simp] theorem Node.setClient_fuses (n : Node) (k : Nat) (x : Client) : (n.setClient k x).fuses = n.fuses := rfl
@[simp] theorem Node.setClient_qspi (n : Node) (k : Nat) (x : Client) : (n.setClient k x).qspi = n.qspi := rfl
@[simp] theorem Node.setClient_dev (n : Node) (k : Nat) (x : Client) : (n.setClient k x).dev = n.dev := rfl
@[simp] theorem Node.setClient_mgt (n : Node) (k : Nat) (x : Client) : (n.setClient k x).mgt = n.mgt := rfl
@[simp] theorem Node.setClient_power (n : Node) (k : Nat) (x : Client) : (n.setClient k x).power = n.power := rfl
@[simp] theorem Node.setClient_mbox (n : Node) (k : Nat) (x : Client) : (n.setClient k x).mbox = n.mbox := rfl
@[simp] theorem Node.setClient_log (n : Node) (k : Nat) (x : Client) : (n.setClient k x).log = n.log := rfl
@[simp] theorem Node.setClient_snap (n : Node) (k : Nat) (x : Client) : (n.setClient k x).snap = n.snap := rfl
@[simp] theorem Node.setClient_sec (n : Node) (k : Nat) (x : Client) : (n.setClient k x).sec = n.sec := rfl
@[simp] theorem Node.setClient_hif (n : Node) (k : Nat) (x : Client) : (n.setClient k x).hif = n.hif := rfl
@[simp] theorem Node.setClient_qsy (n : Node) (k : Nat) (x : Client) : (n.setClient k x).qsy = n.qsy := rfl
@[simp] theorem Node.setClient_adm (n : Node) (k : Nat) (x : Client) : (n.setClient k x).adm = n.adm := rfl
@[simp] theorem Node.setClient_index (n : Node) (k : Nat) (x : Client) : (n.setClient k x).index = n.index := rfl
@[simp] theorem Node.setClient_spokes (n : Node) (k : Nat) (x : Client) : (n.setClient k x).spokes = n.spokes := rfl
@[simp] theorem Node.setClient_sel (n : Node) (k : Nat) (x : Client) : (n.setClient k x).sel = n.sel := rfl
@[simp] theorem Node.setClient_cas (n : Node) (k : Nat) (x : Client) : (n.setClient k x).cas = n.cas := rfl
@[simp] theorem Node.setClient_store_ops (n : Node) (k : Nat) (x : Client) : (n.setClient k x).store.ops = n.store.ops := rfl
@[simp] theorem Node.setClient_store_engines (n : Node) (k : Nat) (x : Client) : (n.setClient k x).store.engines = n.store.engines := rfl
@[simp] theorem Node.setClient_store_held (n : Node) (k : Nat) (x : Client) : (n.setClient k x).store.held = n.store.held := rfl
@[simp] theorem Node.setClient_store_remap (n : Node) (k : Nat) (x : Client) : (n.setClient k x).store.remap = n.store.remap := rfl
@[simp] theorem Node.setClient_store_clients (n : Node) (k : Nat) (x : Client) : (n.setClient k x).store.clients = KList.put n.store.clients k x := rfl
@[simp] theorem Node.setClient_store_locks (n : Node) (k : Nat) (x : Client) : (n.setClient k x).store.locks = n.store.locks := rfl
@[simp] theorem Node.setClient_store_nload (n : Node) (k : Nat) (x : Client) : (n.setClient k x).store.nload = n.store.nload := rfl
@[simp] theorem Node.setClient_store_lapses (n : Node) (k : Nat) (x : Client) : (n.setClient k x).store.lapses = n.store.lapses := rfl
@[simp] theorem Node.setClient_store_cxlWaits (n : Node) (k : Nat) (x : Client) : (n.setClient k x).store.cxlWaits = n.store.cxlWaits := rfl
@[simp] theorem Node.setClient_store_bwWaits (n : Node) (k : Nat) (x : Client) : (n.setClient k x).store.bwWaits = n.store.bwWaits := rfl
@[simp] theorem Node.setClient_store_bwItems (n : Node) (k : Nat) (x : Client) : (n.setClient k x).store.bwItems = n.store.bwItems := rfl
@[simp] theorem Node.setClient_mem (n : Node) (k : Nat) (x : Client) : (n.setClient k x).mem = n.mem := rfl
@[simp] theorem Node.setClient_flash (n : Node) (k : Nat) (x : Client) : (n.setClient k x).flash = n.flash := rfl
@[simp] theorem Node.setClient_links (n : Node) (k : Nat) (x : Client) : (n.setClient k x).links = n.links := rfl
@[simp] theorem Node.setClient_fabric (n : Node) (k : Nat) (x : Client) : (n.setClient k x).fabric = n.fabric := rfl
@[simp] theorem Node.setClient_peloton (n : Node) (k : Nat) (x : Client) : (n.setClient k x).peloton = n.peloton := rfl
@[simp] theorem Node.setClient_regs (n : Node) (k : Nat) (x : Client) : (n.setClient k x).regs = n.regs := rfl
@[simp] theorem Node.setClient_out (n : Node) (k : Nat) (x : Client) : (n.setClient k x).out = n.out := rfl
@[simp] theorem Node.setClient_clk (n : Node) (k : Nat) (x : Client) : (n.setClient k x).clk = n.clk := rfl
@[simp] theorem Node.setClient_freeCtr (n : Node) (k : Nat) (x : Client) : (n.setClient k x).freeCtr = n.freeCtr := rfl
@[simp] theorem Node.setClient_nextId (n : Node) (k : Nat) (x : Client) : (n.setClient k x).nextId = n.nextId := rfl
@[simp] theorem Node.setClient_thread' (n : Node) (k : Nat) (x : Client) (j : Nat) : (n.setClient k x).thread j = n.thread j := rfl
@[simp] theorem Node.setClient_ctx' (n : Node) (k : Nat) (x : Client) (j : Nat) : (n.setClient k x).ctx j = n.ctx j := rfl
@[simp] theorem Node.setClient_acc' (n : Node) (k : Nat) (x : Client) (j : Nat) : (n.setClient k x).acc j = n.acc j := rfl
@[simp] theorem Node.setClient_reg' (n : Node) (k : Nat) (x : Client) (m : RegName) (j : Nat) : (n.setClient k x).reg m j = n.reg m j := rfl
@[simp] theorem Node.setClient_queue' (n : Node) (k : Nat) (x : Client) (j : Nat) : (n.setClient k x).queue j = n.queue j := rfl
@[simp] theorem Node.setClient_qcfg' (n : Node) (k : Nat) (x : Client) (j : Nat) : (n.setClient k x).qcfg j = n.qcfg j := rfl
@[simp] theorem Node.setClient_sync' (n : Node) (k : Nat) (x : Client) (j : Nat) : (n.setClient k x).sync j = n.sync j := rfl
@[simp] theorem Node.setClient_cliId' (n : Node) (k : Nat) (x : Client) (j : Nat) : (n.setClient k x).cliId j = n.cliId j := rfl
@[simp] theorem Node.setClient_slot' (n : Node) (k : Nat) (x : Client) (j : Nat) : (n.setClient k x).slot j = n.slot j := rfl
@[simp] theorem Node.setClient_tile' (n : Node) (k : Nat) (x : Client) (j : Nat) : (n.setClient k x).tile j = n.tile j := rfl
@[simp] theorem Node.setClient_port' (n : Node) (k : Nat) (x : Client) (j : Nat) : (n.setClient k x).port j = n.port j := rfl
@[simp] theorem Node.setClient_job' (n : Node) (k : Nat) (x : Client) (j : Nat) : (n.setClient k x).job j = n.job j := rfl
@[simp] theorem Node.setClient_session' (n : Node) (k : Nat) (x : Client) (j : Nat) : (n.setClient k x).session j = n.session j := rfl
@[simp] theorem Node.setClient_ten' (n : Node) (k : Nat) (x : Client) (j : Nat) : (n.setClient k x).ten j = n.ten j := rfl
@[simp] theorem Node.setClient_kslot' (n : Node) (k : Nat) (x : Client) (j : Nat) : (n.setClient k x).kslot j = n.kslot j := rfl
@[simp] theorem Node.setClient_region' (n : Node) (k : Nat) (x : Client) (p g : Nat) : (n.setClient k x).region p g = n.region p g := rfl
@[simp] theorem Node.setClient_read' (n : Node) (k : Nat) (x : Client) (p c w : Nat) : (n.setClient k x).read p c w = n.read p c w := rfl
@[simp] theorem Node.setClient_dataUp' (n : Node) (k : Nat) (x : Client) : (n.setClient k x).dataUp = n.dataUp := rfl
@[simp] theorem Node.setClient_linksUp' (n : Node) (k : Nat) (x : Client) : (n.setClient k x).linksUp = n.linksUp := rfl
@[simp] theorem Node.setClient_now' (n : Node) (k : Nat) (x : Client) : (n.setClient k x).now = n.now := rfl
@[simp] theorem Node.setClient_fixedSlot' (n : Node) (k : Nat) (x : Client) : (n.setClient k x).fixedSlot = n.fixedSlot := rfl
@[simp] theorem Node.setClient_auditOk' (n : Node) (k : Nat) (x : Client) : (n.setClient k x).auditOk = n.auditOk := rfl

/-! ### `Node.setSlot` -/

@[simp] theorem Node.setSlot_fuses (n : Node) (k : Nat) (x : Slot) : (n.setSlot k x).fuses = n.fuses := rfl
@[simp] theorem Node.setSlot_qspi (n : Node) (k : Nat) (x : Slot) : (n.setSlot k x).qspi = n.qspi := rfl
@[simp] theorem Node.setSlot_dev (n : Node) (k : Nat) (x : Slot) : (n.setSlot k x).dev = n.dev := rfl
@[simp] theorem Node.setSlot_mgt (n : Node) (k : Nat) (x : Slot) : (n.setSlot k x).mgt = n.mgt := rfl
@[simp] theorem Node.setSlot_power (n : Node) (k : Nat) (x : Slot) : (n.setSlot k x).power = n.power := rfl
@[simp] theorem Node.setSlot_mbox (n : Node) (k : Nat) (x : Slot) : (n.setSlot k x).mbox = n.mbox := rfl
@[simp] theorem Node.setSlot_log (n : Node) (k : Nat) (x : Slot) : (n.setSlot k x).log = n.log := rfl
@[simp] theorem Node.setSlot_snap (n : Node) (k : Nat) (x : Slot) : (n.setSlot k x).snap = n.snap := rfl
@[simp] theorem Node.setSlot_sec (n : Node) (k : Nat) (x : Slot) : (n.setSlot k x).sec = n.sec := rfl
@[simp] theorem Node.setSlot_hif (n : Node) (k : Nat) (x : Slot) : (n.setSlot k x).hif = n.hif := rfl
@[simp] theorem Node.setSlot_qsy (n : Node) (k : Nat) (x : Slot) : (n.setSlot k x).qsy = n.qsy := rfl
@[simp] theorem Node.setSlot_adm (n : Node) (k : Nat) (x : Slot) : (n.setSlot k x).adm = n.adm := rfl
@[simp] theorem Node.setSlot_index (n : Node) (k : Nat) (x : Slot) : (n.setSlot k x).index = n.index := rfl
@[simp] theorem Node.setSlot_spokes (n : Node) (k : Nat) (x : Slot) : (n.setSlot k x).spokes = n.spokes := rfl
@[simp] theorem Node.setSlot_sel (n : Node) (k : Nat) (x : Slot) : (n.setSlot k x).sel = n.sel := rfl
@[simp] theorem Node.setSlot_cas_slots (n : Node) (k : Nat) (x : Slot) : (n.setSlot k x).cas.slots = KList.put n.cas.slots k x := rfl
@[simp] theorem Node.setSlot_cas_tiles (n : Node) (k : Nat) (x : Slot) : (n.setSlot k x).cas.tiles = n.cas.tiles := rfl
@[simp] theorem Node.setSlot_cas_fsWin (n : Node) (k : Nat) (x : Slot) : (n.setSlot k x).cas.fsWin = n.cas.fsWin := rfl
@[simp] theorem Node.setSlot_store (n : Node) (k : Nat) (x : Slot) : (n.setSlot k x).store = n.store := rfl
@[simp] theorem Node.setSlot_mem (n : Node) (k : Nat) (x : Slot) : (n.setSlot k x).mem = n.mem := rfl
@[simp] theorem Node.setSlot_flash (n : Node) (k : Nat) (x : Slot) : (n.setSlot k x).flash = n.flash := rfl
@[simp] theorem Node.setSlot_links (n : Node) (k : Nat) (x : Slot) : (n.setSlot k x).links = n.links := rfl
@[simp] theorem Node.setSlot_fabric (n : Node) (k : Nat) (x : Slot) : (n.setSlot k x).fabric = n.fabric := rfl
@[simp] theorem Node.setSlot_peloton (n : Node) (k : Nat) (x : Slot) : (n.setSlot k x).peloton = n.peloton := rfl
@[simp] theorem Node.setSlot_regs (n : Node) (k : Nat) (x : Slot) : (n.setSlot k x).regs = n.regs := rfl
@[simp] theorem Node.setSlot_out (n : Node) (k : Nat) (x : Slot) : (n.setSlot k x).out = n.out := rfl
@[simp] theorem Node.setSlot_clk (n : Node) (k : Nat) (x : Slot) : (n.setSlot k x).clk = n.clk := rfl
@[simp] theorem Node.setSlot_freeCtr (n : Node) (k : Nat) (x : Slot) : (n.setSlot k x).freeCtr = n.freeCtr := rfl
@[simp] theorem Node.setSlot_nextId (n : Node) (k : Nat) (x : Slot) : (n.setSlot k x).nextId = n.nextId := rfl
@[simp] theorem Node.setSlot_thread' (n : Node) (k : Nat) (x : Slot) (j : Nat) : (n.setSlot k x).thread j = n.thread j := rfl
@[simp] theorem Node.setSlot_ctx' (n : Node) (k : Nat) (x : Slot) (j : Nat) : (n.setSlot k x).ctx j = n.ctx j := rfl
@[simp] theorem Node.setSlot_acc' (n : Node) (k : Nat) (x : Slot) (j : Nat) : (n.setSlot k x).acc j = n.acc j := rfl
@[simp] theorem Node.setSlot_reg' (n : Node) (k : Nat) (x : Slot) (m : RegName) (j : Nat) : (n.setSlot k x).reg m j = n.reg m j := rfl
@[simp] theorem Node.setSlot_queue' (n : Node) (k : Nat) (x : Slot) (j : Nat) : (n.setSlot k x).queue j = n.queue j := rfl
@[simp] theorem Node.setSlot_qcfg' (n : Node) (k : Nat) (x : Slot) (j : Nat) : (n.setSlot k x).qcfg j = n.qcfg j := rfl
@[simp] theorem Node.setSlot_sync' (n : Node) (k : Nat) (x : Slot) (j : Nat) : (n.setSlot k x).sync j = n.sync j := rfl
@[simp] theorem Node.setSlot_client' (n : Node) (k : Nat) (x : Slot) (j : Nat) : (n.setSlot k x).client j = n.client j := rfl
@[simp] theorem Node.setSlot_cliId' (n : Node) (k : Nat) (x : Slot) (j : Nat) : (n.setSlot k x).cliId j = n.cliId j := rfl
@[simp] theorem Node.setSlot_tile' (n : Node) (k : Nat) (x : Slot) (j : Nat) : (n.setSlot k x).tile j = n.tile j := rfl
@[simp] theorem Node.setSlot_port' (n : Node) (k : Nat) (x : Slot) (j : Nat) : (n.setSlot k x).port j = n.port j := rfl
@[simp] theorem Node.setSlot_job' (n : Node) (k : Nat) (x : Slot) (j : Nat) : (n.setSlot k x).job j = n.job j := rfl
@[simp] theorem Node.setSlot_session' (n : Node) (k : Nat) (x : Slot) (j : Nat) : (n.setSlot k x).session j = n.session j := rfl
@[simp] theorem Node.setSlot_ten' (n : Node) (k : Nat) (x : Slot) (j : Nat) : (n.setSlot k x).ten j = n.ten j := rfl
@[simp] theorem Node.setSlot_kslot' (n : Node) (k : Nat) (x : Slot) (j : Nat) : (n.setSlot k x).kslot j = n.kslot j := rfl
@[simp] theorem Node.setSlot_region' (n : Node) (k : Nat) (x : Slot) (p g : Nat) : (n.setSlot k x).region p g = n.region p g := rfl
@[simp] theorem Node.setSlot_read' (n : Node) (k : Nat) (x : Slot) (p c w : Nat) : (n.setSlot k x).read p c w = n.read p c w := rfl
@[simp] theorem Node.setSlot_dataUp' (n : Node) (k : Nat) (x : Slot) : (n.setSlot k x).dataUp = n.dataUp := rfl
@[simp] theorem Node.setSlot_linksUp' (n : Node) (k : Nat) (x : Slot) : (n.setSlot k x).linksUp = n.linksUp := rfl
@[simp] theorem Node.setSlot_now' (n : Node) (k : Nat) (x : Slot) : (n.setSlot k x).now = n.now := rfl
@[simp] theorem Node.setSlot_fixedSlot' (n : Node) (k : Nat) (x : Slot) : (n.setSlot k x).fixedSlot = n.fixedSlot := rfl
@[simp] theorem Node.setSlot_auditOk' (n : Node) (k : Nat) (x : Slot) : (n.setSlot k x).auditOk = n.auditOk := rfl

/-! ### `Node.setTile` -/

@[simp] theorem Node.setTile_fuses (n : Node) (k : Nat) (x : Cassette) : (n.setTile k x).fuses = n.fuses := rfl
@[simp] theorem Node.setTile_qspi (n : Node) (k : Nat) (x : Cassette) : (n.setTile k x).qspi = n.qspi := rfl
@[simp] theorem Node.setTile_dev (n : Node) (k : Nat) (x : Cassette) : (n.setTile k x).dev = n.dev := rfl
@[simp] theorem Node.setTile_mgt (n : Node) (k : Nat) (x : Cassette) : (n.setTile k x).mgt = n.mgt := rfl
@[simp] theorem Node.setTile_power (n : Node) (k : Nat) (x : Cassette) : (n.setTile k x).power = n.power := rfl
@[simp] theorem Node.setTile_mbox (n : Node) (k : Nat) (x : Cassette) : (n.setTile k x).mbox = n.mbox := rfl
@[simp] theorem Node.setTile_log (n : Node) (k : Nat) (x : Cassette) : (n.setTile k x).log = n.log := rfl
@[simp] theorem Node.setTile_snap (n : Node) (k : Nat) (x : Cassette) : (n.setTile k x).snap = n.snap := rfl
@[simp] theorem Node.setTile_sec (n : Node) (k : Nat) (x : Cassette) : (n.setTile k x).sec = n.sec := rfl
@[simp] theorem Node.setTile_hif (n : Node) (k : Nat) (x : Cassette) : (n.setTile k x).hif = n.hif := rfl
@[simp] theorem Node.setTile_qsy (n : Node) (k : Nat) (x : Cassette) : (n.setTile k x).qsy = n.qsy := rfl
@[simp] theorem Node.setTile_adm (n : Node) (k : Nat) (x : Cassette) : (n.setTile k x).adm = n.adm := rfl
@[simp] theorem Node.setTile_index (n : Node) (k : Nat) (x : Cassette) : (n.setTile k x).index = n.index := rfl
@[simp] theorem Node.setTile_spokes (n : Node) (k : Nat) (x : Cassette) : (n.setTile k x).spokes = n.spokes := rfl
@[simp] theorem Node.setTile_sel (n : Node) (k : Nat) (x : Cassette) : (n.setTile k x).sel = n.sel := rfl
@[simp] theorem Node.setTile_cas_slots (n : Node) (k : Nat) (x : Cassette) : (n.setTile k x).cas.slots = n.cas.slots := rfl
@[simp] theorem Node.setTile_cas_tiles (n : Node) (k : Nat) (x : Cassette) : (n.setTile k x).cas.tiles = KList.put n.cas.tiles k x := rfl
@[simp] theorem Node.setTile_cas_fsWin (n : Node) (k : Nat) (x : Cassette) : (n.setTile k x).cas.fsWin = n.cas.fsWin := rfl
@[simp] theorem Node.setTile_store (n : Node) (k : Nat) (x : Cassette) : (n.setTile k x).store = n.store := rfl
@[simp] theorem Node.setTile_mem (n : Node) (k : Nat) (x : Cassette) : (n.setTile k x).mem = n.mem := rfl
@[simp] theorem Node.setTile_flash (n : Node) (k : Nat) (x : Cassette) : (n.setTile k x).flash = n.flash := rfl
@[simp] theorem Node.setTile_links (n : Node) (k : Nat) (x : Cassette) : (n.setTile k x).links = n.links := rfl
@[simp] theorem Node.setTile_fabric (n : Node) (k : Nat) (x : Cassette) : (n.setTile k x).fabric = n.fabric := rfl
@[simp] theorem Node.setTile_peloton (n : Node) (k : Nat) (x : Cassette) : (n.setTile k x).peloton = n.peloton := rfl
@[simp] theorem Node.setTile_regs (n : Node) (k : Nat) (x : Cassette) : (n.setTile k x).regs = n.regs := rfl
@[simp] theorem Node.setTile_out (n : Node) (k : Nat) (x : Cassette) : (n.setTile k x).out = n.out := rfl
@[simp] theorem Node.setTile_clk (n : Node) (k : Nat) (x : Cassette) : (n.setTile k x).clk = n.clk := rfl
@[simp] theorem Node.setTile_freeCtr (n : Node) (k : Nat) (x : Cassette) : (n.setTile k x).freeCtr = n.freeCtr := rfl
@[simp] theorem Node.setTile_nextId (n : Node) (k : Nat) (x : Cassette) : (n.setTile k x).nextId = n.nextId := rfl
@[simp] theorem Node.setTile_thread' (n : Node) (k : Nat) (x : Cassette) (j : Nat) : (n.setTile k x).thread j = n.thread j := rfl
@[simp] theorem Node.setTile_ctx' (n : Node) (k : Nat) (x : Cassette) (j : Nat) : (n.setTile k x).ctx j = n.ctx j := rfl
@[simp] theorem Node.setTile_acc' (n : Node) (k : Nat) (x : Cassette) (j : Nat) : (n.setTile k x).acc j = n.acc j := rfl
@[simp] theorem Node.setTile_reg' (n : Node) (k : Nat) (x : Cassette) (m : RegName) (j : Nat) : (n.setTile k x).reg m j = n.reg m j := rfl
@[simp] theorem Node.setTile_queue' (n : Node) (k : Nat) (x : Cassette) (j : Nat) : (n.setTile k x).queue j = n.queue j := rfl
@[simp] theorem Node.setTile_qcfg' (n : Node) (k : Nat) (x : Cassette) (j : Nat) : (n.setTile k x).qcfg j = n.qcfg j := rfl
@[simp] theorem Node.setTile_sync' (n : Node) (k : Nat) (x : Cassette) (j : Nat) : (n.setTile k x).sync j = n.sync j := rfl
@[simp] theorem Node.setTile_client' (n : Node) (k : Nat) (x : Cassette) (j : Nat) : (n.setTile k x).client j = n.client j := rfl
@[simp] theorem Node.setTile_cliId' (n : Node) (k : Nat) (x : Cassette) (j : Nat) : (n.setTile k x).cliId j = n.cliId j := rfl
@[simp] theorem Node.setTile_slot' (n : Node) (k : Nat) (x : Cassette) (j : Nat) : (n.setTile k x).slot j = n.slot j := rfl
@[simp] theorem Node.setTile_port' (n : Node) (k : Nat) (x : Cassette) (j : Nat) : (n.setTile k x).port j = n.port j := rfl
@[simp] theorem Node.setTile_job' (n : Node) (k : Nat) (x : Cassette) (j : Nat) : (n.setTile k x).job j = n.job j := rfl
@[simp] theorem Node.setTile_session' (n : Node) (k : Nat) (x : Cassette) (j : Nat) : (n.setTile k x).session j = n.session j := rfl
@[simp] theorem Node.setTile_ten' (n : Node) (k : Nat) (x : Cassette) (j : Nat) : (n.setTile k x).ten j = n.ten j := rfl
@[simp] theorem Node.setTile_kslot' (n : Node) (k : Nat) (x : Cassette) (j : Nat) : (n.setTile k x).kslot j = n.kslot j := rfl
@[simp] theorem Node.setTile_region' (n : Node) (k : Nat) (x : Cassette) (p g : Nat) : (n.setTile k x).region p g = n.region p g := rfl
@[simp] theorem Node.setTile_read' (n : Node) (k : Nat) (x : Cassette) (p c w : Nat) : (n.setTile k x).read p c w = n.read p c w := rfl
@[simp] theorem Node.setTile_dataUp' (n : Node) (k : Nat) (x : Cassette) : (n.setTile k x).dataUp = n.dataUp := rfl
@[simp] theorem Node.setTile_linksUp' (n : Node) (k : Nat) (x : Cassette) : (n.setTile k x).linksUp = n.linksUp := rfl
@[simp] theorem Node.setTile_now' (n : Node) (k : Nat) (x : Cassette) : (n.setTile k x).now = n.now := rfl
@[simp] theorem Node.setTile_fixedSlot' (n : Node) (k : Nat) (x : Cassette) : (n.setTile k x).fixedSlot = n.fixedSlot := rfl
@[simp] theorem Node.setTile_auditOk' (n : Node) (k : Nat) (x : Cassette) : (n.setTile k x).auditOk = n.auditOk := rfl

/-! ### `Node.setList` -/

@[simp] theorem Node.setList_fuses (n : Node) (k : Nat) (x : HubList) : (n.setList k x).fuses = n.fuses := rfl
@[simp] theorem Node.setList_qspi (n : Node) (k : Nat) (x : HubList) : (n.setList k x).qspi = n.qspi := rfl
@[simp] theorem Node.setList_dev (n : Node) (k : Nat) (x : HubList) : (n.setList k x).dev = n.dev := rfl
@[simp] theorem Node.setList_mgt (n : Node) (k : Nat) (x : HubList) : (n.setList k x).mgt = n.mgt := rfl
@[simp] theorem Node.setList_power (n : Node) (k : Nat) (x : HubList) : (n.setList k x).power = n.power := rfl
@[simp] theorem Node.setList_mbox (n : Node) (k : Nat) (x : HubList) : (n.setList k x).mbox = n.mbox := rfl
@[simp] theorem Node.setList_log (n : Node) (k : Nat) (x : HubList) : (n.setList k x).log = n.log := rfl
@[simp] theorem Node.setList_snap (n : Node) (k : Nat) (x : HubList) : (n.setList k x).snap = n.snap := rfl
@[simp] theorem Node.setList_sec (n : Node) (k : Nat) (x : HubList) : (n.setList k x).sec = n.sec := rfl
@[simp] theorem Node.setList_hif (n : Node) (k : Nat) (x : HubList) : (n.setList k x).hif = n.hif := rfl
@[simp] theorem Node.setList_qsy (n : Node) (k : Nat) (x : HubList) : (n.setList k x).qsy = n.qsy := rfl
@[simp] theorem Node.setList_adm (n : Node) (k : Nat) (x : HubList) : (n.setList k x).adm = n.adm := rfl
@[simp] theorem Node.setList_index (n : Node) (k : Nat) (x : HubList) : (n.setList k x).index = n.index := rfl
@[simp] theorem Node.setList_spokes (n : Node) (k : Nat) (x : HubList) : (n.setList k x).spokes = n.spokes := rfl
@[simp] theorem Node.setList_sel_lists (n : Node) (k : Nat) (x : HubList) : (n.setList k x).sel.lists = KList.put n.sel.lists k x := rfl
@[simp] theorem Node.setList_sel_waits (n : Node) (k : Nat) (x : HubList) : (n.setList k x).sel.waits = n.sel.waits := rfl
@[simp] theorem Node.setList_sel_argmax (n : Node) (k : Nat) (x : HubList) : (n.setList k x).sel.argmax = n.sel.argmax := rfl
@[simp] theorem Node.setList_sel_sessions (n : Node) (k : Nat) (x : HubList) : (n.setList k x).sel.sessions = n.sel.sessions := rfl
@[simp] theorem Node.setList_sel_msWait (n : Node) (k : Nat) (x : HubList) : (n.setList k x).sel.msWait = n.sel.msWait := rfl
@[simp] theorem Node.setList_sel_held (n : Node) (k : Nat) (x : HubList) : (n.setList k x).sel.held = n.sel.held := rfl
@[simp] theorem Node.setList_sel_bp (n : Node) (k : Nat) (x : HubList) : (n.setList k x).sel.bp = n.sel.bp := rfl
@[simp] theorem Node.setList_sel_blkWait (n : Node) (k : Nat) (x : HubList) : (n.setList k x).sel.blkWait = n.sel.blkWait := rfl
@[simp] theorem Node.setList_sel_msWaitCnt (n : Node) (k : Nat) (x : HubList) : (n.setList k x).sel.msWaitCnt = n.sel.msWaitCnt := rfl
@[simp] theorem Node.setList_sel_miss (n : Node) (k : Nat) (x : HubList) : (n.setList k x).sel.miss = n.sel.miss := rfl
@[simp] theorem Node.setList_sel_late (n : Node) (k : Nat) (x : HubList) : (n.setList k x).sel.late = n.sel.late := rfl
@[simp] theorem Node.setList_sel_rx (n : Node) (k : Nat) (x : HubList) : (n.setList k x).sel.rx = n.sel.rx := rfl
@[simp] theorem Node.setList_cas (n : Node) (k : Nat) (x : HubList) : (n.setList k x).cas = n.cas := rfl
@[simp] theorem Node.setList_store (n : Node) (k : Nat) (x : HubList) : (n.setList k x).store = n.store := rfl
@[simp] theorem Node.setList_mem (n : Node) (k : Nat) (x : HubList) : (n.setList k x).mem = n.mem := rfl
@[simp] theorem Node.setList_flash (n : Node) (k : Nat) (x : HubList) : (n.setList k x).flash = n.flash := rfl
@[simp] theorem Node.setList_links (n : Node) (k : Nat) (x : HubList) : (n.setList k x).links = n.links := rfl
@[simp] theorem Node.setList_fabric (n : Node) (k : Nat) (x : HubList) : (n.setList k x).fabric = n.fabric := rfl
@[simp] theorem Node.setList_peloton (n : Node) (k : Nat) (x : HubList) : (n.setList k x).peloton = n.peloton := rfl
@[simp] theorem Node.setList_regs (n : Node) (k : Nat) (x : HubList) : (n.setList k x).regs = n.regs := rfl
@[simp] theorem Node.setList_out (n : Node) (k : Nat) (x : HubList) : (n.setList k x).out = n.out := rfl
@[simp] theorem Node.setList_clk (n : Node) (k : Nat) (x : HubList) : (n.setList k x).clk = n.clk := rfl
@[simp] theorem Node.setList_freeCtr (n : Node) (k : Nat) (x : HubList) : (n.setList k x).freeCtr = n.freeCtr := rfl
@[simp] theorem Node.setList_nextId (n : Node) (k : Nat) (x : HubList) : (n.setList k x).nextId = n.nextId := rfl
@[simp] theorem Node.setList_thread' (n : Node) (k : Nat) (x : HubList) (j : Nat) : (n.setList k x).thread j = n.thread j := rfl
@[simp] theorem Node.setList_ctx' (n : Node) (k : Nat) (x : HubList) (j : Nat) : (n.setList k x).ctx j = n.ctx j := rfl
@[simp] theorem Node.setList_acc' (n : Node) (k : Nat) (x : HubList) (j : Nat) : (n.setList k x).acc j = n.acc j := rfl
@[simp] theorem Node.setList_reg' (n : Node) (k : Nat) (x : HubList) (m : RegName) (j : Nat) : (n.setList k x).reg m j = n.reg m j := rfl
@[simp] theorem Node.setList_queue' (n : Node) (k : Nat) (x : HubList) (j : Nat) : (n.setList k x).queue j = n.queue j := rfl
@[simp] theorem Node.setList_qcfg' (n : Node) (k : Nat) (x : HubList) (j : Nat) : (n.setList k x).qcfg j = n.qcfg j := rfl
@[simp] theorem Node.setList_sync' (n : Node) (k : Nat) (x : HubList) (j : Nat) : (n.setList k x).sync j = n.sync j := rfl
@[simp] theorem Node.setList_client' (n : Node) (k : Nat) (x : HubList) (j : Nat) : (n.setList k x).client j = n.client j := rfl
@[simp] theorem Node.setList_cliId' (n : Node) (k : Nat) (x : HubList) (j : Nat) : (n.setList k x).cliId j = n.cliId j := rfl
@[simp] theorem Node.setList_slot' (n : Node) (k : Nat) (x : HubList) (j : Nat) : (n.setList k x).slot j = n.slot j := rfl
@[simp] theorem Node.setList_tile' (n : Node) (k : Nat) (x : HubList) (j : Nat) : (n.setList k x).tile j = n.tile j := rfl
@[simp] theorem Node.setList_port' (n : Node) (k : Nat) (x : HubList) (j : Nat) : (n.setList k x).port j = n.port j := rfl
@[simp] theorem Node.setList_job' (n : Node) (k : Nat) (x : HubList) (j : Nat) : (n.setList k x).job j = n.job j := rfl
@[simp] theorem Node.setList_session' (n : Node) (k : Nat) (x : HubList) (j : Nat) : (n.setList k x).session j = n.session j := rfl
@[simp] theorem Node.setList_ten' (n : Node) (k : Nat) (x : HubList) (j : Nat) : (n.setList k x).ten j = n.ten j := rfl
@[simp] theorem Node.setList_kslot' (n : Node) (k : Nat) (x : HubList) (j : Nat) : (n.setList k x).kslot j = n.kslot j := rfl
@[simp] theorem Node.setList_region' (n : Node) (k : Nat) (x : HubList) (p g : Nat) : (n.setList k x).region p g = n.region p g := rfl
@[simp] theorem Node.setList_read' (n : Node) (k : Nat) (x : HubList) (p c w : Nat) : (n.setList k x).read p c w = n.read p c w := rfl
@[simp] theorem Node.setList_dataUp' (n : Node) (k : Nat) (x : HubList) : (n.setList k x).dataUp = n.dataUp := rfl
@[simp] theorem Node.setList_linksUp' (n : Node) (k : Nat) (x : HubList) : (n.setList k x).linksUp = n.linksUp := rfl
@[simp] theorem Node.setList_now' (n : Node) (k : Nat) (x : HubList) : (n.setList k x).now = n.now := rfl
@[simp] theorem Node.setList_fixedSlot' (n : Node) (k : Nat) (x : HubList) : (n.setList k x).fixedSlot = n.fixedSlot := rfl
@[simp] theorem Node.setList_auditOk' (n : Node) (k : Nat) (x : HubList) : (n.setList k x).auditOk = n.auditOk := rfl

/-! ### `Node.setHubWaits` -/

@[simp] theorem Node.setHubWaits_fuses (n : Node) (k : Nat) (x : List BlockWait) : (n.setHubWaits k x).fuses = n.fuses := rfl
@[simp] theorem Node.setHubWaits_qspi (n : Node) (k : Nat) (x : List BlockWait) : (n.setHubWaits k x).qspi = n.qspi := rfl
@[simp] theorem Node.setHubWaits_dev (n : Node) (k : Nat) (x : List BlockWait) : (n.setHubWaits k x).dev = n.dev := rfl
@[simp] theorem Node.setHubWaits_mgt (n : Node) (k : Nat) (x : List BlockWait) : (n.setHubWaits k x).mgt = n.mgt := rfl
@[simp] theorem Node.setHubWaits_power (n : Node) (k : Nat) (x : List BlockWait) : (n.setHubWaits k x).power = n.power := rfl
@[simp] theorem Node.setHubWaits_mbox (n : Node) (k : Nat) (x : List BlockWait) : (n.setHubWaits k x).mbox = n.mbox := rfl
@[simp] theorem Node.setHubWaits_log (n : Node) (k : Nat) (x : List BlockWait) : (n.setHubWaits k x).log = n.log := rfl
@[simp] theorem Node.setHubWaits_snap (n : Node) (k : Nat) (x : List BlockWait) : (n.setHubWaits k x).snap = n.snap := rfl
@[simp] theorem Node.setHubWaits_sec (n : Node) (k : Nat) (x : List BlockWait) : (n.setHubWaits k x).sec = n.sec := rfl
@[simp] theorem Node.setHubWaits_hif (n : Node) (k : Nat) (x : List BlockWait) : (n.setHubWaits k x).hif = n.hif := rfl
@[simp] theorem Node.setHubWaits_qsy (n : Node) (k : Nat) (x : List BlockWait) : (n.setHubWaits k x).qsy = n.qsy := rfl
@[simp] theorem Node.setHubWaits_adm (n : Node) (k : Nat) (x : List BlockWait) : (n.setHubWaits k x).adm = n.adm := rfl
@[simp] theorem Node.setHubWaits_index (n : Node) (k : Nat) (x : List BlockWait) : (n.setHubWaits k x).index = n.index := rfl
@[simp] theorem Node.setHubWaits_spokes (n : Node) (k : Nat) (x : List BlockWait) : (n.setHubWaits k x).spokes = n.spokes := rfl
@[simp] theorem Node.setHubWaits_sel_lists (n : Node) (k : Nat) (x : List BlockWait) : (n.setHubWaits k x).sel.lists = n.sel.lists := rfl
@[simp] theorem Node.setHubWaits_sel_waits (n : Node) (k : Nat) (x : List BlockWait) : (n.setHubWaits k x).sel.waits = KList.put n.sel.waits k x := rfl
@[simp] theorem Node.setHubWaits_sel_argmax (n : Node) (k : Nat) (x : List BlockWait) : (n.setHubWaits k x).sel.argmax = n.sel.argmax := rfl
@[simp] theorem Node.setHubWaits_sel_sessions (n : Node) (k : Nat) (x : List BlockWait) : (n.setHubWaits k x).sel.sessions = n.sel.sessions := rfl
@[simp] theorem Node.setHubWaits_sel_msWait (n : Node) (k : Nat) (x : List BlockWait) : (n.setHubWaits k x).sel.msWait = n.sel.msWait := rfl
@[simp] theorem Node.setHubWaits_sel_held (n : Node) (k : Nat) (x : List BlockWait) : (n.setHubWaits k x).sel.held = n.sel.held := rfl
@[simp] theorem Node.setHubWaits_sel_bp (n : Node) (k : Nat) (x : List BlockWait) : (n.setHubWaits k x).sel.bp = n.sel.bp := rfl
@[simp] theorem Node.setHubWaits_sel_blkWait (n : Node) (k : Nat) (x : List BlockWait) : (n.setHubWaits k x).sel.blkWait = n.sel.blkWait := rfl
@[simp] theorem Node.setHubWaits_sel_msWaitCnt (n : Node) (k : Nat) (x : List BlockWait) : (n.setHubWaits k x).sel.msWaitCnt = n.sel.msWaitCnt := rfl
@[simp] theorem Node.setHubWaits_sel_miss (n : Node) (k : Nat) (x : List BlockWait) : (n.setHubWaits k x).sel.miss = n.sel.miss := rfl
@[simp] theorem Node.setHubWaits_sel_late (n : Node) (k : Nat) (x : List BlockWait) : (n.setHubWaits k x).sel.late = n.sel.late := rfl
@[simp] theorem Node.setHubWaits_sel_rx (n : Node) (k : Nat) (x : List BlockWait) : (n.setHubWaits k x).sel.rx = n.sel.rx := rfl
@[simp] theorem Node.setHubWaits_cas (n : Node) (k : Nat) (x : List BlockWait) : (n.setHubWaits k x).cas = n.cas := rfl
@[simp] theorem Node.setHubWaits_store (n : Node) (k : Nat) (x : List BlockWait) : (n.setHubWaits k x).store = n.store := rfl
@[simp] theorem Node.setHubWaits_mem (n : Node) (k : Nat) (x : List BlockWait) : (n.setHubWaits k x).mem = n.mem := rfl
@[simp] theorem Node.setHubWaits_flash (n : Node) (k : Nat) (x : List BlockWait) : (n.setHubWaits k x).flash = n.flash := rfl
@[simp] theorem Node.setHubWaits_links (n : Node) (k : Nat) (x : List BlockWait) : (n.setHubWaits k x).links = n.links := rfl
@[simp] theorem Node.setHubWaits_fabric (n : Node) (k : Nat) (x : List BlockWait) : (n.setHubWaits k x).fabric = n.fabric := rfl
@[simp] theorem Node.setHubWaits_peloton (n : Node) (k : Nat) (x : List BlockWait) : (n.setHubWaits k x).peloton = n.peloton := rfl
@[simp] theorem Node.setHubWaits_regs (n : Node) (k : Nat) (x : List BlockWait) : (n.setHubWaits k x).regs = n.regs := rfl
@[simp] theorem Node.setHubWaits_out (n : Node) (k : Nat) (x : List BlockWait) : (n.setHubWaits k x).out = n.out := rfl
@[simp] theorem Node.setHubWaits_clk (n : Node) (k : Nat) (x : List BlockWait) : (n.setHubWaits k x).clk = n.clk := rfl
@[simp] theorem Node.setHubWaits_freeCtr (n : Node) (k : Nat) (x : List BlockWait) : (n.setHubWaits k x).freeCtr = n.freeCtr := rfl
@[simp] theorem Node.setHubWaits_nextId (n : Node) (k : Nat) (x : List BlockWait) : (n.setHubWaits k x).nextId = n.nextId := rfl
@[simp] theorem Node.setHubWaits_thread' (n : Node) (k : Nat) (x : List BlockWait) (j : Nat) : (n.setHubWaits k x).thread j = n.thread j := rfl
@[simp] theorem Node.setHubWaits_ctx' (n : Node) (k : Nat) (x : List BlockWait) (j : Nat) : (n.setHubWaits k x).ctx j = n.ctx j := rfl
@[simp] theorem Node.setHubWaits_acc' (n : Node) (k : Nat) (x : List BlockWait) (j : Nat) : (n.setHubWaits k x).acc j = n.acc j := rfl
@[simp] theorem Node.setHubWaits_reg' (n : Node) (k : Nat) (x : List BlockWait) (m : RegName) (j : Nat) : (n.setHubWaits k x).reg m j = n.reg m j := rfl
@[simp] theorem Node.setHubWaits_queue' (n : Node) (k : Nat) (x : List BlockWait) (j : Nat) : (n.setHubWaits k x).queue j = n.queue j := rfl
@[simp] theorem Node.setHubWaits_qcfg' (n : Node) (k : Nat) (x : List BlockWait) (j : Nat) : (n.setHubWaits k x).qcfg j = n.qcfg j := rfl
@[simp] theorem Node.setHubWaits_sync' (n : Node) (k : Nat) (x : List BlockWait) (j : Nat) : (n.setHubWaits k x).sync j = n.sync j := rfl
@[simp] theorem Node.setHubWaits_client' (n : Node) (k : Nat) (x : List BlockWait) (j : Nat) : (n.setHubWaits k x).client j = n.client j := rfl
@[simp] theorem Node.setHubWaits_cliId' (n : Node) (k : Nat) (x : List BlockWait) (j : Nat) : (n.setHubWaits k x).cliId j = n.cliId j := rfl
@[simp] theorem Node.setHubWaits_slot' (n : Node) (k : Nat) (x : List BlockWait) (j : Nat) : (n.setHubWaits k x).slot j = n.slot j := rfl
@[simp] theorem Node.setHubWaits_tile' (n : Node) (k : Nat) (x : List BlockWait) (j : Nat) : (n.setHubWaits k x).tile j = n.tile j := rfl
@[simp] theorem Node.setHubWaits_port' (n : Node) (k : Nat) (x : List BlockWait) (j : Nat) : (n.setHubWaits k x).port j = n.port j := rfl
@[simp] theorem Node.setHubWaits_job' (n : Node) (k : Nat) (x : List BlockWait) (j : Nat) : (n.setHubWaits k x).job j = n.job j := rfl
@[simp] theorem Node.setHubWaits_session' (n : Node) (k : Nat) (x : List BlockWait) (j : Nat) : (n.setHubWaits k x).session j = n.session j := rfl
@[simp] theorem Node.setHubWaits_ten' (n : Node) (k : Nat) (x : List BlockWait) (j : Nat) : (n.setHubWaits k x).ten j = n.ten j := rfl
@[simp] theorem Node.setHubWaits_kslot' (n : Node) (k : Nat) (x : List BlockWait) (j : Nat) : (n.setHubWaits k x).kslot j = n.kslot j := rfl
@[simp] theorem Node.setHubWaits_region' (n : Node) (k : Nat) (x : List BlockWait) (p g : Nat) : (n.setHubWaits k x).region p g = n.region p g := rfl
@[simp] theorem Node.setHubWaits_read' (n : Node) (k : Nat) (x : List BlockWait) (p c w : Nat) : (n.setHubWaits k x).read p c w = n.read p c w := rfl
@[simp] theorem Node.setHubWaits_dataUp' (n : Node) (k : Nat) (x : List BlockWait) : (n.setHubWaits k x).dataUp = n.dataUp := rfl
@[simp] theorem Node.setHubWaits_linksUp' (n : Node) (k : Nat) (x : List BlockWait) : (n.setHubWaits k x).linksUp = n.linksUp := rfl
@[simp] theorem Node.setHubWaits_now' (n : Node) (k : Nat) (x : List BlockWait) : (n.setHubWaits k x).now = n.now := rfl
@[simp] theorem Node.setHubWaits_fixedSlot' (n : Node) (k : Nat) (x : List BlockWait) : (n.setHubWaits k x).fixedSlot = n.fixedSlot := rfl
@[simp] theorem Node.setHubWaits_auditOk' (n : Node) (k : Nat) (x : List BlockWait) : (n.setHubWaits k x).auditOk = n.auditOk := rfl

/-! ### `Node.setShard` -/

@[simp] theorem Node.setShard_fuses (n : Node) (x : Shard) : (n.setShard x).fuses = n.fuses := rfl
@[simp] theorem Node.setShard_qspi (n : Node) (x : Shard) : (n.setShard x).qspi = n.qspi := rfl
@[simp] theorem Node.setShard_dev (n : Node) (x : Shard) : (n.setShard x).dev = n.dev := rfl
@[simp] theorem Node.setShard_mgt (n : Node) (x : Shard) : (n.setShard x).mgt = n.mgt := rfl
@[simp] theorem Node.setShard_power (n : Node) (x : Shard) : (n.setShard x).power = n.power := rfl
@[simp] theorem Node.setShard_mbox (n : Node) (x : Shard) : (n.setShard x).mbox = n.mbox := rfl
@[simp] theorem Node.setShard_log (n : Node) (x : Shard) : (n.setShard x).log = n.log := rfl
@[simp] theorem Node.setShard_snap (n : Node) (x : Shard) : (n.setShard x).snap = n.snap := rfl
@[simp] theorem Node.setShard_sec (n : Node) (x : Shard) : (n.setShard x).sec = n.sec := rfl
@[simp] theorem Node.setShard_hif (n : Node) (x : Shard) : (n.setShard x).hif = n.hif := rfl
@[simp] theorem Node.setShard_qsy (n : Node) (x : Shard) : (n.setShard x).qsy = n.qsy := rfl
@[simp] theorem Node.setShard_adm (n : Node) (x : Shard) : (n.setShard x).adm = n.adm := rfl
@[simp] theorem Node.setShard_index_shards (n : Node) (x : Shard) : (n.setShard x).index.shards = n.index.shards.map fun y => if y.id == x.id then x else y := rfl
@[simp] theorem Node.setShard_index_gens (n : Node) (x : Shard) : (n.setShard x).index.gens = n.index.gens := rfl
@[simp] theorem Node.setShard_index_seals (n : Node) (x : Shard) : (n.setShard x).index.seals = n.index.seals := rfl
@[simp] theorem Node.setShard_index_compactions (n : Node) (x : Shard) : (n.setShard x).index.compactions = n.index.compactions := rfl
@[simp] theorem Node.setShard_index_sealCnt (n : Node) (x : Shard) : (n.setShard x).index.sealCnt = n.index.sealCnt := rfl
@[simp] theorem Node.setShard_index_delMiss (n : Node) (x : Shard) : (n.setShard x).index.delMiss = n.index.delMiss := rfl
@[simp] theorem Node.setShard_index_nan (n : Node) (x : Shard) : (n.setShard x).index.nan = n.index.nan := rfl
@[simp] theorem Node.setShard_spokes (n : Node) (x : Shard) : (n.setShard x).spokes = n.spokes := rfl
@[simp] theorem Node.setShard_sel (n : Node) (x : Shard) : (n.setShard x).sel = n.sel := rfl
@[simp] theorem Node.setShard_cas (n : Node) (x : Shard) : (n.setShard x).cas = n.cas := rfl
@[simp] theorem Node.setShard_store (n : Node) (x : Shard) : (n.setShard x).store = n.store := rfl
@[simp] theorem Node.setShard_mem (n : Node) (x : Shard) : (n.setShard x).mem = n.mem := rfl
@[simp] theorem Node.setShard_flash (n : Node) (x : Shard) : (n.setShard x).flash = n.flash := rfl
@[simp] theorem Node.setShard_links (n : Node) (x : Shard) : (n.setShard x).links = n.links := rfl
@[simp] theorem Node.setShard_fabric (n : Node) (x : Shard) : (n.setShard x).fabric = n.fabric := rfl
@[simp] theorem Node.setShard_peloton (n : Node) (x : Shard) : (n.setShard x).peloton = n.peloton := rfl
@[simp] theorem Node.setShard_regs (n : Node) (x : Shard) : (n.setShard x).regs = n.regs := rfl
@[simp] theorem Node.setShard_out (n : Node) (x : Shard) : (n.setShard x).out = n.out := rfl
@[simp] theorem Node.setShard_clk (n : Node) (x : Shard) : (n.setShard x).clk = n.clk := rfl
@[simp] theorem Node.setShard_freeCtr (n : Node) (x : Shard) : (n.setShard x).freeCtr = n.freeCtr := rfl
@[simp] theorem Node.setShard_nextId (n : Node) (x : Shard) : (n.setShard x).nextId = n.nextId := rfl
@[simp] theorem Node.setShard_thread' (n : Node) (x : Shard) (j : Nat) : (n.setShard x).thread j = n.thread j := rfl
@[simp] theorem Node.setShard_ctx' (n : Node) (x : Shard) (j : Nat) : (n.setShard x).ctx j = n.ctx j := rfl
@[simp] theorem Node.setShard_acc' (n : Node) (x : Shard) (j : Nat) : (n.setShard x).acc j = n.acc j := rfl
@[simp] theorem Node.setShard_reg' (n : Node) (x : Shard) (m : RegName) (j : Nat) : (n.setShard x).reg m j = n.reg m j := rfl
@[simp] theorem Node.setShard_queue' (n : Node) (x : Shard) (j : Nat) : (n.setShard x).queue j = n.queue j := rfl
@[simp] theorem Node.setShard_qcfg' (n : Node) (x : Shard) (j : Nat) : (n.setShard x).qcfg j = n.qcfg j := rfl
@[simp] theorem Node.setShard_sync' (n : Node) (x : Shard) (j : Nat) : (n.setShard x).sync j = n.sync j := rfl
@[simp] theorem Node.setShard_client' (n : Node) (x : Shard) (j : Nat) : (n.setShard x).client j = n.client j := rfl
@[simp] theorem Node.setShard_cliId' (n : Node) (x : Shard) (j : Nat) : (n.setShard x).cliId j = n.cliId j := rfl
@[simp] theorem Node.setShard_slot' (n : Node) (x : Shard) (j : Nat) : (n.setShard x).slot j = n.slot j := rfl
@[simp] theorem Node.setShard_tile' (n : Node) (x : Shard) (j : Nat) : (n.setShard x).tile j = n.tile j := rfl
@[simp] theorem Node.setShard_port' (n : Node) (x : Shard) (j : Nat) : (n.setShard x).port j = n.port j := rfl
@[simp] theorem Node.setShard_job' (n : Node) (x : Shard) (j : Nat) : (n.setShard x).job j = n.job j := rfl
@[simp] theorem Node.setShard_session' (n : Node) (x : Shard) (j : Nat) : (n.setShard x).session j = n.session j := rfl
@[simp] theorem Node.setShard_ten' (n : Node) (x : Shard) (j : Nat) : (n.setShard x).ten j = n.ten j := rfl
@[simp] theorem Node.setShard_kslot' (n : Node) (x : Shard) (j : Nat) : (n.setShard x).kslot j = n.kslot j := rfl
@[simp] theorem Node.setShard_region' (n : Node) (x : Shard) (p g : Nat) : (n.setShard x).region p g = n.region p g := rfl
@[simp] theorem Node.setShard_read' (n : Node) (x : Shard) (p c w : Nat) : (n.setShard x).read p c w = n.read p c w := rfl
@[simp] theorem Node.setShard_dataUp' (n : Node) (x : Shard) : (n.setShard x).dataUp = n.dataUp := rfl
@[simp] theorem Node.setShard_linksUp' (n : Node) (x : Shard) : (n.setShard x).linksUp = n.linksUp := rfl
@[simp] theorem Node.setShard_now' (n : Node) (x : Shard) : (n.setShard x).now = n.now := rfl
@[simp] theorem Node.setShard_fixedSlot' (n : Node) (x : Shard) : (n.setShard x).fixedSlot = n.fixedSlot := rfl
@[simp] theorem Node.setShard_auditOk' (n : Node) (x : Shard) : (n.setShard x).auditOk = n.auditOk := rfl

/-! ### `Node.setTen` -/

@[simp] theorem Node.setTen_fuses (n : Node) (k : Nat) (x : TenCfg) : (n.setTen k x).fuses = n.fuses := rfl
@[simp] theorem Node.setTen_qspi (n : Node) (k : Nat) (x : TenCfg) : (n.setTen k x).qspi = n.qspi := rfl
@[simp] theorem Node.setTen_dev (n : Node) (k : Nat) (x : TenCfg) : (n.setTen k x).dev = n.dev := rfl
@[simp] theorem Node.setTen_mgt (n : Node) (k : Nat) (x : TenCfg) : (n.setTen k x).mgt = n.mgt := rfl
@[simp] theorem Node.setTen_power (n : Node) (k : Nat) (x : TenCfg) : (n.setTen k x).power = n.power := rfl
@[simp] theorem Node.setTen_mbox (n : Node) (k : Nat) (x : TenCfg) : (n.setTen k x).mbox = n.mbox := rfl
@[simp] theorem Node.setTen_log (n : Node) (k : Nat) (x : TenCfg) : (n.setTen k x).log = n.log := rfl
@[simp] theorem Node.setTen_snap (n : Node) (k : Nat) (x : TenCfg) : (n.setTen k x).snap = n.snap := rfl
@[simp] theorem Node.setTen_sec_ten (n : Node) (k : Nat) (x : TenCfg) : (n.setTen k x).sec.ten = KList.put n.sec.ten k x := rfl
@[simp] theorem Node.setTen_sec_destroying (n : Node) (k : Nat) (x : TenCfg) : (n.setTen k x).sec.destroying = n.sec.destroying := rfl
@[simp] theorem Node.setTen_sec_kslots (n : Node) (k : Nat) (x : TenCfg) : (n.setTen k x).sec.kslots = n.sec.kslots := rfl
@[simp] theorem Node.setTen_sec_persisted (n : Node) (k : Nat) (x : TenCfg) : (n.setTen k x).sec.persisted = n.sec.persisted := rfl
@[simp] theorem Node.setTen_sec_nonces (n : Node) (k : Nat) (x : TenCfg) : (n.setTen k x).sec.nonces = n.sec.nonces := rfl
@[simp] theorem Node.setTen_sec_grantSerial (n : Node) (k : Nat) (x : TenCfg) : (n.setTen k x).sec.grantSerial = n.sec.grantSerial := rfl
@[simp] theorem Node.setTen_sec_sessions (n : Node) (k : Nat) (x : TenCfg) : (n.setTen k x).sec.sessions = n.sec.sessions := rfl
@[simp] theorem Node.setTen_sec_conns (n : Node) (k : Nat) (x : TenCfg) : (n.setTen k x).sec.conns = n.sec.conns := rfl
@[simp] theorem Node.setTen_sec_slot1 (n : Node) (k : Nat) (x : TenCfg) : (n.setTen k x).sec.slot1 = n.sec.slot1 := rfl
@[simp] theorem Node.setTen_sec_audit (n : Node) (k : Nat) (x : TenCfg) : (n.setTen k x).sec.audit = n.sec.audit := rfl
@[simp] theorem Node.setTen_sec_audSeq (n : Node) (k : Nat) (x : TenCfg) : (n.setTen k x).sec.audSeq = n.sec.audSeq := rfl
@[simp] theorem Node.setTen_sec_token (n : Node) (k : Nat) (x : TenCfg) : (n.setTen k x).sec.token = n.sec.token := rfl
@[simp] theorem Node.setTen_sec_challenge (n : Node) (k : Nat) (x : TenCfg) : (n.setTen k x).sec.challenge = n.sec.challenge := rfl
@[simp] theorem Node.setTen_sec_halted (n : Node) (k : Nat) (x : TenCfg) : (n.setTen k x).sec.halted = n.sec.halted := rfl
@[simp] theorem Node.setTen_sec_grantEnd (n : Node) (k : Nat) (x : TenCfg) : (n.setTen k x).sec.grantEnd = n.sec.grantEnd := rfl
@[simp] theorem Node.setTen_hif (n : Node) (k : Nat) (x : TenCfg) : (n.setTen k x).hif = n.hif := rfl
@[simp] theorem Node.setTen_qsy (n : Node) (k : Nat) (x : TenCfg) : (n.setTen k x).qsy = n.qsy := rfl
@[simp] theorem Node.setTen_adm (n : Node) (k : Nat) (x : TenCfg) : (n.setTen k x).adm = n.adm := rfl
@[simp] theorem Node.setTen_index (n : Node) (k : Nat) (x : TenCfg) : (n.setTen k x).index = n.index := rfl
@[simp] theorem Node.setTen_spokes (n : Node) (k : Nat) (x : TenCfg) : (n.setTen k x).spokes = n.spokes := rfl
@[simp] theorem Node.setTen_sel (n : Node) (k : Nat) (x : TenCfg) : (n.setTen k x).sel = n.sel := rfl
@[simp] theorem Node.setTen_cas (n : Node) (k : Nat) (x : TenCfg) : (n.setTen k x).cas = n.cas := rfl
@[simp] theorem Node.setTen_store (n : Node) (k : Nat) (x : TenCfg) : (n.setTen k x).store = n.store := rfl
@[simp] theorem Node.setTen_mem (n : Node) (k : Nat) (x : TenCfg) : (n.setTen k x).mem = n.mem := rfl
@[simp] theorem Node.setTen_flash (n : Node) (k : Nat) (x : TenCfg) : (n.setTen k x).flash = n.flash := rfl
@[simp] theorem Node.setTen_links (n : Node) (k : Nat) (x : TenCfg) : (n.setTen k x).links = n.links := rfl
@[simp] theorem Node.setTen_fabric (n : Node) (k : Nat) (x : TenCfg) : (n.setTen k x).fabric = n.fabric := rfl
@[simp] theorem Node.setTen_peloton (n : Node) (k : Nat) (x : TenCfg) : (n.setTen k x).peloton = n.peloton := rfl
@[simp] theorem Node.setTen_regs (n : Node) (k : Nat) (x : TenCfg) : (n.setTen k x).regs = n.regs := rfl
@[simp] theorem Node.setTen_out (n : Node) (k : Nat) (x : TenCfg) : (n.setTen k x).out = n.out := rfl
@[simp] theorem Node.setTen_clk (n : Node) (k : Nat) (x : TenCfg) : (n.setTen k x).clk = n.clk := rfl
@[simp] theorem Node.setTen_freeCtr (n : Node) (k : Nat) (x : TenCfg) : (n.setTen k x).freeCtr = n.freeCtr := rfl
@[simp] theorem Node.setTen_nextId (n : Node) (k : Nat) (x : TenCfg) : (n.setTen k x).nextId = n.nextId := rfl
@[simp] theorem Node.setTen_thread' (n : Node) (k : Nat) (x : TenCfg) (j : Nat) : (n.setTen k x).thread j = n.thread j := rfl
@[simp] theorem Node.setTen_ctx' (n : Node) (k : Nat) (x : TenCfg) (j : Nat) : (n.setTen k x).ctx j = n.ctx j := rfl
@[simp] theorem Node.setTen_acc' (n : Node) (k : Nat) (x : TenCfg) (j : Nat) : (n.setTen k x).acc j = n.acc j := rfl
@[simp] theorem Node.setTen_reg' (n : Node) (k : Nat) (x : TenCfg) (m : RegName) (j : Nat) : (n.setTen k x).reg m j = n.reg m j := rfl
@[simp] theorem Node.setTen_queue' (n : Node) (k : Nat) (x : TenCfg) (j : Nat) : (n.setTen k x).queue j = n.queue j := rfl
@[simp] theorem Node.setTen_qcfg' (n : Node) (k : Nat) (x : TenCfg) (j : Nat) : (n.setTen k x).qcfg j = n.qcfg j := rfl
@[simp] theorem Node.setTen_sync' (n : Node) (k : Nat) (x : TenCfg) (j : Nat) : (n.setTen k x).sync j = n.sync j := rfl
@[simp] theorem Node.setTen_client' (n : Node) (k : Nat) (x : TenCfg) (j : Nat) : (n.setTen k x).client j = n.client j := rfl
@[simp] theorem Node.setTen_cliId' (n : Node) (k : Nat) (x : TenCfg) (j : Nat) : (n.setTen k x).cliId j = n.cliId j := rfl
@[simp] theorem Node.setTen_slot' (n : Node) (k : Nat) (x : TenCfg) (j : Nat) : (n.setTen k x).slot j = n.slot j := rfl
@[simp] theorem Node.setTen_tile' (n : Node) (k : Nat) (x : TenCfg) (j : Nat) : (n.setTen k x).tile j = n.tile j := rfl
@[simp] theorem Node.setTen_port' (n : Node) (k : Nat) (x : TenCfg) (j : Nat) : (n.setTen k x).port j = n.port j := rfl
@[simp] theorem Node.setTen_job' (n : Node) (k : Nat) (x : TenCfg) (j : Nat) : (n.setTen k x).job j = n.job j := rfl
@[simp] theorem Node.setTen_session' (n : Node) (k : Nat) (x : TenCfg) (j : Nat) : (n.setTen k x).session j = n.session j := rfl
@[simp] theorem Node.setTen_kslot' (n : Node) (k : Nat) (x : TenCfg) (j : Nat) : (n.setTen k x).kslot j = n.kslot j := rfl
@[simp] theorem Node.setTen_region' (n : Node) (k : Nat) (x : TenCfg) (p g : Nat) : (n.setTen k x).region p g = n.region p g := rfl
@[simp] theorem Node.setTen_read' (n : Node) (k : Nat) (x : TenCfg) (p c w : Nat) : (n.setTen k x).read p c w = n.read p c w := rfl
@[simp] theorem Node.setTen_dataUp' (n : Node) (k : Nat) (x : TenCfg) : (n.setTen k x).dataUp = n.dataUp := rfl
@[simp] theorem Node.setTen_linksUp' (n : Node) (k : Nat) (x : TenCfg) : (n.setTen k x).linksUp = n.linksUp := rfl
@[simp] theorem Node.setTen_now' (n : Node) (k : Nat) (x : TenCfg) : (n.setTen k x).now = n.now := rfl
@[simp] theorem Node.setTen_fixedSlot' (n : Node) (k : Nat) (x : TenCfg) : (n.setTen k x).fixedSlot = n.fixedSlot := rfl
@[simp] theorem Node.setTen_auditOk' (n : Node) (k : Nat) (x : TenCfg) : (n.setTen k x).auditOk = n.auditOk := rfl

/-! ### `Node.setKslot` -/

@[simp] theorem Node.setKslot_fuses (n : Node) (k : Nat) (x : KeySlot) : (n.setKslot k x).fuses = n.fuses := rfl
@[simp] theorem Node.setKslot_qspi (n : Node) (k : Nat) (x : KeySlot) : (n.setKslot k x).qspi = n.qspi := rfl
@[simp] theorem Node.setKslot_dev (n : Node) (k : Nat) (x : KeySlot) : (n.setKslot k x).dev = n.dev := rfl
@[simp] theorem Node.setKslot_mgt (n : Node) (k : Nat) (x : KeySlot) : (n.setKslot k x).mgt = n.mgt := rfl
@[simp] theorem Node.setKslot_power (n : Node) (k : Nat) (x : KeySlot) : (n.setKslot k x).power = n.power := rfl
@[simp] theorem Node.setKslot_mbox (n : Node) (k : Nat) (x : KeySlot) : (n.setKslot k x).mbox = n.mbox := rfl
@[simp] theorem Node.setKslot_log (n : Node) (k : Nat) (x : KeySlot) : (n.setKslot k x).log = n.log := rfl
@[simp] theorem Node.setKslot_snap (n : Node) (k : Nat) (x : KeySlot) : (n.setKslot k x).snap = n.snap := rfl
@[simp] theorem Node.setKslot_sec_ten (n : Node) (k : Nat) (x : KeySlot) : (n.setKslot k x).sec.ten = n.sec.ten := rfl
@[simp] theorem Node.setKslot_sec_destroying (n : Node) (k : Nat) (x : KeySlot) : (n.setKslot k x).sec.destroying = n.sec.destroying := rfl
@[simp] theorem Node.setKslot_sec_kslots (n : Node) (k : Nat) (x : KeySlot) : (n.setKslot k x).sec.kslots = KList.put n.sec.kslots k x := rfl
@[simp] theorem Node.setKslot_sec_persisted (n : Node) (k : Nat) (x : KeySlot) : (n.setKslot k x).sec.persisted = n.sec.persisted := rfl
@[simp] theorem Node.setKslot_sec_nonces (n : Node) (k : Nat) (x : KeySlot) : (n.setKslot k x).sec.nonces = n.sec.nonces := rfl
@[simp] theorem Node.setKslot_sec_grantSerial (n : Node) (k : Nat) (x : KeySlot) : (n.setKslot k x).sec.grantSerial = n.sec.grantSerial := rfl
@[simp] theorem Node.setKslot_sec_sessions (n : Node) (k : Nat) (x : KeySlot) : (n.setKslot k x).sec.sessions = n.sec.sessions := rfl
@[simp] theorem Node.setKslot_sec_conns (n : Node) (k : Nat) (x : KeySlot) : (n.setKslot k x).sec.conns = n.sec.conns := rfl
@[simp] theorem Node.setKslot_sec_slot1 (n : Node) (k : Nat) (x : KeySlot) : (n.setKslot k x).sec.slot1 = n.sec.slot1 := rfl
@[simp] theorem Node.setKslot_sec_audit (n : Node) (k : Nat) (x : KeySlot) : (n.setKslot k x).sec.audit = n.sec.audit := rfl
@[simp] theorem Node.setKslot_sec_audSeq (n : Node) (k : Nat) (x : KeySlot) : (n.setKslot k x).sec.audSeq = n.sec.audSeq := rfl
@[simp] theorem Node.setKslot_sec_token (n : Node) (k : Nat) (x : KeySlot) : (n.setKslot k x).sec.token = n.sec.token := rfl
@[simp] theorem Node.setKslot_sec_challenge (n : Node) (k : Nat) (x : KeySlot) : (n.setKslot k x).sec.challenge = n.sec.challenge := rfl
@[simp] theorem Node.setKslot_sec_halted (n : Node) (k : Nat) (x : KeySlot) : (n.setKslot k x).sec.halted = n.sec.halted := rfl
@[simp] theorem Node.setKslot_sec_grantEnd (n : Node) (k : Nat) (x : KeySlot) : (n.setKslot k x).sec.grantEnd = n.sec.grantEnd := rfl
@[simp] theorem Node.setKslot_hif (n : Node) (k : Nat) (x : KeySlot) : (n.setKslot k x).hif = n.hif := rfl
@[simp] theorem Node.setKslot_qsy (n : Node) (k : Nat) (x : KeySlot) : (n.setKslot k x).qsy = n.qsy := rfl
@[simp] theorem Node.setKslot_adm (n : Node) (k : Nat) (x : KeySlot) : (n.setKslot k x).adm = n.adm := rfl
@[simp] theorem Node.setKslot_index (n : Node) (k : Nat) (x : KeySlot) : (n.setKslot k x).index = n.index := rfl
@[simp] theorem Node.setKslot_spokes (n : Node) (k : Nat) (x : KeySlot) : (n.setKslot k x).spokes = n.spokes := rfl
@[simp] theorem Node.setKslot_sel (n : Node) (k : Nat) (x : KeySlot) : (n.setKslot k x).sel = n.sel := rfl
@[simp] theorem Node.setKslot_cas (n : Node) (k : Nat) (x : KeySlot) : (n.setKslot k x).cas = n.cas := rfl
@[simp] theorem Node.setKslot_store (n : Node) (k : Nat) (x : KeySlot) : (n.setKslot k x).store = n.store := rfl
@[simp] theorem Node.setKslot_mem (n : Node) (k : Nat) (x : KeySlot) : (n.setKslot k x).mem = n.mem := rfl
@[simp] theorem Node.setKslot_flash (n : Node) (k : Nat) (x : KeySlot) : (n.setKslot k x).flash = n.flash := rfl
@[simp] theorem Node.setKslot_links (n : Node) (k : Nat) (x : KeySlot) : (n.setKslot k x).links = n.links := rfl
@[simp] theorem Node.setKslot_fabric (n : Node) (k : Nat) (x : KeySlot) : (n.setKslot k x).fabric = n.fabric := rfl
@[simp] theorem Node.setKslot_peloton (n : Node) (k : Nat) (x : KeySlot) : (n.setKslot k x).peloton = n.peloton := rfl
@[simp] theorem Node.setKslot_regs (n : Node) (k : Nat) (x : KeySlot) : (n.setKslot k x).regs = n.regs := rfl
@[simp] theorem Node.setKslot_out (n : Node) (k : Nat) (x : KeySlot) : (n.setKslot k x).out = n.out := rfl
@[simp] theorem Node.setKslot_clk (n : Node) (k : Nat) (x : KeySlot) : (n.setKslot k x).clk = n.clk := rfl
@[simp] theorem Node.setKslot_freeCtr (n : Node) (k : Nat) (x : KeySlot) : (n.setKslot k x).freeCtr = n.freeCtr := rfl
@[simp] theorem Node.setKslot_nextId (n : Node) (k : Nat) (x : KeySlot) : (n.setKslot k x).nextId = n.nextId := rfl
@[simp] theorem Node.setKslot_thread' (n : Node) (k : Nat) (x : KeySlot) (j : Nat) : (n.setKslot k x).thread j = n.thread j := rfl
@[simp] theorem Node.setKslot_ctx' (n : Node) (k : Nat) (x : KeySlot) (j : Nat) : (n.setKslot k x).ctx j = n.ctx j := rfl
@[simp] theorem Node.setKslot_acc' (n : Node) (k : Nat) (x : KeySlot) (j : Nat) : (n.setKslot k x).acc j = n.acc j := rfl
@[simp] theorem Node.setKslot_reg' (n : Node) (k : Nat) (x : KeySlot) (m : RegName) (j : Nat) : (n.setKslot k x).reg m j = n.reg m j := rfl
@[simp] theorem Node.setKslot_queue' (n : Node) (k : Nat) (x : KeySlot) (j : Nat) : (n.setKslot k x).queue j = n.queue j := rfl
@[simp] theorem Node.setKslot_qcfg' (n : Node) (k : Nat) (x : KeySlot) (j : Nat) : (n.setKslot k x).qcfg j = n.qcfg j := rfl
@[simp] theorem Node.setKslot_sync' (n : Node) (k : Nat) (x : KeySlot) (j : Nat) : (n.setKslot k x).sync j = n.sync j := rfl
@[simp] theorem Node.setKslot_client' (n : Node) (k : Nat) (x : KeySlot) (j : Nat) : (n.setKslot k x).client j = n.client j := rfl
@[simp] theorem Node.setKslot_cliId' (n : Node) (k : Nat) (x : KeySlot) (j : Nat) : (n.setKslot k x).cliId j = n.cliId j := rfl
@[simp] theorem Node.setKslot_slot' (n : Node) (k : Nat) (x : KeySlot) (j : Nat) : (n.setKslot k x).slot j = n.slot j := rfl
@[simp] theorem Node.setKslot_tile' (n : Node) (k : Nat) (x : KeySlot) (j : Nat) : (n.setKslot k x).tile j = n.tile j := rfl
@[simp] theorem Node.setKslot_port' (n : Node) (k : Nat) (x : KeySlot) (j : Nat) : (n.setKslot k x).port j = n.port j := rfl
@[simp] theorem Node.setKslot_job' (n : Node) (k : Nat) (x : KeySlot) (j : Nat) : (n.setKslot k x).job j = n.job j := rfl
@[simp] theorem Node.setKslot_session' (n : Node) (k : Nat) (x : KeySlot) (j : Nat) : (n.setKslot k x).session j = n.session j := rfl
@[simp] theorem Node.setKslot_ten' (n : Node) (k : Nat) (x : KeySlot) (j : Nat) : (n.setKslot k x).ten j = n.ten j := rfl
@[simp] theorem Node.setKslot_region' (n : Node) (k : Nat) (x : KeySlot) (p g : Nat) : (n.setKslot k x).region p g = n.region p g := rfl
@[simp] theorem Node.setKslot_read' (n : Node) (k : Nat) (x : KeySlot) (p c w : Nat) : (n.setKslot k x).read p c w = n.read p c w := rfl
@[simp] theorem Node.setKslot_dataUp' (n : Node) (k : Nat) (x : KeySlot) : (n.setKslot k x).dataUp = n.dataUp := rfl
@[simp] theorem Node.setKslot_linksUp' (n : Node) (k : Nat) (x : KeySlot) : (n.setKslot k x).linksUp = n.linksUp := rfl
@[simp] theorem Node.setKslot_now' (n : Node) (k : Nat) (x : KeySlot) : (n.setKslot k x).now = n.now := rfl
@[simp] theorem Node.setKslot_fixedSlot' (n : Node) (k : Nat) (x : KeySlot) : (n.setKslot k x).fixedSlot = n.fixedSlot := rfl
@[simp] theorem Node.setKslot_auditOk' (n : Node) (k : Nat) (x : KeySlot) : (n.setKslot k x).auditOk = n.auditOk := rfl

/-! ### `Node.setSession` -/

@[simp] theorem Node.setSession_fuses (n : Node) (k : Nat) (x : Session) : (n.setSession k x).fuses = n.fuses := rfl
@[simp] theorem Node.setSession_qspi (n : Node) (k : Nat) (x : Session) : (n.setSession k x).qspi = n.qspi := rfl
@[simp] theorem Node.setSession_dev (n : Node) (k : Nat) (x : Session) : (n.setSession k x).dev = n.dev := rfl
@[simp] theorem Node.setSession_mgt (n : Node) (k : Nat) (x : Session) : (n.setSession k x).mgt = n.mgt := rfl
@[simp] theorem Node.setSession_power (n : Node) (k : Nat) (x : Session) : (n.setSession k x).power = n.power := rfl
@[simp] theorem Node.setSession_mbox (n : Node) (k : Nat) (x : Session) : (n.setSession k x).mbox = n.mbox := rfl
@[simp] theorem Node.setSession_log (n : Node) (k : Nat) (x : Session) : (n.setSession k x).log = n.log := rfl
@[simp] theorem Node.setSession_snap (n : Node) (k : Nat) (x : Session) : (n.setSession k x).snap = n.snap := rfl
@[simp] theorem Node.setSession_sec_ten (n : Node) (k : Nat) (x : Session) : (n.setSession k x).sec.ten = n.sec.ten := rfl
@[simp] theorem Node.setSession_sec_destroying (n : Node) (k : Nat) (x : Session) : (n.setSession k x).sec.destroying = n.sec.destroying := rfl
@[simp] theorem Node.setSession_sec_kslots (n : Node) (k : Nat) (x : Session) : (n.setSession k x).sec.kslots = n.sec.kslots := rfl
@[simp] theorem Node.setSession_sec_persisted (n : Node) (k : Nat) (x : Session) : (n.setSession k x).sec.persisted = n.sec.persisted := rfl
@[simp] theorem Node.setSession_sec_nonces (n : Node) (k : Nat) (x : Session) : (n.setSession k x).sec.nonces = n.sec.nonces := rfl
@[simp] theorem Node.setSession_sec_grantSerial (n : Node) (k : Nat) (x : Session) : (n.setSession k x).sec.grantSerial = n.sec.grantSerial := rfl
@[simp] theorem Node.setSession_sec_sessions (n : Node) (k : Nat) (x : Session) : (n.setSession k x).sec.sessions = KList.put n.sec.sessions k x := rfl
@[simp] theorem Node.setSession_sec_conns (n : Node) (k : Nat) (x : Session) : (n.setSession k x).sec.conns = n.sec.conns := rfl
@[simp] theorem Node.setSession_sec_slot1 (n : Node) (k : Nat) (x : Session) : (n.setSession k x).sec.slot1 = n.sec.slot1 := rfl
@[simp] theorem Node.setSession_sec_audit (n : Node) (k : Nat) (x : Session) : (n.setSession k x).sec.audit = n.sec.audit := rfl
@[simp] theorem Node.setSession_sec_audSeq (n : Node) (k : Nat) (x : Session) : (n.setSession k x).sec.audSeq = n.sec.audSeq := rfl
@[simp] theorem Node.setSession_sec_token (n : Node) (k : Nat) (x : Session) : (n.setSession k x).sec.token = n.sec.token := rfl
@[simp] theorem Node.setSession_sec_challenge (n : Node) (k : Nat) (x : Session) : (n.setSession k x).sec.challenge = n.sec.challenge := rfl
@[simp] theorem Node.setSession_sec_halted (n : Node) (k : Nat) (x : Session) : (n.setSession k x).sec.halted = n.sec.halted := rfl
@[simp] theorem Node.setSession_sec_grantEnd (n : Node) (k : Nat) (x : Session) : (n.setSession k x).sec.grantEnd = n.sec.grantEnd := rfl
@[simp] theorem Node.setSession_hif (n : Node) (k : Nat) (x : Session) : (n.setSession k x).hif = n.hif := rfl
@[simp] theorem Node.setSession_qsy (n : Node) (k : Nat) (x : Session) : (n.setSession k x).qsy = n.qsy := rfl
@[simp] theorem Node.setSession_adm (n : Node) (k : Nat) (x : Session) : (n.setSession k x).adm = n.adm := rfl
@[simp] theorem Node.setSession_index (n : Node) (k : Nat) (x : Session) : (n.setSession k x).index = n.index := rfl
@[simp] theorem Node.setSession_spokes (n : Node) (k : Nat) (x : Session) : (n.setSession k x).spokes = n.spokes := rfl
@[simp] theorem Node.setSession_sel (n : Node) (k : Nat) (x : Session) : (n.setSession k x).sel = n.sel := rfl
@[simp] theorem Node.setSession_cas (n : Node) (k : Nat) (x : Session) : (n.setSession k x).cas = n.cas := rfl
@[simp] theorem Node.setSession_store (n : Node) (k : Nat) (x : Session) : (n.setSession k x).store = n.store := rfl
@[simp] theorem Node.setSession_mem (n : Node) (k : Nat) (x : Session) : (n.setSession k x).mem = n.mem := rfl
@[simp] theorem Node.setSession_flash (n : Node) (k : Nat) (x : Session) : (n.setSession k x).flash = n.flash := rfl
@[simp] theorem Node.setSession_links (n : Node) (k : Nat) (x : Session) : (n.setSession k x).links = n.links := rfl
@[simp] theorem Node.setSession_fabric (n : Node) (k : Nat) (x : Session) : (n.setSession k x).fabric = n.fabric := rfl
@[simp] theorem Node.setSession_peloton (n : Node) (k : Nat) (x : Session) : (n.setSession k x).peloton = n.peloton := rfl
@[simp] theorem Node.setSession_regs (n : Node) (k : Nat) (x : Session) : (n.setSession k x).regs = n.regs := rfl
@[simp] theorem Node.setSession_out (n : Node) (k : Nat) (x : Session) : (n.setSession k x).out = n.out := rfl
@[simp] theorem Node.setSession_clk (n : Node) (k : Nat) (x : Session) : (n.setSession k x).clk = n.clk := rfl
@[simp] theorem Node.setSession_freeCtr (n : Node) (k : Nat) (x : Session) : (n.setSession k x).freeCtr = n.freeCtr := rfl
@[simp] theorem Node.setSession_nextId (n : Node) (k : Nat) (x : Session) : (n.setSession k x).nextId = n.nextId := rfl
@[simp] theorem Node.setSession_thread' (n : Node) (k : Nat) (x : Session) (j : Nat) : (n.setSession k x).thread j = n.thread j := rfl
@[simp] theorem Node.setSession_ctx' (n : Node) (k : Nat) (x : Session) (j : Nat) : (n.setSession k x).ctx j = n.ctx j := rfl
@[simp] theorem Node.setSession_acc' (n : Node) (k : Nat) (x : Session) (j : Nat) : (n.setSession k x).acc j = n.acc j := rfl
@[simp] theorem Node.setSession_reg' (n : Node) (k : Nat) (x : Session) (m : RegName) (j : Nat) : (n.setSession k x).reg m j = n.reg m j := rfl
@[simp] theorem Node.setSession_queue' (n : Node) (k : Nat) (x : Session) (j : Nat) : (n.setSession k x).queue j = n.queue j := rfl
@[simp] theorem Node.setSession_qcfg' (n : Node) (k : Nat) (x : Session) (j : Nat) : (n.setSession k x).qcfg j = n.qcfg j := rfl
@[simp] theorem Node.setSession_sync' (n : Node) (k : Nat) (x : Session) (j : Nat) : (n.setSession k x).sync j = n.sync j := rfl
@[simp] theorem Node.setSession_client' (n : Node) (k : Nat) (x : Session) (j : Nat) : (n.setSession k x).client j = n.client j := rfl
@[simp] theorem Node.setSession_cliId' (n : Node) (k : Nat) (x : Session) (j : Nat) : (n.setSession k x).cliId j = n.cliId j := rfl
@[simp] theorem Node.setSession_slot' (n : Node) (k : Nat) (x : Session) (j : Nat) : (n.setSession k x).slot j = n.slot j := rfl
@[simp] theorem Node.setSession_tile' (n : Node) (k : Nat) (x : Session) (j : Nat) : (n.setSession k x).tile j = n.tile j := rfl
@[simp] theorem Node.setSession_port' (n : Node) (k : Nat) (x : Session) (j : Nat) : (n.setSession k x).port j = n.port j := rfl
@[simp] theorem Node.setSession_job' (n : Node) (k : Nat) (x : Session) (j : Nat) : (n.setSession k x).job j = n.job j := rfl
@[simp] theorem Node.setSession_ten' (n : Node) (k : Nat) (x : Session) (j : Nat) : (n.setSession k x).ten j = n.ten j := rfl
@[simp] theorem Node.setSession_kslot' (n : Node) (k : Nat) (x : Session) (j : Nat) : (n.setSession k x).kslot j = n.kslot j := rfl
@[simp] theorem Node.setSession_region' (n : Node) (k : Nat) (x : Session) (p g : Nat) : (n.setSession k x).region p g = n.region p g := rfl
@[simp] theorem Node.setSession_read' (n : Node) (k : Nat) (x : Session) (p c w : Nat) : (n.setSession k x).read p c w = n.read p c w := rfl
@[simp] theorem Node.setSession_dataUp' (n : Node) (k : Nat) (x : Session) : (n.setSession k x).dataUp = n.dataUp := rfl
@[simp] theorem Node.setSession_linksUp' (n : Node) (k : Nat) (x : Session) : (n.setSession k x).linksUp = n.linksUp := rfl
@[simp] theorem Node.setSession_now' (n : Node) (k : Nat) (x : Session) : (n.setSession k x).now = n.now := rfl
@[simp] theorem Node.setSession_fixedSlot' (n : Node) (k : Nat) (x : Session) : (n.setSession k x).fixedSlot = n.fixedSlot := rfl
@[simp] theorem Node.setSession_auditOk' (n : Node) (k : Nat) (x : Session) : (n.setSession k x).auditOk = n.auditOk := rfl

/-! ### `Node.setConn` -/

@[simp] theorem Node.setConn_fuses (n : Node) (x : SpdmConn) : (n.setConn x).fuses = n.fuses := rfl
@[simp] theorem Node.setConn_qspi (n : Node) (x : SpdmConn) : (n.setConn x).qspi = n.qspi := rfl
@[simp] theorem Node.setConn_dev (n : Node) (x : SpdmConn) : (n.setConn x).dev = n.dev := rfl
@[simp] theorem Node.setConn_mgt (n : Node) (x : SpdmConn) : (n.setConn x).mgt = n.mgt := rfl
@[simp] theorem Node.setConn_power (n : Node) (x : SpdmConn) : (n.setConn x).power = n.power := rfl
@[simp] theorem Node.setConn_mbox (n : Node) (x : SpdmConn) : (n.setConn x).mbox = n.mbox := rfl
@[simp] theorem Node.setConn_log (n : Node) (x : SpdmConn) : (n.setConn x).log = n.log := rfl
@[simp] theorem Node.setConn_snap (n : Node) (x : SpdmConn) : (n.setConn x).snap = n.snap := rfl
@[simp] theorem Node.setConn_sec_ten (n : Node) (x : SpdmConn) : (n.setConn x).sec.ten = n.sec.ten := rfl
@[simp] theorem Node.setConn_sec_destroying (n : Node) (x : SpdmConn) : (n.setConn x).sec.destroying = n.sec.destroying := rfl
@[simp] theorem Node.setConn_sec_kslots (n : Node) (x : SpdmConn) : (n.setConn x).sec.kslots = n.sec.kslots := rfl
@[simp] theorem Node.setConn_sec_persisted (n : Node) (x : SpdmConn) : (n.setConn x).sec.persisted = n.sec.persisted := rfl
@[simp] theorem Node.setConn_sec_nonces (n : Node) (x : SpdmConn) : (n.setConn x).sec.nonces = n.sec.nonces := rfl
@[simp] theorem Node.setConn_sec_grantSerial (n : Node) (x : SpdmConn) : (n.setConn x).sec.grantSerial = n.sec.grantSerial := rfl
@[simp] theorem Node.setConn_sec_sessions (n : Node) (x : SpdmConn) : (n.setConn x).sec.sessions = n.sec.sessions := rfl
@[simp] theorem Node.setConn_sec_conns (n : Node) (x : SpdmConn) : (n.setConn x).sec.conns = x :: n.sec.conns.filter fun y => y.chan != x.chan := rfl
@[simp] theorem Node.setConn_sec_slot1 (n : Node) (x : SpdmConn) : (n.setConn x).sec.slot1 = n.sec.slot1 := rfl
@[simp] theorem Node.setConn_sec_audit (n : Node) (x : SpdmConn) : (n.setConn x).sec.audit = n.sec.audit := rfl
@[simp] theorem Node.setConn_sec_audSeq (n : Node) (x : SpdmConn) : (n.setConn x).sec.audSeq = n.sec.audSeq := rfl
@[simp] theorem Node.setConn_sec_token (n : Node) (x : SpdmConn) : (n.setConn x).sec.token = n.sec.token := rfl
@[simp] theorem Node.setConn_sec_challenge (n : Node) (x : SpdmConn) : (n.setConn x).sec.challenge = n.sec.challenge := rfl
@[simp] theorem Node.setConn_sec_halted (n : Node) (x : SpdmConn) : (n.setConn x).sec.halted = n.sec.halted := rfl
@[simp] theorem Node.setConn_sec_grantEnd (n : Node) (x : SpdmConn) : (n.setConn x).sec.grantEnd = n.sec.grantEnd := rfl
@[simp] theorem Node.setConn_hif (n : Node) (x : SpdmConn) : (n.setConn x).hif = n.hif := rfl
@[simp] theorem Node.setConn_qsy (n : Node) (x : SpdmConn) : (n.setConn x).qsy = n.qsy := rfl
@[simp] theorem Node.setConn_adm (n : Node) (x : SpdmConn) : (n.setConn x).adm = n.adm := rfl
@[simp] theorem Node.setConn_index (n : Node) (x : SpdmConn) : (n.setConn x).index = n.index := rfl
@[simp] theorem Node.setConn_spokes (n : Node) (x : SpdmConn) : (n.setConn x).spokes = n.spokes := rfl
@[simp] theorem Node.setConn_sel (n : Node) (x : SpdmConn) : (n.setConn x).sel = n.sel := rfl
@[simp] theorem Node.setConn_cas (n : Node) (x : SpdmConn) : (n.setConn x).cas = n.cas := rfl
@[simp] theorem Node.setConn_store (n : Node) (x : SpdmConn) : (n.setConn x).store = n.store := rfl
@[simp] theorem Node.setConn_mem (n : Node) (x : SpdmConn) : (n.setConn x).mem = n.mem := rfl
@[simp] theorem Node.setConn_flash (n : Node) (x : SpdmConn) : (n.setConn x).flash = n.flash := rfl
@[simp] theorem Node.setConn_links (n : Node) (x : SpdmConn) : (n.setConn x).links = n.links := rfl
@[simp] theorem Node.setConn_fabric (n : Node) (x : SpdmConn) : (n.setConn x).fabric = n.fabric := rfl
@[simp] theorem Node.setConn_peloton (n : Node) (x : SpdmConn) : (n.setConn x).peloton = n.peloton := rfl
@[simp] theorem Node.setConn_regs (n : Node) (x : SpdmConn) : (n.setConn x).regs = n.regs := rfl
@[simp] theorem Node.setConn_out (n : Node) (x : SpdmConn) : (n.setConn x).out = n.out := rfl
@[simp] theorem Node.setConn_clk (n : Node) (x : SpdmConn) : (n.setConn x).clk = n.clk := rfl
@[simp] theorem Node.setConn_freeCtr (n : Node) (x : SpdmConn) : (n.setConn x).freeCtr = n.freeCtr := rfl
@[simp] theorem Node.setConn_nextId (n : Node) (x : SpdmConn) : (n.setConn x).nextId = n.nextId := rfl
@[simp] theorem Node.setConn_thread' (n : Node) (x : SpdmConn) (j : Nat) : (n.setConn x).thread j = n.thread j := rfl
@[simp] theorem Node.setConn_ctx' (n : Node) (x : SpdmConn) (j : Nat) : (n.setConn x).ctx j = n.ctx j := rfl
@[simp] theorem Node.setConn_acc' (n : Node) (x : SpdmConn) (j : Nat) : (n.setConn x).acc j = n.acc j := rfl
@[simp] theorem Node.setConn_reg' (n : Node) (x : SpdmConn) (m : RegName) (j : Nat) : (n.setConn x).reg m j = n.reg m j := rfl
@[simp] theorem Node.setConn_queue' (n : Node) (x : SpdmConn) (j : Nat) : (n.setConn x).queue j = n.queue j := rfl
@[simp] theorem Node.setConn_qcfg' (n : Node) (x : SpdmConn) (j : Nat) : (n.setConn x).qcfg j = n.qcfg j := rfl
@[simp] theorem Node.setConn_sync' (n : Node) (x : SpdmConn) (j : Nat) : (n.setConn x).sync j = n.sync j := rfl
@[simp] theorem Node.setConn_client' (n : Node) (x : SpdmConn) (j : Nat) : (n.setConn x).client j = n.client j := rfl
@[simp] theorem Node.setConn_cliId' (n : Node) (x : SpdmConn) (j : Nat) : (n.setConn x).cliId j = n.cliId j := rfl
@[simp] theorem Node.setConn_slot' (n : Node) (x : SpdmConn) (j : Nat) : (n.setConn x).slot j = n.slot j := rfl
@[simp] theorem Node.setConn_tile' (n : Node) (x : SpdmConn) (j : Nat) : (n.setConn x).tile j = n.tile j := rfl
@[simp] theorem Node.setConn_port' (n : Node) (x : SpdmConn) (j : Nat) : (n.setConn x).port j = n.port j := rfl
@[simp] theorem Node.setConn_job' (n : Node) (x : SpdmConn) (j : Nat) : (n.setConn x).job j = n.job j := rfl
@[simp] theorem Node.setConn_session' (n : Node) (x : SpdmConn) (j : Nat) : (n.setConn x).session j = n.session j := rfl
@[simp] theorem Node.setConn_ten' (n : Node) (x : SpdmConn) (j : Nat) : (n.setConn x).ten j = n.ten j := rfl
@[simp] theorem Node.setConn_kslot' (n : Node) (x : SpdmConn) (j : Nat) : (n.setConn x).kslot j = n.kslot j := rfl
@[simp] theorem Node.setConn_region' (n : Node) (x : SpdmConn) (p g : Nat) : (n.setConn x).region p g = n.region p g := rfl
@[simp] theorem Node.setConn_read' (n : Node) (x : SpdmConn) (p c w : Nat) : (n.setConn x).read p c w = n.read p c w := rfl
@[simp] theorem Node.setConn_dataUp' (n : Node) (x : SpdmConn) : (n.setConn x).dataUp = n.dataUp := rfl
@[simp] theorem Node.setConn_linksUp' (n : Node) (x : SpdmConn) : (n.setConn x).linksUp = n.linksUp := rfl
@[simp] theorem Node.setConn_now' (n : Node) (x : SpdmConn) : (n.setConn x).now = n.now := rfl
@[simp] theorem Node.setConn_fixedSlot' (n : Node) (x : SpdmConn) : (n.setConn x).fixedSlot = n.fixedSlot := rfl
@[simp] theorem Node.setConn_auditOk' (n : Node) (x : SpdmConn) : (n.setConn x).auditOk = n.auditOk := rfl

/-! ### `Node.setRegion` -/

@[simp] theorem Node.setRegion_fuses (n : Node) (o r : Nat) (x : Region) : (n.setRegion o r x).fuses = n.fuses := rfl
@[simp] theorem Node.setRegion_qspi (n : Node) (o r : Nat) (x : Region) : (n.setRegion o r x).qspi = n.qspi := rfl
@[simp] theorem Node.setRegion_dev (n : Node) (o r : Nat) (x : Region) : (n.setRegion o r x).dev = n.dev := rfl
@[simp] theorem Node.setRegion_mgt (n : Node) (o r : Nat) (x : Region) : (n.setRegion o r x).mgt = n.mgt := rfl
@[simp] theorem Node.setRegion_power (n : Node) (o r : Nat) (x : Region) : (n.setRegion o r x).power = n.power := rfl
@[simp] theorem Node.setRegion_mbox (n : Node) (o r : Nat) (x : Region) : (n.setRegion o r x).mbox = n.mbox := rfl
@[simp] theorem Node.setRegion_log (n : Node) (o r : Nat) (x : Region) : (n.setRegion o r x).log = n.log := rfl
@[simp] theorem Node.setRegion_snap (n : Node) (o r : Nat) (x : Region) : (n.setRegion o r x).snap = n.snap := rfl
@[simp] theorem Node.setRegion_sec (n : Node) (o r : Nat) (x : Region) : (n.setRegion o r x).sec = n.sec := rfl
@[simp] theorem Node.setRegion_hif (n : Node) (o r : Nat) (x : Region) : (n.setRegion o r x).hif = n.hif := rfl
@[simp] theorem Node.setRegion_qsy (n : Node) (o r : Nat) (x : Region) : (n.setRegion o r x).qsy = n.qsy := rfl
@[simp] theorem Node.setRegion_adm (n : Node) (o r : Nat) (x : Region) : (n.setRegion o r x).adm = n.adm := rfl
@[simp] theorem Node.setRegion_index (n : Node) (o r : Nat) (x : Region) : (n.setRegion o r x).index = n.index := rfl
@[simp] theorem Node.setRegion_spokes (n : Node) (o r : Nat) (x : Region) : (n.setRegion o r x).spokes = n.spokes := rfl
@[simp] theorem Node.setRegion_sel (n : Node) (o r : Nat) (x : Region) : (n.setRegion o r x).sel = n.sel := rfl
@[simp] theorem Node.setRegion_cas (n : Node) (o r : Nat) (x : Region) : (n.setRegion o r x).cas = n.cas := rfl
@[simp] theorem Node.setRegion_store (n : Node) (o r : Nat) (x : Region) : (n.setRegion o r x).store = n.store := rfl
@[simp] theorem Node.setRegion_mem_bytes (n : Node) (o r : Nat) (x : Region) : (n.setRegion o r x).mem.bytes = n.mem.bytes := rfl
@[simp] theorem Node.setRegion_mem_poison (n : Node) (o r : Nat) (x : Region) : (n.setRegion o r x).mem.poison = n.mem.poison := rfl
@[simp] theorem Node.setRegion_mem_regions (n : Node) (o r : Nat) (x : Region) : (n.setRegion o r x).mem.regions = KList.put n.mem.regions o (KList.put (KList.getD n.mem.regions o []) r x) := rfl
@[simp] theorem Node.setRegion_mem_moves (n : Node) (o r : Nat) (x : Region) : (n.setRegion o r x).mem.moves = n.mem.moves := rfl
@[simp] theorem Node.setRegion_mem_unmaps (n : Node) (o r : Nat) (x : Region) : (n.setRegion o r x).mem.unmaps = n.mem.unmaps := rfl
@[simp] theorem Node.setRegion_mem_hbmRet (n : Node) (o r : Nat) (x : Region) : (n.setRegion o r x).mem.hbmRet = n.mem.hbmRet := rfl
@[simp] theorem Node.setRegion_mem_hbmRehash (n : Node) (o r : Nat) (x : Region) : (n.setRegion o r x).mem.hbmRehash = n.mem.hbmRehash := rfl
@[simp] theorem Node.setRegion_mem_rehashLeft (n : Node) (o r : Nat) (x : Region) : (n.setRegion o r x).mem.rehashLeft = n.mem.rehashLeft := rfl
@[simp] theorem Node.setRegion_mem_hbmErr (n : Node) (o r : Nat) (x : Region) : (n.setRegion o r x).mem.hbmErr = n.mem.hbmErr := rfl
@[simp] theorem Node.setRegion_mem_replicas (n : Node) (o r : Nat) (x : Region) : (n.setRegion o r x).mem.replicas = n.mem.replicas := rfl
@[simp] theorem Node.setRegion_mem_stalls (n : Node) (o r : Nat) (x : Region) : (n.setRegion o r x).mem.stalls = n.mem.stalls := rfl
@[simp] theorem Node.setRegion_mem_tmos (n : Node) (o r : Nat) (x : Region) : (n.setRegion o r x).mem.tmos = n.mem.tmos := rfl
@[simp] theorem Node.setRegion_mem_moveCnt (n : Node) (o r : Nat) (x : Region) : (n.setRegion o r x).mem.moveCnt = n.mem.moveCnt := rfl
@[simp] theorem Node.setRegion_mem_lastEpoch (n : Node) (o r : Nat) (x : Region) : (n.setRegion o r x).mem.lastEpoch = n.mem.lastEpoch := rfl
@[simp] theorem Node.setRegion_mem_rehashFrom (n : Node) (o r : Nat) (x : Region) : (n.setRegion o r x).mem.rehashFrom = n.mem.rehashFrom := rfl
@[simp] theorem Node.setRegion_mem_tileHeld (n : Node) (o r : Nat) (x : Region) : (n.setRegion o r x).mem.tileHeld = n.mem.tileHeld := rfl
@[simp] theorem Node.setRegion_mem_grants (n : Node) (o r : Nat) (x : Region) : (n.setRegion o r x).mem.grants = n.mem.grants := rfl
@[simp] theorem Node.setRegion_mem_lines (n : Node) (o r : Nat) (x : Region) : (n.setRegion o r x).mem.lines = n.mem.lines := rfl
@[simp] theorem Node.setRegion_flash (n : Node) (o r : Nat) (x : Region) : (n.setRegion o r x).flash = n.flash := rfl
@[simp] theorem Node.setRegion_links (n : Node) (o r : Nat) (x : Region) : (n.setRegion o r x).links = n.links := rfl
@[simp] theorem Node.setRegion_fabric (n : Node) (o r : Nat) (x : Region) : (n.setRegion o r x).fabric = n.fabric := rfl
@[simp] theorem Node.setRegion_peloton (n : Node) (o r : Nat) (x : Region) : (n.setRegion o r x).peloton = n.peloton := rfl
@[simp] theorem Node.setRegion_regs (n : Node) (o r : Nat) (x : Region) : (n.setRegion o r x).regs = n.regs := rfl
@[simp] theorem Node.setRegion_out (n : Node) (o r : Nat) (x : Region) : (n.setRegion o r x).out = n.out := rfl
@[simp] theorem Node.setRegion_clk (n : Node) (o r : Nat) (x : Region) : (n.setRegion o r x).clk = n.clk := rfl
@[simp] theorem Node.setRegion_freeCtr (n : Node) (o r : Nat) (x : Region) : (n.setRegion o r x).freeCtr = n.freeCtr := rfl
@[simp] theorem Node.setRegion_nextId (n : Node) (o r : Nat) (x : Region) : (n.setRegion o r x).nextId = n.nextId := rfl
@[simp] theorem Node.setRegion_thread' (n : Node) (o r : Nat) (x : Region) (j : Nat) : (n.setRegion o r x).thread j = n.thread j := rfl
@[simp] theorem Node.setRegion_ctx' (n : Node) (o r : Nat) (x : Region) (j : Nat) : (n.setRegion o r x).ctx j = n.ctx j := rfl
@[simp] theorem Node.setRegion_acc' (n : Node) (o r : Nat) (x : Region) (j : Nat) : (n.setRegion o r x).acc j = n.acc j := rfl
@[simp] theorem Node.setRegion_reg' (n : Node) (o r : Nat) (x : Region) (m : RegName) (j : Nat) : (n.setRegion o r x).reg m j = n.reg m j := rfl
@[simp] theorem Node.setRegion_queue' (n : Node) (o r : Nat) (x : Region) (j : Nat) : (n.setRegion o r x).queue j = n.queue j := rfl
@[simp] theorem Node.setRegion_qcfg' (n : Node) (o r : Nat) (x : Region) (j : Nat) : (n.setRegion o r x).qcfg j = n.qcfg j := rfl
@[simp] theorem Node.setRegion_sync' (n : Node) (o r : Nat) (x : Region) (j : Nat) : (n.setRegion o r x).sync j = n.sync j := rfl
@[simp] theorem Node.setRegion_client' (n : Node) (o r : Nat) (x : Region) (j : Nat) : (n.setRegion o r x).client j = n.client j := rfl
@[simp] theorem Node.setRegion_cliId' (n : Node) (o r : Nat) (x : Region) (j : Nat) : (n.setRegion o r x).cliId j = n.cliId j := rfl
@[simp] theorem Node.setRegion_slot' (n : Node) (o r : Nat) (x : Region) (j : Nat) : (n.setRegion o r x).slot j = n.slot j := rfl
@[simp] theorem Node.setRegion_tile' (n : Node) (o r : Nat) (x : Region) (j : Nat) : (n.setRegion o r x).tile j = n.tile j := rfl
@[simp] theorem Node.setRegion_port' (n : Node) (o r : Nat) (x : Region) (j : Nat) : (n.setRegion o r x).port j = n.port j := rfl
@[simp] theorem Node.setRegion_job' (n : Node) (o r : Nat) (x : Region) (j : Nat) : (n.setRegion o r x).job j = n.job j := rfl
@[simp] theorem Node.setRegion_session' (n : Node) (o r : Nat) (x : Region) (j : Nat) : (n.setRegion o r x).session j = n.session j := rfl
@[simp] theorem Node.setRegion_ten' (n : Node) (o r : Nat) (x : Region) (j : Nat) : (n.setRegion o r x).ten j = n.ten j := rfl
@[simp] theorem Node.setRegion_kslot' (n : Node) (o r : Nat) (x : Region) (j : Nat) : (n.setRegion o r x).kslot j = n.kslot j := rfl
@[simp] theorem Node.setRegion_read' (n : Node) (o r : Nat) (x : Region) (p c w : Nat) : (n.setRegion o r x).read p c w = n.read p c w := rfl
@[simp] theorem Node.setRegion_dataUp' (n : Node) (o r : Nat) (x : Region) : (n.setRegion o r x).dataUp = n.dataUp := rfl
@[simp] theorem Node.setRegion_linksUp' (n : Node) (o r : Nat) (x : Region) : (n.setRegion o r x).linksUp = n.linksUp := rfl
@[simp] theorem Node.setRegion_now' (n : Node) (o r : Nat) (x : Region) : (n.setRegion o r x).now = n.now := rfl
@[simp] theorem Node.setRegion_fixedSlot' (n : Node) (o r : Nat) (x : Region) : (n.setRegion o r x).fixedSlot = n.fixedSlot := rfl
@[simp] theorem Node.setRegion_auditOk' (n : Node) (o r : Nat) (x : Region) : (n.setRegion o r x).auditOk = n.auditOk := rfl

/-! ### `Node.setReplica` -/

@[simp] theorem Node.setReplica_fuses (n : Node) (x : Replica) : (n.setReplica x).fuses = n.fuses := rfl
@[simp] theorem Node.setReplica_qspi (n : Node) (x : Replica) : (n.setReplica x).qspi = n.qspi := rfl
@[simp] theorem Node.setReplica_dev (n : Node) (x : Replica) : (n.setReplica x).dev = n.dev := rfl
@[simp] theorem Node.setReplica_mgt (n : Node) (x : Replica) : (n.setReplica x).mgt = n.mgt := rfl
@[simp] theorem Node.setReplica_power (n : Node) (x : Replica) : (n.setReplica x).power = n.power := rfl
@[simp] theorem Node.setReplica_mbox (n : Node) (x : Replica) : (n.setReplica x).mbox = n.mbox := rfl
@[simp] theorem Node.setReplica_log (n : Node) (x : Replica) : (n.setReplica x).log = n.log := rfl
@[simp] theorem Node.setReplica_snap (n : Node) (x : Replica) : (n.setReplica x).snap = n.snap := rfl
@[simp] theorem Node.setReplica_sec (n : Node) (x : Replica) : (n.setReplica x).sec = n.sec := rfl
@[simp] theorem Node.setReplica_hif (n : Node) (x : Replica) : (n.setReplica x).hif = n.hif := rfl
@[simp] theorem Node.setReplica_qsy (n : Node) (x : Replica) : (n.setReplica x).qsy = n.qsy := rfl
@[simp] theorem Node.setReplica_adm (n : Node) (x : Replica) : (n.setReplica x).adm = n.adm := rfl
@[simp] theorem Node.setReplica_index (n : Node) (x : Replica) : (n.setReplica x).index = n.index := rfl
@[simp] theorem Node.setReplica_spokes (n : Node) (x : Replica) : (n.setReplica x).spokes = n.spokes := rfl
@[simp] theorem Node.setReplica_sel (n : Node) (x : Replica) : (n.setReplica x).sel = n.sel := rfl
@[simp] theorem Node.setReplica_cas (n : Node) (x : Replica) : (n.setReplica x).cas = n.cas := rfl
@[simp] theorem Node.setReplica_store (n : Node) (x : Replica) : (n.setReplica x).store = n.store := rfl
@[simp] theorem Node.setReplica_mem_bytes (n : Node) (x : Replica) : (n.setReplica x).mem.bytes = n.mem.bytes := rfl
@[simp] theorem Node.setReplica_mem_poison (n : Node) (x : Replica) : (n.setReplica x).mem.poison = n.mem.poison := rfl
@[simp] theorem Node.setReplica_mem_regions (n : Node) (x : Replica) : (n.setReplica x).mem.regions = n.mem.regions := rfl
@[simp] theorem Node.setReplica_mem_moves (n : Node) (x : Replica) : (n.setReplica x).mem.moves = n.mem.moves := rfl
@[simp] theorem Node.setReplica_mem_unmaps (n : Node) (x : Replica) : (n.setReplica x).mem.unmaps = n.mem.unmaps := rfl
@[simp] theorem Node.setReplica_mem_hbmRet (n : Node) (x : Replica) : (n.setReplica x).mem.hbmRet = n.mem.hbmRet := rfl
@[simp] theorem Node.setReplica_mem_hbmRehash (n : Node) (x : Replica) : (n.setReplica x).mem.hbmRehash = n.mem.hbmRehash := rfl
@[simp] theorem Node.setReplica_mem_rehashLeft (n : Node) (x : Replica) : (n.setReplica x).mem.rehashLeft = n.mem.rehashLeft := rfl
@[simp] theorem Node.setReplica_mem_hbmErr (n : Node) (x : Replica) : (n.setReplica x).mem.hbmErr = n.mem.hbmErr := rfl
@[simp] theorem Node.setReplica_mem_replicas (n : Node) (x : Replica) : (n.setReplica x).mem.replicas = x :: n.mem.replicas.filter fun r => !(r.owner == x.owner && r.region == x.region) := rfl
@[simp] theorem Node.setReplica_mem_stalls (n : Node) (x : Replica) : (n.setReplica x).mem.stalls = n.mem.stalls := rfl
@[simp] theorem Node.setReplica_mem_tmos (n : Node) (x : Replica) : (n.setReplica x).mem.tmos = n.mem.tmos := rfl
@[simp] theorem Node.setReplica_mem_moveCnt (n : Node) (x : Replica) : (n.setReplica x).mem.moveCnt = n.mem.moveCnt := rfl
@[simp] theorem Node.setReplica_mem_lastEpoch (n : Node) (x : Replica) : (n.setReplica x).mem.lastEpoch = n.mem.lastEpoch := rfl
@[simp] theorem Node.setReplica_mem_rehashFrom (n : Node) (x : Replica) : (n.setReplica x).mem.rehashFrom = n.mem.rehashFrom := rfl
@[simp] theorem Node.setReplica_mem_tileHeld (n : Node) (x : Replica) : (n.setReplica x).mem.tileHeld = n.mem.tileHeld := rfl
@[simp] theorem Node.setReplica_mem_grants (n : Node) (x : Replica) : (n.setReplica x).mem.grants = n.mem.grants := rfl
@[simp] theorem Node.setReplica_mem_lines (n : Node) (x : Replica) : (n.setReplica x).mem.lines = n.mem.lines := rfl
@[simp] theorem Node.setReplica_flash (n : Node) (x : Replica) : (n.setReplica x).flash = n.flash := rfl
@[simp] theorem Node.setReplica_links (n : Node) (x : Replica) : (n.setReplica x).links = n.links := rfl
@[simp] theorem Node.setReplica_fabric (n : Node) (x : Replica) : (n.setReplica x).fabric = n.fabric := rfl
@[simp] theorem Node.setReplica_peloton (n : Node) (x : Replica) : (n.setReplica x).peloton = n.peloton := rfl
@[simp] theorem Node.setReplica_regs (n : Node) (x : Replica) : (n.setReplica x).regs = n.regs := rfl
@[simp] theorem Node.setReplica_out (n : Node) (x : Replica) : (n.setReplica x).out = n.out := rfl
@[simp] theorem Node.setReplica_clk (n : Node) (x : Replica) : (n.setReplica x).clk = n.clk := rfl
@[simp] theorem Node.setReplica_freeCtr (n : Node) (x : Replica) : (n.setReplica x).freeCtr = n.freeCtr := rfl
@[simp] theorem Node.setReplica_nextId (n : Node) (x : Replica) : (n.setReplica x).nextId = n.nextId := rfl
@[simp] theorem Node.setReplica_thread' (n : Node) (x : Replica) (j : Nat) : (n.setReplica x).thread j = n.thread j := rfl
@[simp] theorem Node.setReplica_ctx' (n : Node) (x : Replica) (j : Nat) : (n.setReplica x).ctx j = n.ctx j := rfl
@[simp] theorem Node.setReplica_acc' (n : Node) (x : Replica) (j : Nat) : (n.setReplica x).acc j = n.acc j := rfl
@[simp] theorem Node.setReplica_reg' (n : Node) (x : Replica) (m : RegName) (j : Nat) : (n.setReplica x).reg m j = n.reg m j := rfl
@[simp] theorem Node.setReplica_queue' (n : Node) (x : Replica) (j : Nat) : (n.setReplica x).queue j = n.queue j := rfl
@[simp] theorem Node.setReplica_qcfg' (n : Node) (x : Replica) (j : Nat) : (n.setReplica x).qcfg j = n.qcfg j := rfl
@[simp] theorem Node.setReplica_sync' (n : Node) (x : Replica) (j : Nat) : (n.setReplica x).sync j = n.sync j := rfl
@[simp] theorem Node.setReplica_client' (n : Node) (x : Replica) (j : Nat) : (n.setReplica x).client j = n.client j := rfl
@[simp] theorem Node.setReplica_cliId' (n : Node) (x : Replica) (j : Nat) : (n.setReplica x).cliId j = n.cliId j := rfl
@[simp] theorem Node.setReplica_slot' (n : Node) (x : Replica) (j : Nat) : (n.setReplica x).slot j = n.slot j := rfl
@[simp] theorem Node.setReplica_tile' (n : Node) (x : Replica) (j : Nat) : (n.setReplica x).tile j = n.tile j := rfl
@[simp] theorem Node.setReplica_port' (n : Node) (x : Replica) (j : Nat) : (n.setReplica x).port j = n.port j := rfl
@[simp] theorem Node.setReplica_job' (n : Node) (x : Replica) (j : Nat) : (n.setReplica x).job j = n.job j := rfl
@[simp] theorem Node.setReplica_session' (n : Node) (x : Replica) (j : Nat) : (n.setReplica x).session j = n.session j := rfl
@[simp] theorem Node.setReplica_ten' (n : Node) (x : Replica) (j : Nat) : (n.setReplica x).ten j = n.ten j := rfl
@[simp] theorem Node.setReplica_kslot' (n : Node) (x : Replica) (j : Nat) : (n.setReplica x).kslot j = n.kslot j := rfl
@[simp] theorem Node.setReplica_region' (n : Node) (x : Replica) (p g : Nat) : (n.setReplica x).region p g = n.region p g := rfl
@[simp] theorem Node.setReplica_read' (n : Node) (x : Replica) (p c w : Nat) : (n.setReplica x).read p c w = n.read p c w := rfl
@[simp] theorem Node.setReplica_dataUp' (n : Node) (x : Replica) : (n.setReplica x).dataUp = n.dataUp := rfl
@[simp] theorem Node.setReplica_linksUp' (n : Node) (x : Replica) : (n.setReplica x).linksUp = n.linksUp := rfl
@[simp] theorem Node.setReplica_now' (n : Node) (x : Replica) : (n.setReplica x).now = n.now := rfl
@[simp] theorem Node.setReplica_fixedSlot' (n : Node) (x : Replica) : (n.setReplica x).fixedSlot = n.fixedSlot := rfl
@[simp] theorem Node.setReplica_auditOk' (n : Node) (x : Replica) : (n.setReplica x).auditOk = n.auditOk := rfl

/-! ### `Node.write` -/

@[simp] theorem Node.write_fuses (n : Node) (o a : Nat) (b : Bytes) : (n.write o a b).fuses = n.fuses := rfl
@[simp] theorem Node.write_qspi (n : Node) (o a : Nat) (b : Bytes) : (n.write o a b).qspi = n.qspi := rfl
@[simp] theorem Node.write_dev (n : Node) (o a : Nat) (b : Bytes) : (n.write o a b).dev = n.dev := rfl
@[simp] theorem Node.write_mgt (n : Node) (o a : Nat) (b : Bytes) : (n.write o a b).mgt = n.mgt := rfl
@[simp] theorem Node.write_power (n : Node) (o a : Nat) (b : Bytes) : (n.write o a b).power = n.power := rfl
@[simp] theorem Node.write_mbox (n : Node) (o a : Nat) (b : Bytes) : (n.write o a b).mbox = n.mbox := rfl
@[simp] theorem Node.write_log (n : Node) (o a : Nat) (b : Bytes) : (n.write o a b).log = n.log := rfl
@[simp] theorem Node.write_snap (n : Node) (o a : Nat) (b : Bytes) : (n.write o a b).snap = n.snap := rfl
@[simp] theorem Node.write_sec (n : Node) (o a : Nat) (b : Bytes) : (n.write o a b).sec = n.sec := rfl
@[simp] theorem Node.write_hif (n : Node) (o a : Nat) (b : Bytes) : (n.write o a b).hif = n.hif := rfl
@[simp] theorem Node.write_qsy (n : Node) (o a : Nat) (b : Bytes) : (n.write o a b).qsy = n.qsy := rfl
@[simp] theorem Node.write_adm (n : Node) (o a : Nat) (b : Bytes) : (n.write o a b).adm = n.adm := rfl
@[simp] theorem Node.write_index (n : Node) (o a : Nat) (b : Bytes) : (n.write o a b).index = n.index := rfl
@[simp] theorem Node.write_spokes (n : Node) (o a : Nat) (b : Bytes) : (n.write o a b).spokes = n.spokes := rfl
@[simp] theorem Node.write_sel (n : Node) (o a : Nat) (b : Bytes) : (n.write o a b).sel = n.sel := rfl
@[simp] theorem Node.write_cas (n : Node) (o a : Nat) (b : Bytes) : (n.write o a b).cas = n.cas := rfl
@[simp] theorem Node.write_store (n : Node) (o a : Nat) (b : Bytes) : (n.write o a b).store = n.store := rfl
@[simp] theorem Node.write_mem_bytes (n : Node) (o a : Nat) (b : Bytes) : (n.write o a b).mem.bytes = cellWrite n.mem.bytes (memKey o a) b := rfl
@[simp] theorem Node.write_mem_poison (n : Node) (o a : Nat) (b : Bytes) : (n.write o a b).mem.poison = n.mem.poison := rfl
@[simp] theorem Node.write_mem_regions (n : Node) (o a : Nat) (b : Bytes) : (n.write o a b).mem.regions = n.mem.regions := rfl
@[simp] theorem Node.write_mem_moves (n : Node) (o a : Nat) (b : Bytes) : (n.write o a b).mem.moves = n.mem.moves := rfl
@[simp] theorem Node.write_mem_unmaps (n : Node) (o a : Nat) (b : Bytes) : (n.write o a b).mem.unmaps = n.mem.unmaps := rfl
@[simp] theorem Node.write_mem_hbmRet (n : Node) (o a : Nat) (b : Bytes) : (n.write o a b).mem.hbmRet = n.mem.hbmRet := rfl
@[simp] theorem Node.write_mem_hbmRehash (n : Node) (o a : Nat) (b : Bytes) : (n.write o a b).mem.hbmRehash = n.mem.hbmRehash := rfl
@[simp] theorem Node.write_mem_rehashLeft (n : Node) (o a : Nat) (b : Bytes) : (n.write o a b).mem.rehashLeft = n.mem.rehashLeft := rfl
@[simp] theorem Node.write_mem_hbmErr (n : Node) (o a : Nat) (b : Bytes) : (n.write o a b).mem.hbmErr = n.mem.hbmErr := rfl
@[simp] theorem Node.write_mem_replicas (n : Node) (o a : Nat) (b : Bytes) : (n.write o a b).mem.replicas = n.mem.replicas := rfl
@[simp] theorem Node.write_mem_stalls (n : Node) (o a : Nat) (b : Bytes) : (n.write o a b).mem.stalls = n.mem.stalls := rfl
@[simp] theorem Node.write_mem_tmos (n : Node) (o a : Nat) (b : Bytes) : (n.write o a b).mem.tmos = n.mem.tmos := rfl
@[simp] theorem Node.write_mem_moveCnt (n : Node) (o a : Nat) (b : Bytes) : (n.write o a b).mem.moveCnt = n.mem.moveCnt := rfl
@[simp] theorem Node.write_mem_lastEpoch (n : Node) (o a : Nat) (b : Bytes) : (n.write o a b).mem.lastEpoch = n.mem.lastEpoch := rfl
@[simp] theorem Node.write_mem_rehashFrom (n : Node) (o a : Nat) (b : Bytes) : (n.write o a b).mem.rehashFrom = n.mem.rehashFrom := rfl
@[simp] theorem Node.write_mem_tileHeld (n : Node) (o a : Nat) (b : Bytes) : (n.write o a b).mem.tileHeld = n.mem.tileHeld := rfl
@[simp] theorem Node.write_mem_grants (n : Node) (o a : Nat) (b : Bytes) : (n.write o a b).mem.grants = n.mem.grants := rfl
@[simp] theorem Node.write_mem_lines (n : Node) (o a : Nat) (b : Bytes) : (n.write o a b).mem.lines = n.mem.lines := rfl
@[simp] theorem Node.write_flash (n : Node) (o a : Nat) (b : Bytes) : (n.write o a b).flash = n.flash := rfl
@[simp] theorem Node.write_links (n : Node) (o a : Nat) (b : Bytes) : (n.write o a b).links = n.links := rfl
@[simp] theorem Node.write_fabric (n : Node) (o a : Nat) (b : Bytes) : (n.write o a b).fabric = n.fabric := rfl
@[simp] theorem Node.write_peloton (n : Node) (o a : Nat) (b : Bytes) : (n.write o a b).peloton = n.peloton := rfl
@[simp] theorem Node.write_regs (n : Node) (o a : Nat) (b : Bytes) : (n.write o a b).regs = n.regs := rfl
@[simp] theorem Node.write_out (n : Node) (o a : Nat) (b : Bytes) : (n.write o a b).out = n.out := rfl
@[simp] theorem Node.write_clk (n : Node) (o a : Nat) (b : Bytes) : (n.write o a b).clk = n.clk := rfl
@[simp] theorem Node.write_freeCtr (n : Node) (o a : Nat) (b : Bytes) : (n.write o a b).freeCtr = n.freeCtr := rfl
@[simp] theorem Node.write_nextId (n : Node) (o a : Nat) (b : Bytes) : (n.write o a b).nextId = n.nextId := rfl
@[simp] theorem Node.write_thread' (n : Node) (o a : Nat) (b : Bytes) (j : Nat) : (n.write o a b).thread j = n.thread j := rfl
@[simp] theorem Node.write_ctx' (n : Node) (o a : Nat) (b : Bytes) (j : Nat) : (n.write o a b).ctx j = n.ctx j := rfl
@[simp] theorem Node.write_acc' (n : Node) (o a : Nat) (b : Bytes) (j : Nat) : (n.write o a b).acc j = n.acc j := rfl
@[simp] theorem Node.write_reg' (n : Node) (o a : Nat) (b : Bytes) (m : RegName) (j : Nat) : (n.write o a b).reg m j = n.reg m j := rfl
@[simp] theorem Node.write_queue' (n : Node) (o a : Nat) (b : Bytes) (j : Nat) : (n.write o a b).queue j = n.queue j := rfl
@[simp] theorem Node.write_qcfg' (n : Node) (o a : Nat) (b : Bytes) (j : Nat) : (n.write o a b).qcfg j = n.qcfg j := rfl
@[simp] theorem Node.write_sync' (n : Node) (o a : Nat) (b : Bytes) (j : Nat) : (n.write o a b).sync j = n.sync j := rfl
@[simp] theorem Node.write_client' (n : Node) (o a : Nat) (b : Bytes) (j : Nat) : (n.write o a b).client j = n.client j := rfl
@[simp] theorem Node.write_cliId' (n : Node) (o a : Nat) (b : Bytes) (j : Nat) : (n.write o a b).cliId j = n.cliId j := rfl
@[simp] theorem Node.write_slot' (n : Node) (o a : Nat) (b : Bytes) (j : Nat) : (n.write o a b).slot j = n.slot j := rfl
@[simp] theorem Node.write_tile' (n : Node) (o a : Nat) (b : Bytes) (j : Nat) : (n.write o a b).tile j = n.tile j := rfl
@[simp] theorem Node.write_port' (n : Node) (o a : Nat) (b : Bytes) (j : Nat) : (n.write o a b).port j = n.port j := rfl
@[simp] theorem Node.write_job' (n : Node) (o a : Nat) (b : Bytes) (j : Nat) : (n.write o a b).job j = n.job j := rfl
@[simp] theorem Node.write_session' (n : Node) (o a : Nat) (b : Bytes) (j : Nat) : (n.write o a b).session j = n.session j := rfl
@[simp] theorem Node.write_ten' (n : Node) (o a : Nat) (b : Bytes) (j : Nat) : (n.write o a b).ten j = n.ten j := rfl
@[simp] theorem Node.write_kslot' (n : Node) (o a : Nat) (b : Bytes) (j : Nat) : (n.write o a b).kslot j = n.kslot j := rfl
@[simp] theorem Node.write_region' (n : Node) (o a : Nat) (b : Bytes) (p g : Nat) : (n.write o a b).region p g = n.region p g := rfl
@[simp] theorem Node.write_dataUp' (n : Node) (o a : Nat) (b : Bytes) : (n.write o a b).dataUp = n.dataUp := rfl
@[simp] theorem Node.write_linksUp' (n : Node) (o a : Nat) (b : Bytes) : (n.write o a b).linksUp = n.linksUp := rfl
@[simp] theorem Node.write_now' (n : Node) (o a : Nat) (b : Bytes) : (n.write o a b).now = n.now := rfl
@[simp] theorem Node.write_fixedSlot' (n : Node) (o a : Nat) (b : Bytes) : (n.write o a b).fixedSlot = n.fixedSlot := rfl
@[simp] theorem Node.write_auditOk' (n : Node) (o a : Nat) (b : Bytes) : (n.write o a b).auditOk = n.auditOk := rfl

/-! ### `Node.tidy` -/

@[simp] theorem Node.tidy_fuses (n : Node) : (n.tidy).fuses = n.fuses := rfl
@[simp] theorem Node.tidy_qspi (n : Node) : (n.tidy).qspi = n.qspi := rfl
@[simp] theorem Node.tidy_dev (n : Node) : (n.tidy).dev = n.dev := rfl
@[simp] theorem Node.tidy_mgt (n : Node) : (n.tidy).mgt = n.mgt := rfl
@[simp] theorem Node.tidy_power (n : Node) : (n.tidy).power = n.power := rfl
@[simp] theorem Node.tidy_mbox (n : Node) : (n.tidy).mbox = n.mbox := rfl
@[simp] theorem Node.tidy_log (n : Node) : (n.tidy).log = n.log := rfl
@[simp] theorem Node.tidy_snap (n : Node) : (n.tidy).snap = n.snap := rfl
@[simp] theorem Node.tidy_sec (n : Node) : (n.tidy).sec = n.sec := rfl
@[simp] theorem Node.tidy_hif (n : Node) : (n.tidy).hif = n.hif := rfl
@[simp] theorem Node.tidy_qsy (n : Node) : (n.tidy).qsy = n.qsy := rfl
@[simp] theorem Node.tidy_adm (n : Node) : (n.tidy).adm = n.adm := rfl
@[simp] theorem Node.tidy_index (n : Node) : (n.tidy).index = n.index := rfl
@[simp] theorem Node.tidy_spokes (n : Node) : (n.tidy).spokes = n.spokes := rfl
@[simp] theorem Node.tidy_sel (n : Node) : (n.tidy).sel = n.sel := rfl
@[simp] theorem Node.tidy_cas (n : Node) : (n.tidy).cas = n.cas := rfl
@[simp] theorem Node.tidy_store (n : Node) : (n.tidy).store = n.store := rfl
@[simp] theorem Node.tidy_mem_bytes (n : Node) : (n.tidy).mem.bytes = canonCells n.mem.bytes := rfl
@[simp] theorem Node.tidy_mem_poison (n : Node) : (n.tidy).mem.poison = n.mem.poison := rfl
@[simp] theorem Node.tidy_mem_regions (n : Node) : (n.tidy).mem.regions = n.mem.regions := rfl
@[simp] theorem Node.tidy_mem_moves (n : Node) : (n.tidy).mem.moves = n.mem.moves := rfl
@[simp] theorem Node.tidy_mem_unmaps (n : Node) : (n.tidy).mem.unmaps = n.mem.unmaps := rfl
@[simp] theorem Node.tidy_mem_hbmRet (n : Node) : (n.tidy).mem.hbmRet = n.mem.hbmRet := rfl
@[simp] theorem Node.tidy_mem_hbmRehash (n : Node) : (n.tidy).mem.hbmRehash = n.mem.hbmRehash := rfl
@[simp] theorem Node.tidy_mem_rehashLeft (n : Node) : (n.tidy).mem.rehashLeft = n.mem.rehashLeft := rfl
@[simp] theorem Node.tidy_mem_hbmErr (n : Node) : (n.tidy).mem.hbmErr = n.mem.hbmErr := rfl
@[simp] theorem Node.tidy_mem_replicas (n : Node) : (n.tidy).mem.replicas = n.mem.replicas := rfl
@[simp] theorem Node.tidy_mem_stalls (n : Node) : (n.tidy).mem.stalls = n.mem.stalls := rfl
@[simp] theorem Node.tidy_mem_tmos (n : Node) : (n.tidy).mem.tmos = n.mem.tmos := rfl
@[simp] theorem Node.tidy_mem_moveCnt (n : Node) : (n.tidy).mem.moveCnt = n.mem.moveCnt := rfl
@[simp] theorem Node.tidy_mem_lastEpoch (n : Node) : (n.tidy).mem.lastEpoch = n.mem.lastEpoch := rfl
@[simp] theorem Node.tidy_mem_rehashFrom (n : Node) : (n.tidy).mem.rehashFrom = n.mem.rehashFrom := rfl
@[simp] theorem Node.tidy_mem_tileHeld (n : Node) : (n.tidy).mem.tileHeld = n.mem.tileHeld := rfl
@[simp] theorem Node.tidy_mem_grants (n : Node) : (n.tidy).mem.grants = n.mem.grants := rfl
@[simp] theorem Node.tidy_mem_lines (n : Node) : (n.tidy).mem.lines = n.mem.lines := rfl
@[simp] theorem Node.tidy_flash_pop (n : Node) : (n.tidy).flash.pop = n.flash.pop := rfl
@[simp] theorem Node.tidy_flash_dies (n : Node) : (n.tidy).flash.dies = n.flash.dies := rfl
@[simp] theorem Node.tidy_flash_popOk (n : Node) : (n.tidy).flash.popOk = n.flash.popOk := rfl
@[simp] theorem Node.tidy_flash_state (n : Node) : (n.tidy).flash.state = n.flash.state := rfl
@[simp] theorem Node.tidy_flash_readOnly (n : Node) : (n.tidy).flash.readOnly = n.flash.readOnly := rfl
@[simp] theorem Node.tidy_flash_nu (n : Node) : (n.tidy).flash.nu = n.flash.nu := rfl
@[simp] theorem Node.tidy_flash_spare0 (n : Node) : (n.tidy).flash.spare0 = n.flash.spare0 := rfl
@[simp] theorem Node.tidy_flash_map (n : Node) : (n.tidy).flash.map = n.flash.map := rfl
@[simp] theorem Node.tidy_flash_mapDisk (n : Node) : (n.tidy).flash.mapDisk = n.flash.mapDisk := rfl
@[simp] theorem Node.tidy_flash_dirty (n : Node) : (n.tidy).flash.dirty = n.flash.dirty := rfl
@[simp] theorem Node.tidy_flash_media (n : Node) : (n.tidy).flash.media = canonCells n.flash.media := rfl
@[simp] theorem Node.tidy_flash_blocks (n : Node) : (n.tidy).flash.blocks = n.flash.blocks := rfl
@[simp] theorem Node.tidy_flash_fillSeq (n : Node) : (n.tidy).flash.fillSeq = n.flash.fillSeq := rfl
@[simp] theorem Node.tidy_flash_groupFill (n : Node) : (n.tidy).flash.groupFill = n.flash.groupFill := rfl
@[simp] theorem Node.tidy_flash_nextDie (n : Node) : (n.tidy).flash.nextDie = n.flash.nextDie := rfl
@[simp] theorem Node.tidy_flash_gcOn (n : Node) : (n.tidy).flash.gcOn = n.flash.gcOn := rfl
@[simp] theorem Node.tidy_flash_lastMove (n : Node) : (n.tidy).flash.lastMove = n.flash.lastMove := rfl
@[simp] theorem Node.tidy_flash_zqAt (n : Node) : (n.tidy).flash.zqAt = n.flash.zqAt := rfl
@[simp] theorem Node.tidy_flash_dieRet (n : Node) : (n.tidy).flash.dieRet = n.flash.dieRet := rfl
@[simp] theorem Node.tidy_flash_shadow (n : Node) : (n.tidy).flash.shadow = n.flash.shadow := rfl
@[simp] theorem Node.tidy_flash_jseq (n : Node) : (n.tidy).flash.jseq = n.flash.jseq := rfl
@[simp] theorem Node.tidy_flash_data (n : Node) : (n.tidy).flash.data = n.flash.data := rfl
@[simp] theorem Node.tidy_flash_maps (n : Node) : (n.tidy).flash.maps = n.flash.maps := rfl
@[simp] theorem Node.tidy_flash_waits (n : Node) : (n.tidy).flash.waits = n.flash.waits := rfl
@[simp] theorem Node.tidy_flash_areaA (n : Node) : (n.tidy).flash.areaA = n.flash.areaA := rfl
@[simp] theorem Node.tidy_flash_areaB (n : Node) : (n.tidy).flash.areaB = n.flash.areaB := rfl
@[simp] theorem Node.tidy_flash_health (n : Node) : (n.tidy).flash.health = n.flash.health := rfl
@[simp] theorem Node.tidy_flash_groupXor (n : Node) : (n.tidy).flash.groupXor = n.flash.groupXor := rfl
@[simp] theorem Node.tidy_links (n : Node) : (n.tidy).links = n.links := rfl
@[simp] theorem Node.tidy_fabric (n : Node) : (n.tidy).fabric = n.fabric := rfl
@[simp] theorem Node.tidy_peloton (n : Node) : (n.tidy).peloton = n.peloton := rfl
@[simp] theorem Node.tidy_regs (n : Node) : (n.tidy).regs = n.regs := rfl
@[simp] theorem Node.tidy_out (n : Node) : (n.tidy).out = n.out := rfl
@[simp] theorem Node.tidy_clk (n : Node) : (n.tidy).clk = n.clk := rfl
@[simp] theorem Node.tidy_freeCtr (n : Node) : (n.tidy).freeCtr = n.freeCtr := rfl
@[simp] theorem Node.tidy_nextId (n : Node) : (n.tidy).nextId = n.nextId := rfl
@[simp] theorem Node.tidy_thread' (n : Node) (j : Nat) : (n.tidy).thread j = n.thread j := rfl
@[simp] theorem Node.tidy_ctx' (n : Node) (j : Nat) : (n.tidy).ctx j = n.ctx j := rfl
@[simp] theorem Node.tidy_acc' (n : Node) (j : Nat) : (n.tidy).acc j = n.acc j := rfl
@[simp] theorem Node.tidy_reg' (n : Node) (m : RegName) (j : Nat) : (n.tidy).reg m j = n.reg m j := rfl
@[simp] theorem Node.tidy_queue' (n : Node) (j : Nat) : (n.tidy).queue j = n.queue j := rfl
@[simp] theorem Node.tidy_qcfg' (n : Node) (j : Nat) : (n.tidy).qcfg j = n.qcfg j := rfl
@[simp] theorem Node.tidy_sync' (n : Node) (j : Nat) : (n.tidy).sync j = n.sync j := rfl
@[simp] theorem Node.tidy_client' (n : Node) (j : Nat) : (n.tidy).client j = n.client j := rfl
@[simp] theorem Node.tidy_cliId' (n : Node) (j : Nat) : (n.tidy).cliId j = n.cliId j := rfl
@[simp] theorem Node.tidy_slot' (n : Node) (j : Nat) : (n.tidy).slot j = n.slot j := rfl
@[simp] theorem Node.tidy_tile' (n : Node) (j : Nat) : (n.tidy).tile j = n.tile j := rfl
@[simp] theorem Node.tidy_port' (n : Node) (j : Nat) : (n.tidy).port j = n.port j := rfl
@[simp] theorem Node.tidy_job' (n : Node) (j : Nat) : (n.tidy).job j = n.job j := rfl
@[simp] theorem Node.tidy_session' (n : Node) (j : Nat) : (n.tidy).session j = n.session j := rfl
@[simp] theorem Node.tidy_ten' (n : Node) (j : Nat) : (n.tidy).ten j = n.ten j := rfl
@[simp] theorem Node.tidy_kslot' (n : Node) (j : Nat) : (n.tidy).kslot j = n.kslot j := rfl
@[simp] theorem Node.tidy_region' (n : Node) (p g : Nat) : (n.tidy).region p g = n.region p g := rfl
@[simp] theorem Node.tidy_dataUp' (n : Node) : (n.tidy).dataUp = n.dataUp := rfl
@[simp] theorem Node.tidy_linksUp' (n : Node) : (n.tidy).linksUp = n.linksUp := rfl
@[simp] theorem Node.tidy_now' (n : Node) : (n.tidy).now = n.now := rfl
@[simp] theorem Node.tidy_fixedSlot' (n : Node) : (n.tidy).fixedSlot = n.fixedSlot := rfl
@[simp] theorem Node.tidy_auditOk' (n : Node) : (n.tidy).auditOk = n.auditOk := rfl

/-! ### `Node.setBlk` -/

@[simp] theorem Node.setBlk_fuses (n : Node) (d b : Nat) (x : FBlock) : (n.setBlk d b x).fuses = n.fuses := rfl
@[simp] theorem Node.setBlk_qspi (n : Node) (d b : Nat) (x : FBlock) : (n.setBlk d b x).qspi = n.qspi := rfl
@[simp] theorem Node.setBlk_dev (n : Node) (d b : Nat) (x : FBlock) : (n.setBlk d b x).dev = n.dev := rfl
@[simp] theorem Node.setBlk_mgt (n : Node) (d b : Nat) (x : FBlock) : (n.setBlk d b x).mgt = n.mgt := rfl
@[simp] theorem Node.setBlk_power (n : Node) (d b : Nat) (x : FBlock) : (n.setBlk d b x).power = n.power := rfl
@[simp] theorem Node.setBlk_mbox (n : Node) (d b : Nat) (x : FBlock) : (n.setBlk d b x).mbox = n.mbox := rfl
@[simp] theorem Node.setBlk_log (n : Node) (d b : Nat) (x : FBlock) : (n.setBlk d b x).log = n.log := rfl
@[simp] theorem Node.setBlk_snap (n : Node) (d b : Nat) (x : FBlock) : (n.setBlk d b x).snap = n.snap := rfl
@[simp] theorem Node.setBlk_sec (n : Node) (d b : Nat) (x : FBlock) : (n.setBlk d b x).sec = n.sec := rfl
@[simp] theorem Node.setBlk_hif (n : Node) (d b : Nat) (x : FBlock) : (n.setBlk d b x).hif = n.hif := rfl
@[simp] theorem Node.setBlk_qsy (n : Node) (d b : Nat) (x : FBlock) : (n.setBlk d b x).qsy = n.qsy := rfl
@[simp] theorem Node.setBlk_adm (n : Node) (d b : Nat) (x : FBlock) : (n.setBlk d b x).adm = n.adm := rfl
@[simp] theorem Node.setBlk_index (n : Node) (d b : Nat) (x : FBlock) : (n.setBlk d b x).index = n.index := rfl
@[simp] theorem Node.setBlk_spokes (n : Node) (d b : Nat) (x : FBlock) : (n.setBlk d b x).spokes = n.spokes := rfl
@[simp] theorem Node.setBlk_sel (n : Node) (d b : Nat) (x : FBlock) : (n.setBlk d b x).sel = n.sel := rfl
@[simp] theorem Node.setBlk_cas (n : Node) (d b : Nat) (x : FBlock) : (n.setBlk d b x).cas = n.cas := rfl
@[simp] theorem Node.setBlk_store (n : Node) (d b : Nat) (x : FBlock) : (n.setBlk d b x).store = n.store := rfl
@[simp] theorem Node.setBlk_mem (n : Node) (d b : Nat) (x : FBlock) : (n.setBlk d b x).mem = n.mem := rfl
@[simp] theorem Node.setBlk_flash_pop (n : Node) (d b : Nat) (x : FBlock) : (n.setBlk d b x).flash.pop = n.flash.pop := rfl
@[simp] theorem Node.setBlk_flash_dies (n : Node) (d b : Nat) (x : FBlock) : (n.setBlk d b x).flash.dies = n.flash.dies := rfl
@[simp] theorem Node.setBlk_flash_popOk (n : Node) (d b : Nat) (x : FBlock) : (n.setBlk d b x).flash.popOk = n.flash.popOk := rfl
@[simp] theorem Node.setBlk_flash_state (n : Node) (d b : Nat) (x : FBlock) : (n.setBlk d b x).flash.state = n.flash.state := rfl
@[simp] theorem Node.setBlk_flash_readOnly (n : Node) (d b : Nat) (x : FBlock) : (n.setBlk d b x).flash.readOnly = n.flash.readOnly := rfl
@[simp] theorem Node.setBlk_flash_nu (n : Node) (d b : Nat) (x : FBlock) : (n.setBlk d b x).flash.nu = n.flash.nu := rfl
@[simp] theorem Node.setBlk_flash_spare0 (n : Node) (d b : Nat) (x : FBlock) : (n.setBlk d b x).flash.spare0 = n.flash.spare0 := rfl
@[simp] theorem Node.setBlk_flash_map (n : Node) (d b : Nat) (x : FBlock) : (n.setBlk d b x).flash.map = n.flash.map := rfl
@[simp] theorem Node.setBlk_flash_mapDisk (n : Node) (d b : Nat) (x : FBlock) : (n.setBlk d b x).flash.mapDisk = n.flash.mapDisk := rfl
@[simp] theorem Node.setBlk_flash_dirty (n : Node) (d b : Nat) (x : FBlock) : (n.setBlk d b x).flash.dirty = n.flash.dirty := rfl
@[simp] theorem Node.setBlk_flash_media (n : Node) (d b : Nat) (x : FBlock) : (n.setBlk d b x).flash.media = n.flash.media := rfl
@[simp] theorem Node.setBlk_flash_blocks (n : Node) (d b : Nat) (x : FBlock) : (n.setBlk d b x).flash.blocks = KList.put n.flash.blocks (blkKey d b) x := rfl
@[simp] theorem Node.setBlk_flash_fillSeq (n : Node) (d b : Nat) (x : FBlock) : (n.setBlk d b x).flash.fillSeq = n.flash.fillSeq := rfl
@[simp] theorem Node.setBlk_flash_groupFill (n : Node) (d b : Nat) (x : FBlock) : (n.setBlk d b x).flash.groupFill = n.flash.groupFill := rfl
@[simp] theorem Node.setBlk_flash_nextDie (n : Node) (d b : Nat) (x : FBlock) : (n.setBlk d b x).flash.nextDie = n.flash.nextDie := rfl
@[simp] theorem Node.setBlk_flash_gcOn (n : Node) (d b : Nat) (x : FBlock) : (n.setBlk d b x).flash.gcOn = n.flash.gcOn := rfl
@[simp] theorem Node.setBlk_flash_lastMove (n : Node) (d b : Nat) (x : FBlock) : (n.setBlk d b x).flash.lastMove = n.flash.lastMove := rfl
@[simp] theorem Node.setBlk_flash_zqAt (n : Node) (d b : Nat) (x : FBlock) : (n.setBlk d b x).flash.zqAt = n.flash.zqAt := rfl
@[simp] theorem Node.setBlk_flash_dieRet (n : Node) (d b : Nat) (x : FBlock) : (n.setBlk d b x).flash.dieRet = n.flash.dieRet := rfl
@[simp] theorem Node.setBlk_flash_shadow (n : Node) (d b : Nat) (x : FBlock) : (n.setBlk d b x).flash.shadow = n.flash.shadow := rfl
@[simp] theorem Node.setBlk_flash_jseq (n : Node) (d b : Nat) (x : FBlock) : (n.setBlk d b x).flash.jseq = n.flash.jseq := rfl
@[simp] theorem Node.setBlk_flash_data (n : Node) (d b : Nat) (x : FBlock) : (n.setBlk d b x).flash.data = n.flash.data := rfl
@[simp] theorem Node.setBlk_flash_maps (n : Node) (d b : Nat) (x : FBlock) : (n.setBlk d b x).flash.maps = n.flash.maps := rfl
@[simp] theorem Node.setBlk_flash_waits (n : Node) (d b : Nat) (x : FBlock) : (n.setBlk d b x).flash.waits = n.flash.waits := rfl
@[simp] theorem Node.setBlk_flash_areaA (n : Node) (d b : Nat) (x : FBlock) : (n.setBlk d b x).flash.areaA = n.flash.areaA := rfl
@[simp] theorem Node.setBlk_flash_areaB (n : Node) (d b : Nat) (x : FBlock) : (n.setBlk d b x).flash.areaB = n.flash.areaB := rfl
@[simp] theorem Node.setBlk_flash_health (n : Node) (d b : Nat) (x : FBlock) : (n.setBlk d b x).flash.health = n.flash.health := rfl
@[simp] theorem Node.setBlk_flash_groupXor (n : Node) (d b : Nat) (x : FBlock) : (n.setBlk d b x).flash.groupXor = n.flash.groupXor := rfl
@[simp] theorem Node.setBlk_links (n : Node) (d b : Nat) (x : FBlock) : (n.setBlk d b x).links = n.links := rfl
@[simp] theorem Node.setBlk_fabric (n : Node) (d b : Nat) (x : FBlock) : (n.setBlk d b x).fabric = n.fabric := rfl
@[simp] theorem Node.setBlk_peloton (n : Node) (d b : Nat) (x : FBlock) : (n.setBlk d b x).peloton = n.peloton := rfl
@[simp] theorem Node.setBlk_regs (n : Node) (d b : Nat) (x : FBlock) : (n.setBlk d b x).regs = n.regs := rfl
@[simp] theorem Node.setBlk_out (n : Node) (d b : Nat) (x : FBlock) : (n.setBlk d b x).out = n.out := rfl
@[simp] theorem Node.setBlk_clk (n : Node) (d b : Nat) (x : FBlock) : (n.setBlk d b x).clk = n.clk := rfl
@[simp] theorem Node.setBlk_freeCtr (n : Node) (d b : Nat) (x : FBlock) : (n.setBlk d b x).freeCtr = n.freeCtr := rfl
@[simp] theorem Node.setBlk_nextId (n : Node) (d b : Nat) (x : FBlock) : (n.setBlk d b x).nextId = n.nextId := rfl
@[simp] theorem Node.setBlk_thread' (n : Node) (d b : Nat) (x : FBlock) (j : Nat) : (n.setBlk d b x).thread j = n.thread j := rfl
@[simp] theorem Node.setBlk_ctx' (n : Node) (d b : Nat) (x : FBlock) (j : Nat) : (n.setBlk d b x).ctx j = n.ctx j := rfl
@[simp] theorem Node.setBlk_acc' (n : Node) (d b : Nat) (x : FBlock) (j : Nat) : (n.setBlk d b x).acc j = n.acc j := rfl
@[simp] theorem Node.setBlk_reg' (n : Node) (d b : Nat) (x : FBlock) (m : RegName) (j : Nat) : (n.setBlk d b x).reg m j = n.reg m j := rfl
@[simp] theorem Node.setBlk_queue' (n : Node) (d b : Nat) (x : FBlock) (j : Nat) : (n.setBlk d b x).queue j = n.queue j := rfl
@[simp] theorem Node.setBlk_qcfg' (n : Node) (d b : Nat) (x : FBlock) (j : Nat) : (n.setBlk d b x).qcfg j = n.qcfg j := rfl
@[simp] theorem Node.setBlk_sync' (n : Node) (d b : Nat) (x : FBlock) (j : Nat) : (n.setBlk d b x).sync j = n.sync j := rfl
@[simp] theorem Node.setBlk_client' (n : Node) (d b : Nat) (x : FBlock) (j : Nat) : (n.setBlk d b x).client j = n.client j := rfl
@[simp] theorem Node.setBlk_cliId' (n : Node) (d b : Nat) (x : FBlock) (j : Nat) : (n.setBlk d b x).cliId j = n.cliId j := rfl
@[simp] theorem Node.setBlk_slot' (n : Node) (d b : Nat) (x : FBlock) (j : Nat) : (n.setBlk d b x).slot j = n.slot j := rfl
@[simp] theorem Node.setBlk_tile' (n : Node) (d b : Nat) (x : FBlock) (j : Nat) : (n.setBlk d b x).tile j = n.tile j := rfl
@[simp] theorem Node.setBlk_port' (n : Node) (d b : Nat) (x : FBlock) (j : Nat) : (n.setBlk d b x).port j = n.port j := rfl
@[simp] theorem Node.setBlk_job' (n : Node) (d b : Nat) (x : FBlock) (j : Nat) : (n.setBlk d b x).job j = n.job j := rfl
@[simp] theorem Node.setBlk_session' (n : Node) (d b : Nat) (x : FBlock) (j : Nat) : (n.setBlk d b x).session j = n.session j := rfl
@[simp] theorem Node.setBlk_ten' (n : Node) (d b : Nat) (x : FBlock) (j : Nat) : (n.setBlk d b x).ten j = n.ten j := rfl
@[simp] theorem Node.setBlk_kslot' (n : Node) (d b : Nat) (x : FBlock) (j : Nat) : (n.setBlk d b x).kslot j = n.kslot j := rfl
@[simp] theorem Node.setBlk_region' (n : Node) (d b : Nat) (x : FBlock) (p g : Nat) : (n.setBlk d b x).region p g = n.region p g := rfl
@[simp] theorem Node.setBlk_read' (n : Node) (d b : Nat) (x : FBlock) (p c w : Nat) : (n.setBlk d b x).read p c w = n.read p c w := rfl
@[simp] theorem Node.setBlk_dataUp' (n : Node) (d b : Nat) (x : FBlock) : (n.setBlk d b x).dataUp = n.dataUp := rfl
@[simp] theorem Node.setBlk_linksUp' (n : Node) (d b : Nat) (x : FBlock) : (n.setBlk d b x).linksUp = n.linksUp := rfl
@[simp] theorem Node.setBlk_now' (n : Node) (d b : Nat) (x : FBlock) : (n.setBlk d b x).now = n.now := rfl
@[simp] theorem Node.setBlk_fixedSlot' (n : Node) (d b : Nat) (x : FBlock) : (n.setBlk d b x).fixedSlot = n.fixedSlot := rfl
@[simp] theorem Node.setBlk_auditOk' (n : Node) (d b : Nat) (x : FBlock) : (n.setBlk d b x).auditOk = n.auditOk := rfl

/-! ### `Node.setPort` -/

@[simp] theorem Node.setPort_fuses (n : Node) (k : Nat) (x : Port) : (n.setPort k x).fuses = n.fuses := rfl
@[simp] theorem Node.setPort_qspi (n : Node) (k : Nat) (x : Port) : (n.setPort k x).qspi = n.qspi := rfl
@[simp] theorem Node.setPort_dev (n : Node) (k : Nat) (x : Port) : (n.setPort k x).dev = n.dev := rfl
@[simp] theorem Node.setPort_mgt (n : Node) (k : Nat) (x : Port) : (n.setPort k x).mgt = n.mgt := rfl
@[simp] theorem Node.setPort_power (n : Node) (k : Nat) (x : Port) : (n.setPort k x).power = n.power := rfl
@[simp] theorem Node.setPort_mbox (n : Node) (k : Nat) (x : Port) : (n.setPort k x).mbox = n.mbox := rfl
@[simp] theorem Node.setPort_log (n : Node) (k : Nat) (x : Port) : (n.setPort k x).log = n.log := rfl
@[simp] theorem Node.setPort_snap (n : Node) (k : Nat) (x : Port) : (n.setPort k x).snap = n.snap := rfl
@[simp] theorem Node.setPort_sec (n : Node) (k : Nat) (x : Port) : (n.setPort k x).sec = n.sec := rfl
@[simp] theorem Node.setPort_hif (n : Node) (k : Nat) (x : Port) : (n.setPort k x).hif = n.hif := rfl
@[simp] theorem Node.setPort_qsy (n : Node) (k : Nat) (x : Port) : (n.setPort k x).qsy = n.qsy := rfl
@[simp] theorem Node.setPort_adm (n : Node) (k : Nat) (x : Port) : (n.setPort k x).adm = n.adm := rfl
@[simp] theorem Node.setPort_index (n : Node) (k : Nat) (x : Port) : (n.setPort k x).index = n.index := rfl
@[simp] theorem Node.setPort_spokes (n : Node) (k : Nat) (x : Port) : (n.setPort k x).spokes = n.spokes := rfl
@[simp] theorem Node.setPort_sel (n : Node) (k : Nat) (x : Port) : (n.setPort k x).sel = n.sel := rfl
@[simp] theorem Node.setPort_cas (n : Node) (k : Nat) (x : Port) : (n.setPort k x).cas = n.cas := rfl
@[simp] theorem Node.setPort_store (n : Node) (k : Nat) (x : Port) : (n.setPort k x).store = n.store := rfl
@[simp] theorem Node.setPort_mem (n : Node) (k : Nat) (x : Port) : (n.setPort k x).mem = n.mem := rfl
@[simp] theorem Node.setPort_flash (n : Node) (k : Nat) (x : Port) : (n.setPort k x).flash = n.flash := rfl
@[simp] theorem Node.setPort_links_ports (n : Node) (k : Nat) (x : Port) : (n.setPort k x).links.ports = KList.put n.links.ports k x := rfl
@[simp] theorem Node.setPort_links_offset (n : Node) (k : Nat) (x : Port) : (n.setPort k x).links.offset = n.links.offset := rfl
@[simp] theorem Node.setPort_links_delay (n : Node) (k : Nat) (x : Port) : (n.setPort k x).links.delay = n.links.delay := rfl
@[simp] theorem Node.setPort_links_tstate (n : Node) (k : Nat) (x : Port) : (n.setPort k x).links.tstate = n.links.tstate := rfl
@[simp] theorem Node.setPort_fabric (n : Node) (k : Nat) (x : Port) : (n.setPort k x).fabric = n.fabric := rfl
@[simp] theorem Node.setPort_peloton (n : Node) (k : Nat) (x : Port) : (n.setPort k x).peloton = n.peloton := rfl
@[simp] theorem Node.setPort_regs (n : Node) (k : Nat) (x : Port) : (n.setPort k x).regs = n.regs := rfl
@[simp] theorem Node.setPort_out (n : Node) (k : Nat) (x : Port) : (n.setPort k x).out = n.out := rfl
@[simp] theorem Node.setPort_clk (n : Node) (k : Nat) (x : Port) : (n.setPort k x).clk = n.clk := rfl
@[simp] theorem Node.setPort_freeCtr (n : Node) (k : Nat) (x : Port) : (n.setPort k x).freeCtr = n.freeCtr := rfl
@[simp] theorem Node.setPort_nextId (n : Node) (k : Nat) (x : Port) : (n.setPort k x).nextId = n.nextId := rfl
@[simp] theorem Node.setPort_thread' (n : Node) (k : Nat) (x : Port) (j : Nat) : (n.setPort k x).thread j = n.thread j := rfl
@[simp] theorem Node.setPort_ctx' (n : Node) (k : Nat) (x : Port) (j : Nat) : (n.setPort k x).ctx j = n.ctx j := rfl
@[simp] theorem Node.setPort_acc' (n : Node) (k : Nat) (x : Port) (j : Nat) : (n.setPort k x).acc j = n.acc j := rfl
@[simp] theorem Node.setPort_reg' (n : Node) (k : Nat) (x : Port) (m : RegName) (j : Nat) : (n.setPort k x).reg m j = n.reg m j := rfl
@[simp] theorem Node.setPort_queue' (n : Node) (k : Nat) (x : Port) (j : Nat) : (n.setPort k x).queue j = n.queue j := rfl
@[simp] theorem Node.setPort_qcfg' (n : Node) (k : Nat) (x : Port) (j : Nat) : (n.setPort k x).qcfg j = n.qcfg j := rfl
@[simp] theorem Node.setPort_sync' (n : Node) (k : Nat) (x : Port) (j : Nat) : (n.setPort k x).sync j = n.sync j := rfl
@[simp] theorem Node.setPort_client' (n : Node) (k : Nat) (x : Port) (j : Nat) : (n.setPort k x).client j = n.client j := rfl
@[simp] theorem Node.setPort_cliId' (n : Node) (k : Nat) (x : Port) (j : Nat) : (n.setPort k x).cliId j = n.cliId j := rfl
@[simp] theorem Node.setPort_slot' (n : Node) (k : Nat) (x : Port) (j : Nat) : (n.setPort k x).slot j = n.slot j := rfl
@[simp] theorem Node.setPort_tile' (n : Node) (k : Nat) (x : Port) (j : Nat) : (n.setPort k x).tile j = n.tile j := rfl
@[simp] theorem Node.setPort_job' (n : Node) (k : Nat) (x : Port) (j : Nat) : (n.setPort k x).job j = n.job j := rfl
@[simp] theorem Node.setPort_session' (n : Node) (k : Nat) (x : Port) (j : Nat) : (n.setPort k x).session j = n.session j := rfl
@[simp] theorem Node.setPort_ten' (n : Node) (k : Nat) (x : Port) (j : Nat) : (n.setPort k x).ten j = n.ten j := rfl
@[simp] theorem Node.setPort_kslot' (n : Node) (k : Nat) (x : Port) (j : Nat) : (n.setPort k x).kslot j = n.kslot j := rfl
@[simp] theorem Node.setPort_region' (n : Node) (k : Nat) (x : Port) (p g : Nat) : (n.setPort k x).region p g = n.region p g := rfl
@[simp] theorem Node.setPort_read' (n : Node) (k : Nat) (x : Port) (p c w : Nat) : (n.setPort k x).read p c w = n.read p c w := rfl
@[simp] theorem Node.setPort_dataUp' (n : Node) (k : Nat) (x : Port) : (n.setPort k x).dataUp = n.dataUp := rfl
@[simp] theorem Node.setPort_linksUp' (n : Node) (k : Nat) (x : Port) : (n.setPort k x).linksUp = n.linksUp := rfl
@[simp] theorem Node.setPort_now' (n : Node) (k : Nat) (x : Port) : (n.setPort k x).now = n.now := rfl
@[simp] theorem Node.setPort_fixedSlot' (n : Node) (k : Nat) (x : Port) : (n.setPort k x).fixedSlot = n.fixedSlot := rfl
@[simp] theorem Node.setPort_auditOk' (n : Node) (k : Nat) (x : Port) : (n.setPort k x).auditOk = n.auditOk := rfl

/-! ### `Node.setJob` -/

@[simp] theorem Node.setJob_fuses (n : Node) (k : Nat) (x : Job) : (n.setJob k x).fuses = n.fuses := rfl
@[simp] theorem Node.setJob_qspi (n : Node) (k : Nat) (x : Job) : (n.setJob k x).qspi = n.qspi := rfl
@[simp] theorem Node.setJob_dev (n : Node) (k : Nat) (x : Job) : (n.setJob k x).dev = n.dev := rfl
@[simp] theorem Node.setJob_mgt (n : Node) (k : Nat) (x : Job) : (n.setJob k x).mgt = n.mgt := rfl
@[simp] theorem Node.setJob_power (n : Node) (k : Nat) (x : Job) : (n.setJob k x).power = n.power := rfl
@[simp] theorem Node.setJob_mbox (n : Node) (k : Nat) (x : Job) : (n.setJob k x).mbox = n.mbox := rfl
@[simp] theorem Node.setJob_log (n : Node) (k : Nat) (x : Job) : (n.setJob k x).log = n.log := rfl
@[simp] theorem Node.setJob_snap (n : Node) (k : Nat) (x : Job) : (n.setJob k x).snap = n.snap := rfl
@[simp] theorem Node.setJob_sec (n : Node) (k : Nat) (x : Job) : (n.setJob k x).sec = n.sec := rfl
@[simp] theorem Node.setJob_hif (n : Node) (k : Nat) (x : Job) : (n.setJob k x).hif = n.hif := rfl
@[simp] theorem Node.setJob_qsy (n : Node) (k : Nat) (x : Job) : (n.setJob k x).qsy = n.qsy := rfl
@[simp] theorem Node.setJob_adm (n : Node) (k : Nat) (x : Job) : (n.setJob k x).adm = n.adm := rfl
@[simp] theorem Node.setJob_index (n : Node) (k : Nat) (x : Job) : (n.setJob k x).index = n.index := rfl
@[simp] theorem Node.setJob_spokes (n : Node) (k : Nat) (x : Job) : (n.setJob k x).spokes = n.spokes := rfl
@[simp] theorem Node.setJob_sel (n : Node) (k : Nat) (x : Job) : (n.setJob k x).sel = n.sel := rfl
@[simp] theorem Node.setJob_cas (n : Node) (k : Nat) (x : Job) : (n.setJob k x).cas = n.cas := rfl
@[simp] theorem Node.setJob_store (n : Node) (k : Nat) (x : Job) : (n.setJob k x).store = n.store := rfl
@[simp] theorem Node.setJob_mem (n : Node) (k : Nat) (x : Job) : (n.setJob k x).mem = n.mem := rfl
@[simp] theorem Node.setJob_flash (n : Node) (k : Nat) (x : Job) : (n.setJob k x).flash = n.flash := rfl
@[simp] theorem Node.setJob_links (n : Node) (k : Nat) (x : Job) : (n.setJob k x).links = n.links := rfl
@[simp] theorem Node.setJob_fabric_reqs (n : Node) (k : Nat) (x : Job) : (n.setJob k x).fabric.reqs = n.fabric.reqs := rfl
@[simp] theorem Node.setJob_fabric_tagWait (n : Node) (k : Nat) (x : Job) : (n.setJob k x).fabric.tagWait = n.fabric.tagWait := rfl
@[simp] theorem Node.setJob_fabric_served (n : Node) (k : Nat) (x : Job) : (n.setJob k x).fabric.served = n.fabric.served := rfl
@[simp] theorem Node.setJob_fabric_routes (n : Node) (k : Nat) (x : Job) : (n.setJob k x).fabric.routes = n.fabric.routes := rfl
@[simp] theorem Node.setJob_fabric_windows (n : Node) (k : Nat) (x : Job) : (n.setJob k x).fabric.windows = n.fabric.windows := rfl
@[simp] theorem Node.setJob_fabric_jobs (n : Node) (k : Nat) (x : Job) : (n.setJob k x).fabric.jobs = KList.put n.fabric.jobs k x := rfl
@[simp] theorem Node.setJob_fabric_ledger (n : Node) (k : Nat) (x : Job) : (n.setJob k x).fabric.ledger = n.fabric.ledger := rfl
@[simp] theorem Node.setJob_fabric_ledgerNext (n : Node) (k : Nat) (x : Job) : (n.setJob k x).fabric.ledgerNext = n.fabric.ledgerNext := rfl
@[simp] theorem Node.setJob_fabric_ledgerFresh (n : Node) (k : Nat) (x : Job) : (n.setJob k x).fabric.ledgerFresh = n.fabric.ledgerFresh := rfl
@[simp] theorem Node.setJob_fabric_ledgerOvf (n : Node) (k : Nat) (x : Job) : (n.setJob k x).fabric.ledgerOvf = n.fabric.ledgerOvf := rfl
@[simp] theorem Node.setJob_fabric_stale (n : Node) (k : Nat) (x : Job) : (n.setJob k x).fabric.stale = n.fabric.stale := rfl
@[simp] theorem Node.setJob_fabric_outbox (n : Node) (k : Nat) (x : Job) : (n.setJob k x).fabric.outbox = n.fabric.outbox := rfl
@[simp] theorem Node.setJob_fabric_portOut (n : Node) (k : Nat) (x : Job) : (n.setJob k x).fabric.portOut = n.fabric.portOut := rfl
@[simp] theorem Node.setJob_fabric_held (n : Node) (k : Nat) (x : Job) : (n.setJob k x).fabric.held = n.fabric.held := rfl
@[simp] theorem Node.setJob_peloton (n : Node) (k : Nat) (x : Job) : (n.setJob k x).peloton = n.peloton := rfl
@[simp] theorem Node.setJob_regs (n : Node) (k : Nat) (x : Job) : (n.setJob k x).regs = n.regs := rfl
@[simp] theorem Node.setJob_out (n : Node) (k : Nat) (x : Job) : (n.setJob k x).out = n.out := rfl
@[simp] theorem Node.setJob_clk (n : Node) (k : Nat) (x : Job) : (n.setJob k x).clk = n.clk := rfl
@[simp] theorem Node.setJob_freeCtr (n : Node) (k : Nat) (x : Job) : (n.setJob k x).freeCtr = n.freeCtr := rfl
@[simp] theorem Node.setJob_nextId (n : Node) (k : Nat) (x : Job) : (n.setJob k x).nextId = n.nextId := rfl
@[simp] theorem Node.setJob_thread' (n : Node) (k : Nat) (x : Job) (j : Nat) : (n.setJob k x).thread j = n.thread j := rfl
@[simp] theorem Node.setJob_ctx' (n : Node) (k : Nat) (x : Job) (j : Nat) : (n.setJob k x).ctx j = n.ctx j := rfl
@[simp] theorem Node.setJob_acc' (n : Node) (k : Nat) (x : Job) (j : Nat) : (n.setJob k x).acc j = n.acc j := rfl
@[simp] theorem Node.setJob_reg' (n : Node) (k : Nat) (x : Job) (m : RegName) (j : Nat) : (n.setJob k x).reg m j = n.reg m j := rfl
@[simp] theorem Node.setJob_queue' (n : Node) (k : Nat) (x : Job) (j : Nat) : (n.setJob k x).queue j = n.queue j := rfl
@[simp] theorem Node.setJob_qcfg' (n : Node) (k : Nat) (x : Job) (j : Nat) : (n.setJob k x).qcfg j = n.qcfg j := rfl
@[simp] theorem Node.setJob_sync' (n : Node) (k : Nat) (x : Job) (j : Nat) : (n.setJob k x).sync j = n.sync j := rfl
@[simp] theorem Node.setJob_client' (n : Node) (k : Nat) (x : Job) (j : Nat) : (n.setJob k x).client j = n.client j := rfl
@[simp] theorem Node.setJob_cliId' (n : Node) (k : Nat) (x : Job) (j : Nat) : (n.setJob k x).cliId j = n.cliId j := rfl
@[simp] theorem Node.setJob_slot' (n : Node) (k : Nat) (x : Job) (j : Nat) : (n.setJob k x).slot j = n.slot j := rfl
@[simp] theorem Node.setJob_tile' (n : Node) (k : Nat) (x : Job) (j : Nat) : (n.setJob k x).tile j = n.tile j := rfl
@[simp] theorem Node.setJob_port' (n : Node) (k : Nat) (x : Job) (j : Nat) : (n.setJob k x).port j = n.port j := rfl
@[simp] theorem Node.setJob_session' (n : Node) (k : Nat) (x : Job) (j : Nat) : (n.setJob k x).session j = n.session j := rfl
@[simp] theorem Node.setJob_ten' (n : Node) (k : Nat) (x : Job) (j : Nat) : (n.setJob k x).ten j = n.ten j := rfl
@[simp] theorem Node.setJob_kslot' (n : Node) (k : Nat) (x : Job) (j : Nat) : (n.setJob k x).kslot j = n.kslot j := rfl
@[simp] theorem Node.setJob_region' (n : Node) (k : Nat) (x : Job) (p g : Nat) : (n.setJob k x).region p g = n.region p g := rfl
@[simp] theorem Node.setJob_read' (n : Node) (k : Nat) (x : Job) (p c w : Nat) : (n.setJob k x).read p c w = n.read p c w := rfl
@[simp] theorem Node.setJob_dataUp' (n : Node) (k : Nat) (x : Job) : (n.setJob k x).dataUp = n.dataUp := rfl
@[simp] theorem Node.setJob_linksUp' (n : Node) (k : Nat) (x : Job) : (n.setJob k x).linksUp = n.linksUp := rfl
@[simp] theorem Node.setJob_now' (n : Node) (k : Nat) (x : Job) : (n.setJob k x).now = n.now := rfl
@[simp] theorem Node.setJob_fixedSlot' (n : Node) (k : Nat) (x : Job) : (n.setJob k x).fixedSlot = n.fixedSlot := rfl
@[simp] theorem Node.setJob_auditOk' (n : Node) (k : Nat) (x : Job) : (n.setJob k x).auditOk = n.auditOk := rfl

/-! ### `Node.putRole` -/

@[simp] theorem Node.putRole_fuses (n : Node) (r : ShardRole) : (n.putRole r).fuses = n.fuses := rfl
@[simp] theorem Node.putRole_qspi (n : Node) (r : ShardRole) : (n.putRole r).qspi = n.qspi := rfl
@[simp] theorem Node.putRole_dev (n : Node) (r : ShardRole) : (n.putRole r).dev = n.dev := rfl
@[simp] theorem Node.putRole_mgt (n : Node) (r : ShardRole) : (n.putRole r).mgt = n.mgt := rfl
@[simp] theorem Node.putRole_power (n : Node) (r : ShardRole) : (n.putRole r).power = n.power := rfl
@[simp] theorem Node.putRole_mbox (n : Node) (r : ShardRole) : (n.putRole r).mbox = n.mbox := rfl
@[simp] theorem Node.putRole_log (n : Node) (r : ShardRole) : (n.putRole r).log = n.log := rfl
@[simp] theorem Node.putRole_snap (n : Node) (r : ShardRole) : (n.putRole r).snap = n.snap := rfl
@[simp] theorem Node.putRole_sec (n : Node) (r : ShardRole) : (n.putRole r).sec = n.sec := rfl
@[simp] theorem Node.putRole_hif (n : Node) (r : ShardRole) : (n.putRole r).hif = n.hif := rfl
@[simp] theorem Node.putRole_qsy (n : Node) (r : ShardRole) : (n.putRole r).qsy = n.qsy := rfl
@[simp] theorem Node.putRole_adm (n : Node) (r : ShardRole) : (n.putRole r).adm = n.adm := rfl
@[simp] theorem Node.putRole_index (n : Node) (r : ShardRole) : (n.putRole r).index = n.index := rfl
@[simp] theorem Node.putRole_spokes (n : Node) (r : ShardRole) : (n.putRole r).spokes = n.spokes := rfl
@[simp] theorem Node.putRole_sel (n : Node) (r : ShardRole) : (n.putRole r).sel = n.sel := rfl
@[simp] theorem Node.putRole_cas (n : Node) (r : ShardRole) : (n.putRole r).cas = n.cas := rfl
@[simp] theorem Node.putRole_store (n : Node) (r : ShardRole) : (n.putRole r).store = n.store := rfl
@[simp] theorem Node.putRole_mem (n : Node) (r : ShardRole) : (n.putRole r).mem = n.mem := rfl
@[simp] theorem Node.putRole_flash (n : Node) (r : ShardRole) : (n.putRole r).flash = n.flash := rfl
@[simp] theorem Node.putRole_links (n : Node) (r : ShardRole) : (n.putRole r).links = n.links := rfl
@[simp] theorem Node.putRole_fabric (n : Node) (r : ShardRole) : (n.putRole r).fabric = n.fabric := rfl
@[simp] theorem Node.putRole_peloton_members (n : Node) (r : ShardRole) : (n.putRole r).peloton.members = n.peloton.members := rfl
@[simp] theorem Node.putRole_peloton_incarn (n : Node) (r : ShardRole) : (n.putRole r).peloton.incarn = n.peloton.incarn := rfl
@[simp] theorem Node.putRole_peloton_state (n : Node) (r : ShardRole) : (n.putRole r).peloton.state = n.peloton.state := rfl
@[simp] theorem Node.putRole_peloton_leader (n : Node) (r : ShardRole) : (n.putRole r).peloton.leader = n.peloton.leader := rfl
@[simp] theorem Node.putRole_peloton_beaconAt (n : Node) (r : ShardRole) : (n.putRole r).peloton.beaconAt = n.peloton.beaconAt := rfl
@[simp] theorem Node.putRole_peloton_beaconSeq (n : Node) (r : ShardRole) : (n.putRole r).peloton.beaconSeq = n.peloton.beaconSeq := rfl
@[simp] theorem Node.putRole_peloton_lastBeaconSent (n : Node) (r : ShardRole) : (n.putRole r).peloton.lastBeaconSent = n.peloton.lastBeaconSent := rfl
@[simp] theorem Node.putRole_peloton_heard (n : Node) (r : ShardRole) : (n.putRole r).peloton.heard = n.peloton.heard := rfl
@[simp] theorem Node.putRole_peloton_watched (n : Node) (r : ShardRole) : (n.putRole r).peloton.watched = n.peloton.watched := rfl
@[simp] theorem Node.putRole_peloton_suspects (n : Node) (r : ShardRole) : (n.putRole r).peloton.suspects = n.peloton.suspects := rfl
@[simp] theorem Node.putRole_peloton_votes (n : Node) (r : ShardRole) : (n.putRole r).peloton.votes = n.peloton.votes := rfl
@[simp] theorem Node.putRole_peloton_cast (n : Node) (r : ShardRole) : (n.putRole r).peloton.cast = n.peloton.cast := rfl
@[simp] theorem Node.putRole_peloton_pending (n : Node) (r : ShardRole) : (n.putRole r).peloton.pending = n.peloton.pending := rfl
@[simp] theorem Node.putRole_peloton_asked (n : Node) (r : ShardRole) : (n.putRole r).peloton.asked = n.peloton.asked := rfl
@[simp] theorem Node.putRole_peloton_dseq (n : Node) (r : ShardRole) : (n.putRole r).peloton.dseq = n.peloton.dseq := rfl
@[simp] theorem Node.putRole_peloton_nextDseq (n : Node) (r : ShardRole) : (n.putRole r).peloton.nextDseq = n.peloton.nextDseq := rfl
@[simp] theorem Node.putRole_peloton_lastHb (n : Node) (r : ShardRole) : (n.putRole r).peloton.lastHb = n.peloton.lastHb := rfl
@[simp] theorem Node.putRole_peloton_fenced (n : Node) (r : ShardRole) : (n.putRole r).peloton.fenced = n.peloton.fenced := rfl
@[simp] theorem Node.putRole_peloton_shardMap (n : Node) (r : ShardRole) : (n.putRole r).peloton.shardMap = r :: n.peloton.shardMap.filter fun x => x.id != r.id := rfl
@[simp] theorem Node.putRole_peloton_copies (n : Node) (r : ShardRole) : (n.putRole r).peloton.copies = n.peloton.copies := rfl
@[simp] theorem Node.putRole_peloton_repls (n : Node) (r : ShardRole) : (n.putRole r).peloton.repls = n.peloton.repls := rfl
@[simp] theorem Node.putRole_peloton_drains (n : Node) (r : ShardRole) : (n.putRole r).peloton.drains = n.peloton.drains := rfl
@[simp] theorem Node.putRole_peloton_round (n : Node) (r : ShardRole) : (n.putRole r).peloton.round = n.peloton.round := rfl
@[simp] theorem Node.putRole_peloton_p50 (n : Node) (r : ShardRole) : (n.putRole r).peloton.p50 = n.peloton.p50 := rfl
@[simp] theorem Node.putRole_peloton_reports (n : Node) (r : ShardRole) : (n.putRole r).peloton.reports = n.peloton.reports := rfl
@[simp] theorem Node.putRole_peloton_slow (n : Node) (r : ShardRole) : (n.putRole r).peloton.slow = n.peloton.slow := rfl
@[simp] theorem Node.putRole_peloton_swapOut (n : Node) (r : ShardRole) : (n.putRole r).peloton.swapOut = n.peloton.swapOut := rfl
@[simp] theorem Node.putRole_peloton_reported (n : Node) (r : ShardRole) : (n.putRole r).peloton.reported = n.peloton.reported := rfl
@[simp] theorem Node.putRole_peloton_latency (n : Node) (r : ShardRole) : (n.putRole r).peloton.latency = n.peloton.latency := rfl
@[simp] theorem Node.putRole_regs (n : Node) (r : ShardRole) : (n.putRole r).regs = n.regs := rfl
@[simp] theorem Node.putRole_out (n : Node) (r : ShardRole) : (n.putRole r).out = n.out := rfl
@[simp] theorem Node.putRole_clk (n : Node) (r : ShardRole) : (n.putRole r).clk = n.clk := rfl
@[simp] theorem Node.putRole_freeCtr (n : Node) (r : ShardRole) : (n.putRole r).freeCtr = n.freeCtr := rfl
@[simp] theorem Node.putRole_nextId (n : Node) (r : ShardRole) : (n.putRole r).nextId = n.nextId := rfl
@[simp] theorem Node.putRole_thread' (n : Node) (r : ShardRole) (j : Nat) : (n.putRole r).thread j = n.thread j := rfl
@[simp] theorem Node.putRole_ctx' (n : Node) (r : ShardRole) (j : Nat) : (n.putRole r).ctx j = n.ctx j := rfl
@[simp] theorem Node.putRole_acc' (n : Node) (r : ShardRole) (j : Nat) : (n.putRole r).acc j = n.acc j := rfl
@[simp] theorem Node.putRole_reg' (n : Node) (r : ShardRole) (m : RegName) (j : Nat) : (n.putRole r).reg m j = n.reg m j := rfl
@[simp] theorem Node.putRole_queue' (n : Node) (r : ShardRole) (j : Nat) : (n.putRole r).queue j = n.queue j := rfl
@[simp] theorem Node.putRole_qcfg' (n : Node) (r : ShardRole) (j : Nat) : (n.putRole r).qcfg j = n.qcfg j := rfl
@[simp] theorem Node.putRole_sync' (n : Node) (r : ShardRole) (j : Nat) : (n.putRole r).sync j = n.sync j := rfl
@[simp] theorem Node.putRole_client' (n : Node) (r : ShardRole) (j : Nat) : (n.putRole r).client j = n.client j := rfl
@[simp] theorem Node.putRole_cliId' (n : Node) (r : ShardRole) (j : Nat) : (n.putRole r).cliId j = n.cliId j := rfl
@[simp] theorem Node.putRole_slot' (n : Node) (r : ShardRole) (j : Nat) : (n.putRole r).slot j = n.slot j := rfl
@[simp] theorem Node.putRole_tile' (n : Node) (r : ShardRole) (j : Nat) : (n.putRole r).tile j = n.tile j := rfl
@[simp] theorem Node.putRole_port' (n : Node) (r : ShardRole) (j : Nat) : (n.putRole r).port j = n.port j := rfl
@[simp] theorem Node.putRole_job' (n : Node) (r : ShardRole) (j : Nat) : (n.putRole r).job j = n.job j := rfl
@[simp] theorem Node.putRole_session' (n : Node) (r : ShardRole) (j : Nat) : (n.putRole r).session j = n.session j := rfl
@[simp] theorem Node.putRole_ten' (n : Node) (r : ShardRole) (j : Nat) : (n.putRole r).ten j = n.ten j := rfl
@[simp] theorem Node.putRole_kslot' (n : Node) (r : ShardRole) (j : Nat) : (n.putRole r).kslot j = n.kslot j := rfl
@[simp] theorem Node.putRole_region' (n : Node) (r : ShardRole) (p g : Nat) : (n.putRole r).region p g = n.region p g := rfl
@[simp] theorem Node.putRole_read' (n : Node) (r : ShardRole) (p c w : Nat) : (n.putRole r).read p c w = n.read p c w := rfl
@[simp] theorem Node.putRole_dataUp' (n : Node) (r : ShardRole) : (n.putRole r).dataUp = n.dataUp := rfl
@[simp] theorem Node.putRole_linksUp' (n : Node) (r : ShardRole) : (n.putRole r).linksUp = n.linksUp := rfl
@[simp] theorem Node.putRole_now' (n : Node) (r : ShardRole) : (n.putRole r).now = n.now := rfl
@[simp] theorem Node.putRole_fixedSlot' (n : Node) (r : ShardRole) : (n.putRole r).fixedSlot = n.fixedSlot := rfl
@[simp] theorem Node.putRole_auditOk' (n : Node) (r : ShardRole) : (n.putRole r).auditOk = n.auditOk := rfl

/-! ### `Node.setPf` -/

@[simp] theorem Node.setPf_fuses (n : Node) (p : PfPhase) : (n.setPf p).fuses = n.fuses := rfl
@[simp] theorem Node.setPf_qspi (n : Node) (p : PfPhase) : (n.setPf p).qspi = n.qspi := rfl
@[simp] theorem Node.setPf_dev (n : Node) (p : PfPhase) : (n.setPf p).dev = n.dev := rfl
@[simp] theorem Node.setPf_mgt_merged (n : Node) (p : PfPhase) : (n.setPf p).mgt.merged = n.mgt.merged := rfl
@[simp] theorem Node.setPf_mgt_causeTile (n : Node) (p : PfPhase) : (n.setPf p).mgt.causeTile = n.mgt.causeTile := rfl
@[simp] theorem Node.setPf_mgt_causeLevel (n : Node) (p : PfPhase) : (n.setPf p).mgt.causeLevel = n.mgt.causeLevel := rfl
@[simp] theorem Node.setPf_mgt_causeSource (n : Node) (p : PfPhase) : (n.setPf p).mgt.causeSource = n.mgt.causeSource := rfl
@[simp] theorem Node.setPf_mgt_resets (n : Node) (p : PfPhase) : (n.setPf p).mgt.resets = n.mgt.resets := rfl
@[simp] theorem Node.setPf_mgt_waitReset (n : Node) (p : PfPhase) : (n.setPf p).mgt.waitReset = n.mgt.waitReset := rfl
@[simp] theorem Node.setPf_mgt_saves (n : Node) (p : PfPhase) : (n.setPf p).mgt.saves = n.mgt.saves := rfl
@[simp] theorem Node.setPf_mgt_saveUs (n : Node) (p : PfPhase) : (n.setPf p).mgt.saveUs = n.mgt.saveUs := rfl
@[simp] theorem Node.setPf_mgt_incomplete (n : Node) (p : PfPhase) : (n.setPf p).mgt.incomplete = n.mgt.incomplete := rfl
@[simp] theorem Node.setPf_mgt_pfActive (n : Node) (p : PfPhase) : (n.setPf p).mgt.pfActive = n.mgt.pfActive := rfl
@[simp] theorem Node.setPf_mgt_pfPhase (n : Node) (p : PfPhase) : (n.setPf p).mgt.pfPhase = p := rfl
@[simp] theorem Node.setPf_mgt_pfSince (n : Node) (p : PfPhase) : (n.setPf p).mgt.pfSince = n.mgt.pfSince := rfl
@[simp] theorem Node.setPf_mgt_thermTripN (n : Node) (p : PfPhase) : (n.setPf p).mgt.thermTripN = n.mgt.thermTripN := rfl
@[simp] theorem Node.setPf_mgt_nodeBusyN (n : Node) (p : PfPhase) : (n.setPf p).mgt.nodeBusyN = n.mgt.nodeBusyN := rfl
@[simp] theorem Node.setPf_mgt_smbAlertN (n : Node) (p : PfPhase) : (n.setPf p).mgt.smbAlertN = n.mgt.smbAlertN := rfl
@[simp] theorem Node.setPf_mgt_timeNs (n : Node) (p : PfPhase) : (n.setPf p).mgt.timeNs = n.mgt.timeNs := rfl
@[simp] theorem Node.setPf_mgt_timeValid (n : Node) (p : PfPhase) : (n.setPf p).mgt.timeValid = n.mgt.timeValid := rfl
@[simp] theorem Node.setPf_mgt_timeHold (n : Node) (p : PfPhase) : (n.setPf p).mgt.timeHold = n.mgt.timeHold := rfl
@[simp] theorem Node.setPf_mgt_localSeq (n : Node) (p : PfPhase) : (n.setPf p).mgt.localSeq = n.mgt.localSeq := rfl
@[simp] theorem Node.setPf_power (n : Node) (p : PfPhase) : (n.setPf p).power = n.power := rfl
@[simp] theorem Node.setPf_mbox (n : Node) (p : PfPhase) : (n.setPf p).mbox = n.mbox := rfl
@[simp] theorem Node.setPf_log (n : Node) (p : PfPhase) : (n.setPf p).log = n.log := rfl
@[simp] theorem Node.setPf_snap (n : Node) (p : PfPhase) : (n.setPf p).snap = n.snap := rfl
@[simp] theorem Node.setPf_sec (n : Node) (p : PfPhase) : (n.setPf p).sec = n.sec := rfl
@[simp] theorem Node.setPf_hif (n : Node) (p : PfPhase) : (n.setPf p).hif = n.hif := rfl
@[simp] theorem Node.setPf_qsy (n : Node) (p : PfPhase) : (n.setPf p).qsy = n.qsy := rfl
@[simp] theorem Node.setPf_adm (n : Node) (p : PfPhase) : (n.setPf p).adm = n.adm := rfl
@[simp] theorem Node.setPf_index (n : Node) (p : PfPhase) : (n.setPf p).index = n.index := rfl
@[simp] theorem Node.setPf_spokes (n : Node) (p : PfPhase) : (n.setPf p).spokes = n.spokes := rfl
@[simp] theorem Node.setPf_sel (n : Node) (p : PfPhase) : (n.setPf p).sel = n.sel := rfl
@[simp] theorem Node.setPf_cas (n : Node) (p : PfPhase) : (n.setPf p).cas = n.cas := rfl
@[simp] theorem Node.setPf_store (n : Node) (p : PfPhase) : (n.setPf p).store = n.store := rfl
@[simp] theorem Node.setPf_mem (n : Node) (p : PfPhase) : (n.setPf p).mem = n.mem := rfl
@[simp] theorem Node.setPf_flash (n : Node) (p : PfPhase) : (n.setPf p).flash = n.flash := rfl
@[simp] theorem Node.setPf_links (n : Node) (p : PfPhase) : (n.setPf p).links = n.links := rfl
@[simp] theorem Node.setPf_fabric (n : Node) (p : PfPhase) : (n.setPf p).fabric = n.fabric := rfl
@[simp] theorem Node.setPf_peloton (n : Node) (p : PfPhase) : (n.setPf p).peloton = n.peloton := rfl
@[simp] theorem Node.setPf_regs (n : Node) (p : PfPhase) : (n.setPf p).regs = n.regs := rfl
@[simp] theorem Node.setPf_out (n : Node) (p : PfPhase) : (n.setPf p).out = n.out := rfl
@[simp] theorem Node.setPf_clk (n : Node) (p : PfPhase) : (n.setPf p).clk = n.clk := rfl
@[simp] theorem Node.setPf_freeCtr (n : Node) (p : PfPhase) : (n.setPf p).freeCtr = n.freeCtr := rfl
@[simp] theorem Node.setPf_nextId (n : Node) (p : PfPhase) : (n.setPf p).nextId = n.nextId := rfl
@[simp] theorem Node.setPf_thread' (n : Node) (p : PfPhase) (j : Nat) : (n.setPf p).thread j = n.thread j := rfl
@[simp] theorem Node.setPf_ctx' (n : Node) (p : PfPhase) (j : Nat) : (n.setPf p).ctx j = n.ctx j := rfl
@[simp] theorem Node.setPf_acc' (n : Node) (p : PfPhase) (j : Nat) : (n.setPf p).acc j = n.acc j := rfl
@[simp] theorem Node.setPf_reg' (n : Node) (p : PfPhase) (m : RegName) (j : Nat) : (n.setPf p).reg m j = n.reg m j := rfl
@[simp] theorem Node.setPf_queue' (n : Node) (p : PfPhase) (j : Nat) : (n.setPf p).queue j = n.queue j := rfl
@[simp] theorem Node.setPf_qcfg' (n : Node) (p : PfPhase) (j : Nat) : (n.setPf p).qcfg j = n.qcfg j := rfl
@[simp] theorem Node.setPf_sync' (n : Node) (p : PfPhase) (j : Nat) : (n.setPf p).sync j = n.sync j := rfl
@[simp] theorem Node.setPf_client' (n : Node) (p : PfPhase) (j : Nat) : (n.setPf p).client j = n.client j := rfl
@[simp] theorem Node.setPf_cliId' (n : Node) (p : PfPhase) (j : Nat) : (n.setPf p).cliId j = n.cliId j := rfl
@[simp] theorem Node.setPf_slot' (n : Node) (p : PfPhase) (j : Nat) : (n.setPf p).slot j = n.slot j := rfl
@[simp] theorem Node.setPf_tile' (n : Node) (p : PfPhase) (j : Nat) : (n.setPf p).tile j = n.tile j := rfl
@[simp] theorem Node.setPf_port' (n : Node) (p : PfPhase) (j : Nat) : (n.setPf p).port j = n.port j := rfl
@[simp] theorem Node.setPf_job' (n : Node) (p : PfPhase) (j : Nat) : (n.setPf p).job j = n.job j := rfl
@[simp] theorem Node.setPf_session' (n : Node) (p : PfPhase) (j : Nat) : (n.setPf p).session j = n.session j := rfl
@[simp] theorem Node.setPf_ten' (n : Node) (p : PfPhase) (j : Nat) : (n.setPf p).ten j = n.ten j := rfl
@[simp] theorem Node.setPf_kslot' (n : Node) (p : PfPhase) (j : Nat) : (n.setPf p).kslot j = n.kslot j := rfl
@[simp] theorem Node.setPf_linksUp' (n : Node) (p : PfPhase) : (n.setPf p).linksUp = n.linksUp := rfl
@[simp] theorem Node.setPf_now' (n : Node) (p : PfPhase) : (n.setPf p).now = n.now := rfl
@[simp] theorem Node.setPf_fixedSlot' (n : Node) (p : PfPhase) : (n.setPf p).fixedSlot = n.fixedSlot := rfl
@[simp] theorem Node.setPf_auditOk' (n : Node) (p : PfPhase) : (n.setPf p).auditOk = n.auditOk := rfl

/-! ### `Node.emit` -/

@[simp] theorem Node.emit_fuses (n : Node) (o : Out) : (n.emit o).fuses = n.fuses := rfl
@[simp] theorem Node.emit_qspi (n : Node) (o : Out) : (n.emit o).qspi = n.qspi := rfl
@[simp] theorem Node.emit_dev (n : Node) (o : Out) : (n.emit o).dev = n.dev := rfl
@[simp] theorem Node.emit_mgt (n : Node) (o : Out) : (n.emit o).mgt = n.mgt := rfl
@[simp] theorem Node.emit_power (n : Node) (o : Out) : (n.emit o).power = n.power := rfl
@[simp] theorem Node.emit_mbox (n : Node) (o : Out) : (n.emit o).mbox = n.mbox := rfl
@[simp] theorem Node.emit_log (n : Node) (o : Out) : (n.emit o).log = n.log := rfl
@[simp] theorem Node.emit_snap (n : Node) (o : Out) : (n.emit o).snap = n.snap := rfl
@[simp] theorem Node.emit_sec (n : Node) (o : Out) : (n.emit o).sec = n.sec := rfl
@[simp] theorem Node.emit_hif (n : Node) (o : Out) : (n.emit o).hif = n.hif := rfl
@[simp] theorem Node.emit_qsy (n : Node) (o : Out) : (n.emit o).qsy = n.qsy := rfl
@[simp] theorem Node.emit_adm (n : Node) (o : Out) : (n.emit o).adm = n.adm := rfl
@[simp] theorem Node.emit_index (n : Node) (o : Out) : (n.emit o).index = n.index := rfl
@[simp] theorem Node.emit_spokes (n : Node) (o : Out) : (n.emit o).spokes = n.spokes := rfl
@[simp] theorem Node.emit_sel (n : Node) (o : Out) : (n.emit o).sel = n.sel := rfl
@[simp] theorem Node.emit_cas (n : Node) (o : Out) : (n.emit o).cas = n.cas := rfl
@[simp] theorem Node.emit_store (n : Node) (o : Out) : (n.emit o).store = n.store := rfl
@[simp] theorem Node.emit_mem (n : Node) (o : Out) : (n.emit o).mem = n.mem := rfl
@[simp] theorem Node.emit_flash (n : Node) (o : Out) : (n.emit o).flash = n.flash := rfl
@[simp] theorem Node.emit_links (n : Node) (o : Out) : (n.emit o).links = n.links := rfl
@[simp] theorem Node.emit_fabric (n : Node) (o : Out) : (n.emit o).fabric = n.fabric := rfl
@[simp] theorem Node.emit_peloton (n : Node) (o : Out) : (n.emit o).peloton = n.peloton := rfl
@[simp] theorem Node.emit_regs (n : Node) (o : Out) : (n.emit o).regs = n.regs := rfl
@[simp] theorem Node.emit_out (n : Node) (o : Out) : (n.emit o).out = o :: n.out := rfl
@[simp] theorem Node.emit_clk (n : Node) (o : Out) : (n.emit o).clk = n.clk := rfl
@[simp] theorem Node.emit_freeCtr (n : Node) (o : Out) : (n.emit o).freeCtr = n.freeCtr := rfl
@[simp] theorem Node.emit_nextId (n : Node) (o : Out) : (n.emit o).nextId = n.nextId := rfl
@[simp] theorem Node.emit_thread' (n : Node) (o : Out) (j : Nat) : (n.emit o).thread j = n.thread j := rfl
@[simp] theorem Node.emit_ctx' (n : Node) (o : Out) (j : Nat) : (n.emit o).ctx j = n.ctx j := rfl
@[simp] theorem Node.emit_acc' (n : Node) (o : Out) (j : Nat) : (n.emit o).acc j = n.acc j := rfl
@[simp] theorem Node.emit_reg' (n : Node) (o : Out) (m : RegName) (j : Nat) : (n.emit o).reg m j = n.reg m j := rfl
@[simp] theorem Node.emit_queue' (n : Node) (o : Out) (j : Nat) : (n.emit o).queue j = n.queue j := rfl
@[simp] theorem Node.emit_qcfg' (n : Node) (o : Out) (j : Nat) : (n.emit o).qcfg j = n.qcfg j := rfl
@[simp] theorem Node.emit_sync' (n : Node) (o : Out) (j : Nat) : (n.emit o).sync j = n.sync j := rfl
@[simp] theorem Node.emit_client' (n : Node) (o : Out) (j : Nat) : (n.emit o).client j = n.client j := rfl
@[simp] theorem Node.emit_cliId' (n : Node) (o : Out) (j : Nat) : (n.emit o).cliId j = n.cliId j := rfl
@[simp] theorem Node.emit_slot' (n : Node) (o : Out) (j : Nat) : (n.emit o).slot j = n.slot j := rfl
@[simp] theorem Node.emit_tile' (n : Node) (o : Out) (j : Nat) : (n.emit o).tile j = n.tile j := rfl
@[simp] theorem Node.emit_port' (n : Node) (o : Out) (j : Nat) : (n.emit o).port j = n.port j := rfl
@[simp] theorem Node.emit_job' (n : Node) (o : Out) (j : Nat) : (n.emit o).job j = n.job j := rfl
@[simp] theorem Node.emit_session' (n : Node) (o : Out) (j : Nat) : (n.emit o).session j = n.session j := rfl
@[simp] theorem Node.emit_ten' (n : Node) (o : Out) (j : Nat) : (n.emit o).ten j = n.ten j := rfl
@[simp] theorem Node.emit_kslot' (n : Node) (o : Out) (j : Nat) : (n.emit o).kslot j = n.kslot j := rfl
@[simp] theorem Node.emit_region' (n : Node) (o : Out) (p g : Nat) : (n.emit o).region p g = n.region p g := rfl
@[simp] theorem Node.emit_read' (n : Node) (o : Out) (p c w : Nat) : (n.emit o).read p c w = n.read p c w := rfl
@[simp] theorem Node.emit_dataUp' (n : Node) (o : Out) : (n.emit o).dataUp = n.dataUp := rfl
@[simp] theorem Node.emit_linksUp' (n : Node) (o : Out) : (n.emit o).linksUp = n.linksUp := rfl
@[simp] theorem Node.emit_now' (n : Node) (o : Out) : (n.emit o).now = n.now := rfl
@[simp] theorem Node.emit_fixedSlot' (n : Node) (o : Out) : (n.emit o).fixedSlot = n.fixedSlot := rfl
@[simp] theorem Node.emit_auditOk' (n : Node) (o : Out) : (n.emit o).auditOk = n.auditOk := rfl

/-! ### `Node.free` -/

@[simp] theorem Node.free_fuses (n : Node) : (n.free.2).fuses = n.fuses := rfl
@[simp] theorem Node.free_qspi (n : Node) : (n.free.2).qspi = n.qspi := rfl
@[simp] theorem Node.free_dev (n : Node) : (n.free.2).dev = n.dev := rfl
@[simp] theorem Node.free_mgt (n : Node) : (n.free.2).mgt = n.mgt := rfl
@[simp] theorem Node.free_power (n : Node) : (n.free.2).power = n.power := rfl
@[simp] theorem Node.free_mbox (n : Node) : (n.free.2).mbox = n.mbox := rfl
@[simp] theorem Node.free_log (n : Node) : (n.free.2).log = n.log := rfl
@[simp] theorem Node.free_snap (n : Node) : (n.free.2).snap = n.snap := rfl
@[simp] theorem Node.free_sec (n : Node) : (n.free.2).sec = n.sec := rfl
@[simp] theorem Node.free_hif (n : Node) : (n.free.2).hif = n.hif := rfl
@[simp] theorem Node.free_qsy (n : Node) : (n.free.2).qsy = n.qsy := rfl
@[simp] theorem Node.free_adm (n : Node) : (n.free.2).adm = n.adm := rfl
@[simp] theorem Node.free_index (n : Node) : (n.free.2).index = n.index := rfl
@[simp] theorem Node.free_spokes (n : Node) : (n.free.2).spokes = n.spokes := rfl
@[simp] theorem Node.free_sel (n : Node) : (n.free.2).sel = n.sel := rfl
@[simp] theorem Node.free_cas (n : Node) : (n.free.2).cas = n.cas := rfl
@[simp] theorem Node.free_store (n : Node) : (n.free.2).store = n.store := rfl
@[simp] theorem Node.free_mem (n : Node) : (n.free.2).mem = n.mem := rfl
@[simp] theorem Node.free_flash (n : Node) : (n.free.2).flash = n.flash := rfl
@[simp] theorem Node.free_links (n : Node) : (n.free.2).links = n.links := rfl
@[simp] theorem Node.free_fabric (n : Node) : (n.free.2).fabric = n.fabric := rfl
@[simp] theorem Node.free_peloton (n : Node) : (n.free.2).peloton = n.peloton := rfl
@[simp] theorem Node.free_regs (n : Node) : (n.free.2).regs = n.regs := rfl
@[simp] theorem Node.free_out (n : Node) : (n.free.2).out = n.out := rfl
@[simp] theorem Node.free_clk (n : Node) : (n.free.2).clk = n.clk := rfl
@[simp] theorem Node.free_freeCtr (n : Node) : (n.free.2).freeCtr = n.freeCtr + 1 := rfl
@[simp] theorem Node.free_nextId (n : Node) : (n.free.2).nextId = n.nextId := rfl
@[simp] theorem Node.free_thread' (n : Node) (j : Nat) : (n.free.2).thread j = n.thread j := rfl
@[simp] theorem Node.free_ctx' (n : Node) (j : Nat) : (n.free.2).ctx j = n.ctx j := rfl
@[simp] theorem Node.free_acc' (n : Node) (j : Nat) : (n.free.2).acc j = n.acc j := rfl
@[simp] theorem Node.free_reg' (n : Node) (m : RegName) (j : Nat) : (n.free.2).reg m j = n.reg m j := rfl
@[simp] theorem Node.free_queue' (n : Node) (j : Nat) : (n.free.2).queue j = n.queue j := rfl
@[simp] theorem Node.free_qcfg' (n : Node) (j : Nat) : (n.free.2).qcfg j = n.qcfg j := rfl
@[simp] theorem Node.free_sync' (n : Node) (j : Nat) : (n.free.2).sync j = n.sync j := rfl
@[simp] theorem Node.free_client' (n : Node) (j : Nat) : (n.free.2).client j = n.client j := rfl
@[simp] theorem Node.free_cliId' (n : Node) (j : Nat) : (n.free.2).cliId j = n.cliId j := rfl
@[simp] theorem Node.free_slot' (n : Node) (j : Nat) : (n.free.2).slot j = n.slot j := rfl
@[simp] theorem Node.free_tile' (n : Node) (j : Nat) : (n.free.2).tile j = n.tile j := rfl
@[simp] theorem Node.free_port' (n : Node) (j : Nat) : (n.free.2).port j = n.port j := rfl
@[simp] theorem Node.free_job' (n : Node) (j : Nat) : (n.free.2).job j = n.job j := rfl
@[simp] theorem Node.free_session' (n : Node) (j : Nat) : (n.free.2).session j = n.session j := rfl
@[simp] theorem Node.free_ten' (n : Node) (j : Nat) : (n.free.2).ten j = n.ten j := rfl
@[simp] theorem Node.free_kslot' (n : Node) (j : Nat) : (n.free.2).kslot j = n.kslot j := rfl
@[simp] theorem Node.free_region' (n : Node) (p g : Nat) : (n.free.2).region p g = n.region p g := rfl
@[simp] theorem Node.free_read' (n : Node) (p c w : Nat) : (n.free.2).read p c w = n.read p c w := rfl
@[simp] theorem Node.free_dataUp' (n : Node) : (n.free.2).dataUp = n.dataUp := rfl
@[simp] theorem Node.free_linksUp' (n : Node) : (n.free.2).linksUp = n.linksUp := rfl
@[simp] theorem Node.free_now' (n : Node) : (n.free.2).now = n.now := rfl
@[simp] theorem Node.free_fixedSlot' (n : Node) : (n.free.2).fixedSlot = n.fixedSlot := rfl
@[simp] theorem Node.free_auditOk' (n : Node) : (n.free.2).auditOk = n.auditOk := rfl

/-! ### `Node.fresh` -/

@[simp] theorem Node.fresh_fuses (n : Node) : (n.fresh.2).fuses = n.fuses := rfl
@[simp] theorem Node.fresh_qspi (n : Node) : (n.fresh.2).qspi = n.qspi := rfl
@[simp] theorem Node.fresh_dev (n : Node) : (n.fresh.2).dev = n.dev := rfl
@[simp] theorem Node.fresh_mgt (n : Node) : (n.fresh.2).mgt = n.mgt := rfl
@[simp] theorem Node.fresh_power (n : Node) : (n.fresh.2).power = n.power := rfl
@[simp] theorem Node.fresh_mbox (n : Node) : (n.fresh.2).mbox = n.mbox := rfl
@[simp] theorem Node.fresh_log (n : Node) : (n.fresh.2).log = n.log := rfl
@[simp] theorem Node.fresh_snap (n : Node) : (n.fresh.2).snap = n.snap := rfl
@[simp] theorem Node.fresh_sec (n : Node) : (n.fresh.2).sec = n.sec := rfl
@[simp] theorem Node.fresh_hif (n : Node) : (n.fresh.2).hif = n.hif := rfl
@[simp] theorem Node.fresh_qsy (n : Node) : (n.fresh.2).qsy = n.qsy := rfl
@[simp] theorem Node.fresh_adm (n : Node) : (n.fresh.2).adm = n.adm := rfl
@[simp] theorem Node.fresh_index (n : Node) : (n.fresh.2).index = n.index := rfl
@[simp] theorem Node.fresh_spokes (n : Node) : (n.fresh.2).spokes = n.spokes := rfl
@[simp] theorem Node.fresh_sel (n : Node) : (n.fresh.2).sel = n.sel := rfl
@[simp] theorem Node.fresh_cas (n : Node) : (n.fresh.2).cas = n.cas := rfl
@[simp] theorem Node.fresh_store (n : Node) : (n.fresh.2).store = n.store := rfl
@[simp] theorem Node.fresh_mem (n : Node) : (n.fresh.2).mem = n.mem := rfl
@[simp] theorem Node.fresh_flash (n : Node) : (n.fresh.2).flash = n.flash := rfl
@[simp] theorem Node.fresh_links (n : Node) : (n.fresh.2).links = n.links := rfl
@[simp] theorem Node.fresh_fabric (n : Node) : (n.fresh.2).fabric = n.fabric := rfl
@[simp] theorem Node.fresh_peloton (n : Node) : (n.fresh.2).peloton = n.peloton := rfl
@[simp] theorem Node.fresh_regs (n : Node) : (n.fresh.2).regs = n.regs := rfl
@[simp] theorem Node.fresh_out (n : Node) : (n.fresh.2).out = n.out := rfl
@[simp] theorem Node.fresh_clk (n : Node) : (n.fresh.2).clk = n.clk := rfl
@[simp] theorem Node.fresh_freeCtr (n : Node) : (n.fresh.2).freeCtr = n.freeCtr := rfl
@[simp] theorem Node.fresh_nextId (n : Node) : (n.fresh.2).nextId = n.nextId + 1 := rfl
@[simp] theorem Node.fresh_thread' (n : Node) (j : Nat) : (n.fresh.2).thread j = n.thread j := rfl
@[simp] theorem Node.fresh_ctx' (n : Node) (j : Nat) : (n.fresh.2).ctx j = n.ctx j := rfl
@[simp] theorem Node.fresh_acc' (n : Node) (j : Nat) : (n.fresh.2).acc j = n.acc j := rfl
@[simp] theorem Node.fresh_reg' (n : Node) (m : RegName) (j : Nat) : (n.fresh.2).reg m j = n.reg m j := rfl
@[simp] theorem Node.fresh_queue' (n : Node) (j : Nat) : (n.fresh.2).queue j = n.queue j := rfl
@[simp] theorem Node.fresh_qcfg' (n : Node) (j : Nat) : (n.fresh.2).qcfg j = n.qcfg j := rfl
@[simp] theorem Node.fresh_sync' (n : Node) (j : Nat) : (n.fresh.2).sync j = n.sync j := rfl
@[simp] theorem Node.fresh_client' (n : Node) (j : Nat) : (n.fresh.2).client j = n.client j := rfl
@[simp] theorem Node.fresh_cliId' (n : Node) (j : Nat) : (n.fresh.2).cliId j = n.cliId j := rfl
@[simp] theorem Node.fresh_slot' (n : Node) (j : Nat) : (n.fresh.2).slot j = n.slot j := rfl
@[simp] theorem Node.fresh_tile' (n : Node) (j : Nat) : (n.fresh.2).tile j = n.tile j := rfl
@[simp] theorem Node.fresh_port' (n : Node) (j : Nat) : (n.fresh.2).port j = n.port j := rfl
@[simp] theorem Node.fresh_job' (n : Node) (j : Nat) : (n.fresh.2).job j = n.job j := rfl
@[simp] theorem Node.fresh_session' (n : Node) (j : Nat) : (n.fresh.2).session j = n.session j := rfl
@[simp] theorem Node.fresh_ten' (n : Node) (j : Nat) : (n.fresh.2).ten j = n.ten j := rfl
@[simp] theorem Node.fresh_kslot' (n : Node) (j : Nat) : (n.fresh.2).kslot j = n.kslot j := rfl
@[simp] theorem Node.fresh_region' (n : Node) (p g : Nat) : (n.fresh.2).region p g = n.region p g := rfl
@[simp] theorem Node.fresh_read' (n : Node) (p c w : Nat) : (n.fresh.2).read p c w = n.read p c w := rfl
@[simp] theorem Node.fresh_dataUp' (n : Node) : (n.fresh.2).dataUp = n.dataUp := rfl
@[simp] theorem Node.fresh_linksUp' (n : Node) : (n.fresh.2).linksUp = n.linksUp := rfl
@[simp] theorem Node.fresh_now' (n : Node) : (n.fresh.2).now = n.now := rfl
@[simp] theorem Node.fresh_fixedSlot' (n : Node) : (n.fresh.2).fixedSlot = n.fixedSlot := rfl
@[simp] theorem Node.fresh_auditOk' (n : Node) : (n.fresh.2).auditOk = n.auditOk := rfl

/-! ### What a setter wrote reads back -/

@[simp] theorem Node.setThread_thread (n : Node) (k : Nat) (t : Thread) (j : Nat) : (n.setThread k t).thread j = if j = k then some t else n.thread j := by
  simp [Node.setThread, Node.thread, KList.find?_put]
@[simp] theorem Node.setCtx_ctx (n : Node) (k : Nat) (t : Ctx) (j : Nat) : (n.setCtx k t).ctx j = if j = k then some t else n.ctx j := by
  simp [Node.setCtx, Node.ctx, KList.find?_put]
@[simp] theorem Node.setQueue_queue (n : Node) (k : Nat) (t : Queue) (j : Nat) : (n.setQueue k t).queue j = if j = k then t else n.queue j := by
  simp [Node.setQueue, Node.queue, KList.getD_put]
@[simp] theorem Node.setSync_sync (n : Node) (k : Nat) (t : Sync) (j : Nat) : (n.setSync k t).sync j = if j = k then some t else n.sync j := by
  simp [Node.setSync, Node.sync, KList.find?_put]
@[simp] theorem Node.setClient_client (n : Node) (k : Nat) (t : Client) (j : Nat) : (n.setClient k t).client j = if j = k then t else n.client j := by
  simp [Node.setClient, Node.client, KList.getD_put]
@[simp] theorem Node.setSlot_slot (n : Node) (k : Nat) (t : Slot) (j : Nat) : (n.setSlot k t).slot j = if j = k then t else n.slot j := by
  simp [Node.setSlot, Node.slot, KList.getD_put]
@[simp] theorem Node.setTile_tile (n : Node) (k : Nat) (t : Cassette) (j : Nat) : (n.setTile k t).tile j = if j = k then t else n.tile j := by
  simp [Node.setTile, Node.tile, KList.getD_put]
@[simp] theorem Node.setPort_port (n : Node) (k : Nat) (t : Port) (j : Nat) : (n.setPort k t).port j = if j = k then t else n.port j := by
  simp [Node.setPort, Node.port, KList.getD_put]
@[simp] theorem Node.setJob_job (n : Node) (k : Nat) (t : Job) (j : Nat) : (n.setJob k t).job j = if j = k then some t else n.job j := by
  simp [Node.setJob, Node.job, KList.find?_put]
@[simp] theorem Node.setSession_session (n : Node) (k : Nat) (t : Session) (j : Nat) : (n.setSession k t).session j = if j = k then some t else n.session j := by
  simp [Node.setSession, Node.session, KList.find?_put]
@[simp] theorem Node.setTen_ten (n : Node) (k : Nat) (t : TenCfg) (j : Nat) : (n.setTen k t).ten j = if j = k then t else n.ten j := by
  simp [Node.setTen, Node.ten, KList.getD_put]
@[simp] theorem Node.setKslot_kslot (n : Node) (k : Nat) (t : KeySlot) (j : Nat) : (n.setKslot k t).kslot j = if j = k then t else n.kslot j := by
  simp [Node.setKslot, Node.kslot, KList.getD_put]

/-! ### `Thread` -/

@[simp] theorem Thread.step_ctx (t : Thread) : t.step.ctx = t.ctx := rfl
@[simp] theorem Thread.step_member (t : Thread) : t.step.member = t.member := rfl
@[simp] theorem Thread.step_lo (t : Thread) : t.step.lo = t.lo := rfl
@[simp] theorem Thread.step_hi (t : Thread) : t.step.hi = t.hi := rfl
@[simp] theorem Thread.step_lsize (t : Thread) : t.step.lsize = t.lsize := rfl
@[simp] theorem Thread.step_pc (t : Thread) : t.step.pc = t.nextPc := rfl
@[simp] theorem Thread.step_s (t : Thread) : t.step.s = t.s := rfl
@[simp] theorem Thread.step_v (t : Thread) : t.step.v = t.v := rfl
@[simp] theorem Thread.step_k (t : Thread) : t.step.k = t.k := rfl
@[simp] theorem Thread.step_h (t : Thread) : t.step.h = t.h := rfl
@[simp] theorem Thread.step_sPoison (t : Thread) : t.step.sPoison = t.sPoison := rfl
@[simp] theorem Thread.step_vPoison (t : Thread) : t.step.vPoison = t.vPoison := rfl
@[simp] theorem Thread.step_lstat (t : Thread) : t.step.lstat = t.lstat := rfl
@[simp] theorem Thread.step_job (t : Thread) : t.step.job = t.job := rfl
@[simp] theorem Thread.step_boundAt (t : Thread) : t.step.boundAt = t.boundAt := rfl
@[simp] theorem Thread.step_sram (t : Thread) : t.step.sram = t.sram := rfl
@[simp] theorem Thread.step_filterAt (t : Thread) : t.step.filterAt = t.filterAt := rfl
@[simp] theorem Thread.step_wait (t : Thread) : t.step.wait = t.wait := rfl
@[simp] theorem Thread.step_waitRd (t : Thread) : t.step.waitRd = t.waitRd := rfl
@[simp] theorem Thread.step_captures (t : Thread) : t.step.captures = t.captures := rfl
@[simp] theorem Thread.step_lutHigh (t : Thread) : t.step.lutHigh = t.lutHigh := rfl
@[simp] theorem Thread.localWrite_ctx (t : Thread) (a : Nat) (b : Bytes) : (t.localWrite a b).ctx = t.ctx := rfl
@[simp] theorem Thread.localWrite_member (t : Thread) (a : Nat) (b : Bytes) : (t.localWrite a b).member = t.member := rfl
@[simp] theorem Thread.localWrite_lo (t : Thread) (a : Nat) (b : Bytes) : (t.localWrite a b).lo = t.lo := rfl
@[simp] theorem Thread.localWrite_hi (t : Thread) (a : Nat) (b : Bytes) : (t.localWrite a b).hi = t.hi := rfl
@[simp] theorem Thread.localWrite_lsize (t : Thread) (a : Nat) (b : Bytes) : (t.localWrite a b).lsize = t.lsize := rfl
@[simp] theorem Thread.localWrite_pc (t : Thread) (a : Nat) (b : Bytes) : (t.localWrite a b).pc = t.pc := rfl
@[simp] theorem Thread.localWrite_s (t : Thread) (a : Nat) (b : Bytes) : (t.localWrite a b).s = t.s := rfl
@[simp] theorem Thread.localWrite_v (t : Thread) (a : Nat) (b : Bytes) : (t.localWrite a b).v = t.v := rfl
@[simp] theorem Thread.localWrite_k (t : Thread) (a : Nat) (b : Bytes) : (t.localWrite a b).k = t.k := rfl
@[simp] theorem Thread.localWrite_h (t : Thread) (a : Nat) (b : Bytes) : (t.localWrite a b).h = t.h := rfl
@[simp] theorem Thread.localWrite_sPoison (t : Thread) (a : Nat) (b : Bytes) : (t.localWrite a b).sPoison = t.sPoison := rfl
@[simp] theorem Thread.localWrite_vPoison (t : Thread) (a : Nat) (b : Bytes) : (t.localWrite a b).vPoison = t.vPoison := rfl
@[simp] theorem Thread.localWrite_lstat (t : Thread) (a : Nat) (b : Bytes) : (t.localWrite a b).lstat = t.lstat := rfl
@[simp] theorem Thread.localWrite_job (t : Thread) (a : Nat) (b : Bytes) : (t.localWrite a b).job = t.job := rfl
@[simp] theorem Thread.localWrite_boundAt (t : Thread) (a : Nat) (b : Bytes) : (t.localWrite a b).boundAt = t.boundAt := rfl
@[simp] theorem Thread.localWrite_wait (t : Thread) (a : Nat) (b : Bytes) : (t.localWrite a b).wait = t.wait := rfl
@[simp] theorem Thread.localWrite_waitRd (t : Thread) (a : Nat) (b : Bytes) : (t.localWrite a b).waitRd = t.waitRd := rfl
@[simp] theorem Thread.localWrite_captures (t : Thread) (a : Nat) (b : Bytes) : (t.localWrite a b).captures = t.captures := rfl
@[simp] theorem Thread.localWrite_lutHigh (t : Thread) (a : Nat) (b : Bytes) : (t.localWrite a b).lutHigh = t.lutHigh := rfl
@[simp] theorem Thread.localWrite_sram (t : Thread) (a : Nat) (b : Bytes) : (t.localWrite a b).sram = cellWrite t.sram a b := rfl
@[simp] theorem Thread.setV_ctx (t : Thread) (d : Nat) (v : V512) (p : Bool) : (t.setV d v p).ctx = t.ctx := rfl
@[simp] theorem Thread.setV_member (t : Thread) (d : Nat) (v : V512) (p : Bool) : (t.setV d v p).member = t.member := rfl
@[simp] theorem Thread.setV_lo (t : Thread) (d : Nat) (v : V512) (p : Bool) : (t.setV d v p).lo = t.lo := rfl
@[simp] theorem Thread.setV_hi (t : Thread) (d : Nat) (v : V512) (p : Bool) : (t.setV d v p).hi = t.hi := rfl
@[simp] theorem Thread.setV_lsize (t : Thread) (d : Nat) (v : V512) (p : Bool) : (t.setV d v p).lsize = t.lsize := rfl
@[simp] theorem Thread.setV_pc (t : Thread) (d : Nat) (v : V512) (p : Bool) : (t.setV d v p).pc = t.pc := rfl
@[simp] theorem Thread.setV_s (t : Thread) (d : Nat) (v : V512) (p : Bool) : (t.setV d v p).s = t.s := rfl
@[simp] theorem Thread.setV_k (t : Thread) (d : Nat) (v : V512) (p : Bool) : (t.setV d v p).k = t.k := rfl
@[simp] theorem Thread.setV_h (t : Thread) (d : Nat) (v : V512) (p : Bool) : (t.setV d v p).h = t.h := rfl
@[simp] theorem Thread.setV_sPoison (t : Thread) (d : Nat) (v : V512) (p : Bool) : (t.setV d v p).sPoison = t.sPoison := rfl
@[simp] theorem Thread.setV_lstat (t : Thread) (d : Nat) (v : V512) (p : Bool) : (t.setV d v p).lstat = t.lstat := rfl
@[simp] theorem Thread.setV_job (t : Thread) (d : Nat) (v : V512) (p : Bool) : (t.setV d v p).job = t.job := rfl
@[simp] theorem Thread.setV_boundAt (t : Thread) (d : Nat) (v : V512) (p : Bool) : (t.setV d v p).boundAt = t.boundAt := rfl
@[simp] theorem Thread.setV_sram (t : Thread) (d : Nat) (v : V512) (p : Bool) : (t.setV d v p).sram = t.sram := rfl
@[simp] theorem Thread.setV_filterAt (t : Thread) (d : Nat) (v : V512) (p : Bool) : (t.setV d v p).filterAt = t.filterAt := rfl
@[simp] theorem Thread.setV_wait (t : Thread) (d : Nat) (v : V512) (p : Bool) : (t.setV d v p).wait = t.wait := rfl
@[simp] theorem Thread.setV_waitRd (t : Thread) (d : Nat) (v : V512) (p : Bool) : (t.setV d v p).waitRd = t.waitRd := rfl
@[simp] theorem Thread.setV_captures (t : Thread) (d : Nat) (v : V512) (p : Bool) : (t.setV d v p).captures = t.captures := rfl
@[simp] theorem Thread.setV_lutHigh (t : Thread) (d : Nat) (v : V512) (p : Bool) : (t.setV d v p).lutHigh = t.lutHigh := rfl
@[simp] theorem Thread.setS_ctx (t : Thread) (d : Nat) (v : W64) (p : Bool) : (t.setS d v p).ctx = t.ctx := by
  unfold Thread.setS; split <;> rfl
@[simp] theorem Thread.setS_member (t : Thread) (d : Nat) (v : W64) (p : Bool) : (t.setS d v p).member = t.member := by
  unfold Thread.setS; split <;> rfl
@[simp] theorem Thread.setS_lo (t : Thread) (d : Nat) (v : W64) (p : Bool) : (t.setS d v p).lo = t.lo := by
  unfold Thread.setS; split <;> rfl
@[simp] theorem Thread.setS_hi (t : Thread) (d : Nat) (v : W64) (p : Bool) : (t.setS d v p).hi = t.hi := by
  unfold Thread.setS; split <;> rfl
@[simp] theorem Thread.setS_lsize (t : Thread) (d : Nat) (v : W64) (p : Bool) : (t.setS d v p).lsize = t.lsize := by
  unfold Thread.setS; split <;> rfl
@[simp] theorem Thread.setS_pc (t : Thread) (d : Nat) (v : W64) (p : Bool) : (t.setS d v p).pc = t.pc := by
  unfold Thread.setS; split <;> rfl
@[simp] theorem Thread.setS_v (t : Thread) (d : Nat) (v : W64) (p : Bool) : (t.setS d v p).v = t.v := by
  unfold Thread.setS; split <;> rfl
@[simp] theorem Thread.setS_k (t : Thread) (d : Nat) (v : W64) (p : Bool) : (t.setS d v p).k = t.k := by
  unfold Thread.setS; split <;> rfl
@[simp] theorem Thread.setS_h (t : Thread) (d : Nat) (v : W64) (p : Bool) : (t.setS d v p).h = t.h := by
  unfold Thread.setS; split <;> rfl
@[simp] theorem Thread.setS_vPoison (t : Thread) (d : Nat) (v : W64) (p : Bool) : (t.setS d v p).vPoison = t.vPoison := by
  unfold Thread.setS; split <;> rfl
@[simp] theorem Thread.setS_lstat (t : Thread) (d : Nat) (v : W64) (p : Bool) : (t.setS d v p).lstat = t.lstat := by
  unfold Thread.setS; split <;> rfl
@[simp] theorem Thread.setS_job (t : Thread) (d : Nat) (v : W64) (p : Bool) : (t.setS d v p).job = t.job := by
  unfold Thread.setS; split <;> rfl
@[simp] theorem Thread.setS_boundAt (t : Thread) (d : Nat) (v : W64) (p : Bool) : (t.setS d v p).boundAt = t.boundAt := by
  unfold Thread.setS; split <;> rfl
@[simp] theorem Thread.setS_sram (t : Thread) (d : Nat) (v : W64) (p : Bool) : (t.setS d v p).sram = t.sram := by
  unfold Thread.setS; split <;> rfl
@[simp] theorem Thread.setS_filterAt (t : Thread) (d : Nat) (v : W64) (p : Bool) : (t.setS d v p).filterAt = t.filterAt := by
  unfold Thread.setS; split <;> rfl
@[simp] theorem Thread.setS_wait (t : Thread) (d : Nat) (v : W64) (p : Bool) : (t.setS d v p).wait = t.wait := by
  unfold Thread.setS; split <;> rfl
@[simp] theorem Thread.setS_waitRd (t : Thread) (d : Nat) (v : W64) (p : Bool) : (t.setS d v p).waitRd = t.waitRd := by
  unfold Thread.setS; split <;> rfl
@[simp] theorem Thread.setS_captures (t : Thread) (d : Nat) (v : W64) (p : Bool) : (t.setS d v p).captures = t.captures := by
  unfold Thread.setS; split <;> rfl
@[simp] theorem Thread.setS_lutHigh (t : Thread) (d : Nat) (v : W64) (p : Bool) : (t.setS d v p).lutHigh = t.lutHigh := by
  unfold Thread.setS; split <;> rfl
@[simp] theorem Thread.setK_ctx (t : Thread) (d v : Nat) : (t.setK d v).ctx = t.ctx := by
  unfold Thread.setK; split <;> rfl
@[simp] theorem Thread.setK_member (t : Thread) (d v : Nat) : (t.setK d v).member = t.member := by
  unfold Thread.setK; split <;> rfl
@[simp] theorem Thread.setK_lo (t : Thread) (d v : Nat) : (t.setK d v).lo = t.lo := by
  unfold Thread.setK; split <;> rfl
@[simp] theorem Thread.setK_hi (t : Thread) (d v : Nat) : (t.setK d v).hi = t.hi := by
  unfold Thread.setK; split <;> rfl
@[simp] theorem Thread.setK_lsize (t : Thread) (d v : Nat) : (t.setK d v).lsize = t.lsize := by
  unfold Thread.setK; split <;> rfl
@[simp] theorem Thread.setK_pc (t : Thread) (d v : Nat) : (t.setK d v).pc = t.pc := by
  unfold Thread.setK; split <;> rfl
@[simp] theorem Thread.setK_s (t : Thread) (d v : Nat) : (t.setK d v).s = t.s := by
  unfold Thread.setK; split <;> rfl
@[simp] theorem Thread.setK_v (t : Thread) (d v : Nat) : (t.setK d v).v = t.v := by
  unfold Thread.setK; split <;> rfl
@[simp] theorem Thread.setK_h (t : Thread) (d v : Nat) : (t.setK d v).h = t.h := by
  unfold Thread.setK; split <;> rfl
@[simp] theorem Thread.setK_sPoison (t : Thread) (d v : Nat) : (t.setK d v).sPoison = t.sPoison := by
  unfold Thread.setK; split <;> rfl
@[simp] theorem Thread.setK_vPoison (t : Thread) (d v : Nat) : (t.setK d v).vPoison = t.vPoison := by
  unfold Thread.setK; split <;> rfl
@[simp] theorem Thread.setK_lstat (t : Thread) (d v : Nat) : (t.setK d v).lstat = t.lstat := by
  unfold Thread.setK; split <;> rfl
@[simp] theorem Thread.setK_job (t : Thread) (d v : Nat) : (t.setK d v).job = t.job := by
  unfold Thread.setK; split <;> rfl
@[simp] theorem Thread.setK_boundAt (t : Thread) (d v : Nat) : (t.setK d v).boundAt = t.boundAt := by
  unfold Thread.setK; split <;> rfl
@[simp] theorem Thread.setK_sram (t : Thread) (d v : Nat) : (t.setK d v).sram = t.sram := by
  unfold Thread.setK; split <;> rfl
@[simp] theorem Thread.setK_filterAt (t : Thread) (d v : Nat) : (t.setK d v).filterAt = t.filterAt := by
  unfold Thread.setK; split <;> rfl
@[simp] theorem Thread.setK_wait (t : Thread) (d v : Nat) : (t.setK d v).wait = t.wait := by
  unfold Thread.setK; split <;> rfl
@[simp] theorem Thread.setK_waitRd (t : Thread) (d v : Nat) : (t.setK d v).waitRd = t.waitRd := by
  unfold Thread.setK; split <;> rfl
@[simp] theorem Thread.setK_captures (t : Thread) (d v : Nat) : (t.setK d v).captures = t.captures := by
  unfold Thread.setK; split <;> rfl
@[simp] theorem Thread.setK_lutHigh (t : Thread) (d v : Nat) : (t.setK d v).lutHigh = t.lutHigh := by
  unfold Thread.setK; split <;> rfl

end Sys2Proof.Machine
end

