-- ==== Sys2Proof/Laws/Thread.lean ====
section
/-! SUPPORT. What an instruction of a thread does once it issues (06 R164, R173, R176, R184, R186, R188), once for each form. -/

namespace Sys2Proof.Machine

open Sys2Proof.Claims

theorem issue_of_issues {s : State} {th : Thr} {w : W64} {t : Thread} {x : Ctx} (h : Issues s th w t x) (f : Nat → Thread → Ctx → Eff) :
    s.issue th w f = match f (thrNo th) t x with
      | .fault c a => s.settled (s.node.threadFault (thrNo th) t.pc c w.toNat a)
      | .stall => s.next s.node
      | .done m => s.settled m := issue_eff s th w f t x h.bound h.ctx h.free h.low h.high h.assigned h.word

/-- An effect that is done. -/
theorem issue_done {s : State} {th : Thr} {w : W64} {t : Thread} {x : Ctx} (h : Issues s th w t x) (f : Nat → Thread → Ctx → Eff) (m : Node)
    (hf : f (thrNo th) t x = .done m) : s.issue th w f = s.settled m := by
  rw [issue_of_issues h, hf]

theorem issue_fault {s : State} {th : Thr} {w : W64} {t : Thread} {x : Ctx} (h : Issues s th w t x) (f : Nat → Thread → Ctx → Eff) (c a : Nat)
    (hf : f (thrNo th) t x = .fault c a) : s.issue th w f = s.settled (s.node.threadFault (thrNo th) t.pc c w.toNat a) := by
  rw [issue_of_issues h, hf]

theorem issue_stall {s : State} {th : Thr} {w : W64} {t : Thread} {x : Ctx} (h : Issues s th w t x) (f : Nat → Thread → Ctx → Eff)
    (hf : f (thrNo th) t x = .stall) : s.issue th w f = s.next s.node := by
  rw [issue_of_issues h, hf]

/-- A form whose reserved bits are 0 and whose fields are legal is its effect. -/
theorem f1_legal (s : State) (th : Thr) (op fn : Nat) (f : F1) (legal : Bool) (g : Nat → Thread → Ctx → Eff) (h0 : f.rsv = 0) (hl : legal = true) :
    s.f1 th op fn f legal g = s.issue th (encF1 op fn f) g := by simp [State.f1, h0, hl]

theorem f2_legal (s : State) (th : Thr) (op fn : Nat) (f : F2) (legal : Bool) (g : Nat → Thread → Ctx → Eff) (h0 : f.rsv = 0) (hl : legal = true) :
    s.f2 th op fn f legal g = s.issue th (encF2 op fn f) g := by simp [State.f2, h0, hl]

/-- A register operation whose registers are all there. -/
theorem regOp_of {s : State} {th : Thr} {t t' : Thread} {regs consumed : List Dst} (hL : Landed s th regs) (hC : Clean t consumed) :
    s.node.regOp (thrNo th) t regs consumed t' = .done (s.node.setThread (thrNo th) t'.step) := regOp_done _ _ _ _ _ _ hL hC

/-- A scalar result. -/
theorem sOp_done {s : State} {th : Thr} {op fn : Nat} {f : F1} {legal : Bool} {srcs consumed : List Dst} {t : Thread} {x : Ctx} (g : Thread → W64)
    (h0 : f.rsv = 0) (hl : legal = true) (h : Issues s th (encF1 op fn f) t x) (hL : Landed s th (sDst f.rd.toNat :: srcs)) (hC : Clean t consumed) :
    s.sOp th op fn f legal srcs consumed g = becomes s th (t.setS f.rd.toNat (g t) (srcs.any t.poisoned)).step := by
  unfold State.sOp
  rw [f1_legal _ _ _ _ _ _ _ h0 hl, issue_done h _ _ (regOp_of hL hC)]
  rfl

theorem alu_done {s : State} {th : Thr} {op fn : Nat} {f : F1} {t : Thread} {x : Ctx} (g : W64 → W64 → W64) (h0 : f.rsv = 0)
    (h : Issues s th (encF1 op fn f) t x) (hL : Landed s th (sDst f.rd.toNat :: [.s f.ra.toNat, .s f.rb.toNat])) :
    s.alu th op fn f g = becomes s th (t.setS f.rd.toNat (g (t.getS f.ra.toNat) (t.getS f.rb.toNat))
      ([Dst.s f.ra.toNat, .s f.rb.toNat].any t.poisoned)).step := sOp_done _ h0 rfl h hL (by simp [Clean])

theorem alu1_done {s : State} {th : Thr} {op fn : Nat} {f : F1} {t : Thread} {x : Ctx} (g : W64 → W64) (h0 : f.rsv = 0)
    (h : Issues s th (encF1 op fn f) t x) (hL : Landed s th (sDst f.rd.toNat :: [.s f.ra.toNat])) :
    s.alu1 th op fn f g = becomes s th (t.setS f.rd.toNat (g (t.getS f.ra.toNat)) ([Dst.s f.ra.toNat].any t.poisoned)).step :=
  sOp_done _ h0 rfl h hL (by simp [Clean])

theorem aluImm_done {s : State} {th : Thr} {op fn : Nat} {f : F2} {legal : Bool} {t : Thread} {x : Ctx} (g : W64 → W64 → W64) (h0 : f.rsv = 0)
    (hl : legal = true) (h : Issues s th (encF2 op fn f) t x) (hL : Landed s th [sDst f.rd.toNat, .s f.ra.toNat]) :
    s.aluImm th op fn f legal g = becomes s th (t.setS f.rd.toNat (g (t.getS f.ra.toNat) (f.imm.signExtend 64)) (t.poisoned (.s f.ra.toNat))).step := by
  unfold State.aluImm
  rw [f2_legal _ _ _ _ _ _ _ h0 hl, issue_done h _ _ (regOp_of hL (by simp [Clean]))]
  rfl

/-- A vector result. -/
theorem vOp_done {s : State} {th : Thr} {op fn : Nat} {f : F1} {legal : Bool} {srcs consumed : List Dst} {t : Thread} {x : Ctx} {w n : Nat}
    (g : Thread → Nat → Nat) (h0 : f.rsv = 0) (hl : legal = true) (hd : f.rd.toNat < 32) (h : Issues s th (encF1 op fn f) t x)
    (hL : Landed s th (.v f.rd.toNat :: srcs)) (hC : Clean t consumed) :
    s.vOp th op fn f legal srcs consumed w n g = becomes s th (t.setV f.rd.toNat
      (packLanes w n fun i => if bitAt (t.getK f.k.toNat) i then g t i else if f.mz == 0 then lane w (t.getV f.rd.toNat) i else 0)
      ((if f.mz == 0 && masksOut n (t.getK f.k.toNat) then Dst.v f.rd.toNat :: srcs else srcs).any t.poisoned)).step := by
  unfold State.vOp
  rw [f1_legal _ _ _ _ _ _ _ h0 (by simp [hl, hd]), issue_done h _ _ (regOp_of hL hC)]
  rfl

/-- The registers of an instruction of 07 are there and clean. -/
theorem consumes_of {s : State} {th : Thr} {t : Thread} {rd : Dst} {regs : List Nat} {k : Eff} (hd : s.node.pendingReg (thrNo th) rd = false)
    (hL : Landed s th (regs.map .s)) (hC : Clean t (regs.map .s)) : s.node.consumes (thrNo th) t rd regs k = k := by
  have h1 : (regs.map Dst.s).any (s.node.pendingReg (thrNo th)) = false := by simpa [Landed] using hL
  have h2 : (regs.map Dst.s).any t.poisoned = false := by simpa [Clean] using hC
  simp [Node.consumes, hd, h1, h2]

/-- An F1 instruction of 07 whose fields are legal and whose registers are there is its effect. -/
theorem search1_of {s : State} {th : Thr} {op fn : Nat} {f : F1} {legal : Bool} {regs : List Nat} {t : Thread} {x : Ctx} (g : Nat → Thread → Ctx → Eff)
    (h0 : f.rsv = 0) (hk : f.k = 0) (hm : f.mz = 0) (hl : legal = true) (h : Issues s th (encF1 op fn f) t x)
    (hL : Landed s th (sDst f.rd.toNat :: regs.map .s)) (hC : Clean t (regs.map .s)) :
    s.search1 th op fn f legal regs g = match g (thrNo th) t x with
      | .fault c a => s.settled (s.node.threadFault (thrNo th) t.pc c (encF1 op fn f).toNat a)
      | .stall => s.next s.node
      | .done m => s.settled m := by
  unfold State.search1
  rw [f1_legal _ _ _ _ _ _ _ h0 (by simp [hl, hk, hm]), issue_of_issues h,
    consumes_of (hL _ (by simp)) (fun r hr => hL r (by simp at hr ⊢; exact .inr hr)) hC]

/-- The same of an F4 instruction. -/
theorem f4_of {s : State} {th : Thr} {op fn fl : Nat} {f : F4} {legal : Bool} {regs : List Nat} {t : Thread} {x : Ctx} (g : Nat → Thread → Ctx → Eff)
    (hk : f.k = 0) (hf : f.fl.toNat &&& fl = f.fl.toNat) (hl : legal = true) (h : Issues s th (encF4 op fn f) t x)
    (hL : Landed s th (regs.map .s)) (hC : Clean t (regs.map .s)) :
    s.f4 th op fn f fl legal regs g = match g (thrNo th) t x with
      | .fault c a => s.settled (s.node.threadFault (thrNo th) t.pc c (encF4 op fn f).toNat a)
      | .stall => s.next s.node
      | .done m => s.settled m := by
  unfold State.f4
  rw [issue_of_issues h]
  simp only [hk, hl, hf, consumes_of (rd := .none) (by simp [Node.pendingReg]) hL hC]
  simp

end Sys2Proof.Machine
end

