-- ==== Sys2Proof/Tests/Slice0.lean ====
section
/-! SUPPORT. Tests: what WellFormed refuses, words of the instruction set, single steps with results from the spec, and for
each obligation with hypotheses a witness: concrete states and operands that meet them, clause by clause. A witness names the
obligation and lists its clauses in order. -/

namespace Sys2Proof.Tests

set_option maxRecDepth 20000
set_option Elab.async false

open Sys2Proof Sys2Proof.Machine Sys2Proof.Claims

/-! ## Small states -/

/-- A state with a node and an empty queue. -/
def at' (n : Node) : State := { node := n, pending := [] }

def n0 : Node := Node.reset

/-- The first thread of the first hub. -/
def th0 : Thr := ⟨0, 0, 0⟩

/-- A context of tenant 5, or of another owner, that runs one thread. -/
def ctx5 : Ctx :=
  { owner := 5, job := none, adm := none, op := 0x10, deadline := none, hub := 0, threads := [0], gangSize := 1, lists := [], pins := [], held := []
    slotRefs := [], query := none, gangStart := 0 }

/-- A thread at the last word of its program, with s1 = 3 and s2 = 2^64 - 1, and one local page. -/
def t5 : Thread :=
  { ctx := 7, member := 0, lo := 0, hi := 100, lsize := 1, pc := 99, s := [(1, 3), (2, BitVec.allOnes 64)], v := [], k := [], h := [], sPoison := []
    vPoison := [], lstat := 0, job := none, boundAt := 0, sram := [], filterAt := none, wait := none, waitRd := 0, captures := [], lutHigh := [] }

/-- A node on which a thread runs. -/
def run (n : Node) (t : Thread) (x : Ctx) : Node := (n.setCtx 7 x).setThread 0 t

def base : State := at' (run n0 t5 ctx5)

/-- The thread after a command. -/
def after (c : Instr) (s : State) : Option Thread := match exec c s with
  | .next t => t.node.thread 0
  | _ => none

def sAfter (c : Instr) (s : State) (r : Nat) : Option W64 := (after c s).map fun t => t.getS r

/-- The node after a command. -/
def nodeAfter (c : Instr) (s : State) : Node := match exec c s with
  | .next t => t.node
  | _ => s.node

/-! ## WellFormed refuses an ill-formed command of each kind -/

def f1 : F1 := { rd := 3, ra := 1, rb := 2, rc := 0, k := 0, mz := 0, et := 0, rsv := 0 }
def f2 : F2 := { rd := 3, ra := 1, imm := 5, rsv := 0 }
def f3 : F3 := { rd := 3, ra := 1, rb := 0, sc := 0, sp := 0, x := 0, k := 0, ord := 0, disp := 5 }
def f4 : F4 := { ra := 1, rb := 2, rc := 0, h := 0, k := 0, fl := 0, imm := 0 }
def f5 : F5 := { rd := 3, imm := 5 }
def pkt : Packet :=
  { ptype := 1, poison := false, len := 8, job := 0, dst := 0, src := 1, tag := 0, cls := 0, status := 0, load := 0, hops := 0, addr := 0, sinc := 1
    data := [], port := 0 }

theorem test_wf_accepts : (Instr.add th0 f1).wf = true ∧ (Instr.registerWrite .pf 8 8 (2 ^ 64 - 1)).wf = true ∧ (Instr.rd pkt).wf = true
    ∧ (Instr.replicaLagExceeded 1024 0).wf = true := by decide
theorem test_wf_refuses_reserved_bits : (Instr.add th0 { f1 with rsv := 1 }).wf = false ∧ (Instr.addi th0 { f2 with rsv := 0x80 }).wf = false := by decide
theorem test_wf_refuses_widths : (Instr.registerWrite .pf 4 8 0).wf = false ∧ (Instr.registerRead .pf 2 4).wf = false
    ∧ (Instr.regRead 0 0 2).wf = false := by decide
theorem test_wf_refuses_values : (Instr.registerWrite .pf 0 4 (2 ^ 32)).wf = false ∧ (Instr.regWrite 0 0 8 (2 ^ 64)).wf = false := by decide
theorem test_wf_refuses_owners : (Instr.regionUnmapComplete 1025 0).wf = false ∧ (Instr.replicaLagExceeded 1025 0).wf = false := by decide
theorem test_wf_refuses_packets : (Instr.rd { pkt with len := 257 }).wf = false ∧ (Instr.wr { pkt with dst := 32768 }).wf = false
    ∧ (Instr.faultNote { pkt with load := 16 }).wf = false := by decide

/-! ## The table gives no bits -/

theorem test_no_word_spells_a_command : decodeTableWord 0 0 = none ∧ decodeTableWord 64 (2 ^ 64 - 1) = none := by decide

/-! ## Words of 06 Table 6.7, written out -/

/-- ADD s3, s1, s2: opcode 0x01, function 0. -/
theorem test_word_add : encF1 0x01 0 f1 = 0b0000001_000000_000011_000001_000010_000000_000_0_0000_0000000000000000000#64 := by decide
/-- ADDI s3, s1, 5: opcode 0x20, function 0. -/
theorem test_word_addi : encF2 0x20 0 f2 = 0b0100000_00000_000011_000001_00000000_00000000000000000000000000000101#64 := by decide
/-- LD.W s3, [s1 + 5]: opcode 0x40, function 4. -/
theorem test_word_ldw : encF3 0x40 4 f3 = 0b1000000_00100_000011_000001_000000_00_0_0_000_00_0000000000000000000000101#64 := by decide
/-- SCAN.EX: opcode 0x59, function 2. -/
theorem test_word_scanex : encF4 0x59 2 { f4 with fl := 0x41, imm := 0x80 } =
    0b1011001_00010_000001_000010_000000_00_000_0000001000001_0000000010000000#64 := by decide
/-- LI s3, 5: opcode 0x70, function 0. -/
theorem test_word_li : encF5 0x70 0 f5 = 0b1110000_000011_000_000000000000000000000000000000000000000000000101#64 := by decide

/-! ## Single steps of a thread, with results from 06 -/

theorem test_add_wraps : sAfter (.add th0 f1) base 3 = some 2#64 := by decide +kernel
theorem test_sltu : sAfter (.sltu th0 f1) base 3 = some 1#64 := by decide +kernel
theorem test_slt : sAfter (.slt th0 f1) base 3 = some 0#64 := by decide +kernel
theorem test_div_by_zero : sAfter (.div th0 { f1 with rb := 5 }) base 3 = some (BitVec.allOnes 64) := by decide +kernel
theorem test_rem_by_zero : sAfter (.rem th0 { f1 with rb := 5 }) base 3 = some 3#64 := by decide +kernel
theorem test_sra_negative : sAfter (.sra th0 { f1 with ra := 2, rb := 1 }) base 3 = some (BitVec.allOnes 64) := by decide +kernel
theorem test_s0_discards : sAfter (.add th0 { f1 with rd := 0 }) base 0 = some 0#64 := by decide +kernel
theorem test_addi : sAfter (.addi th0 f2) base 3 = some 8#64 := by decide +kernel
theorem test_pc_wraps : (after (.jal th0 { f2 with imm := -100 }) base).map (·.pc) = some 32767 := by decide +kernel
theorem test_branch_taken : (after (.bltu th0 { f2 with rd := 2, imm := -9 }) base).map (·.pc) = some 90 := by decide +kernel
theorem test_branch_not_taken : (after (.blt th0 { f2 with rd := 2, imm := -9 }) base).map (·.pc) = some 100 := by decide +kernel
theorem test_reserved_bit_faults : after (.add th0 { f1 with rsv := 1 }) base = none
    ∧ KList.getD (nodeAfter (.add th0 { f1 with rsv := 1 }) base).spokes.pfaultCnt 0 0 = 1 := by decide +kernel
theorem test_store_then_load : (after (.stW th0 { f3 with rd := 2, ra := 0, disp := 8 }) base).map (fun t => t.localRead 7 6)
    = some [0, 255, 255, 255, 255, 0] := by decide +kernel
theorem test_load_sign_extends :
    sAfter (.ldB th0 { f3 with ra := 0, disp := 9 }) (at' (run n0 { t5 with sram := [(9, 0x80)] } ctx5)) 3 = some 0xFFFFFFFFFFFFFF80#64
    ∧ sAfter (.ldBu th0 { f3 with ra := 0, disp := 9 }) (at' (run n0 { t5 with sram := [(9, 0x80)] } ctx5)) 3 = some 0x80#64 := by decide +kernel

/-! ## Witnesses: Thilen scalars, vectors, control (06) -/

/-- Thread 0 runs with nothing outstanding and no poison, and the store lists no word. -/
def ready (s : State) (t : Thread) (x : Ctx) : Bool :=
  decide (s.node.thread 0 = some t) && decide (s.node.ctx t.ctx = some x) && s.node.canIssue 0 t && decide (t.lo ≤ t.pc) && decide (t.pc < t.hi)
  && !s.node.reservedAt t.pc && s.node.spokes.istore.isEmpty && s.node.spokes.accesses.isEmpty && t.sPoison.isEmpty && t.vPoison.isEmpty

theorem ready_issues {s : State} {t : Thread} {x : Ctx} (h : ready s t x = true) :
    (∀ w, Issues s th0 w t x) ∧ (∀ l, Landed s th0 l) ∧ (∀ l, Clean t l) := by
  simp only [ready, Bool.and_eq_true, decide_eq_true_eq, List.isEmpty_iff, Bool.not_eq_true'] at h
  obtain ⟨⟨⟨⟨⟨⟨⟨⟨⟨h1, h2⟩, h3⟩, h4⟩, h5⟩, h0⟩, h6⟩, h7⟩, h8⟩, h9⟩ := h
  refine ⟨fun w => ⟨h1, h2, h3, h4, h5, h0, ?_⟩, fun l r _ => ?_, fun l r _ => ?_⟩
  · simp [Node.fetched, h6, KList.find?]
  · simp [Node.pendingReg, h7]
  · cases r <;> simp [Thread.poisoned, h8, h9]

theorem ready1 {s : State} {t : Thread} {x : Ctx} {f : F1} (h : ready s t x = true) (hf : f.rsv = 0 ∧ f.k = 0 ∧ f.mz = 0) (op fn : Nat)
    (l : List (BitVec 6)) : Ready1 s th0 op fn f l t x :=
  have k := ready_issues h
  ⟨hf.1, hf.2.1, hf.2.2, k.1 _, k.2.1 _, k.2.2 _⟩

theorem ready4 {s : State} {t : Thread} {x : Ctx} {f : F4} {fl : Nat} (h : ready s t x = true) (hf : f.k = 0 ∧ f.fl.toNat &&& fl = f.fl.toNat)
    (op fn : Nat) (l : List (BitVec 6)) : Ready4 s th0 op fn f fl l t x :=
  have k := ready_issues h
  ⟨hf.1, hf.2, k.1 _, k.2.1 _, k.2.2 _⟩

theorem base_ready : ready base t5 ctx5 = true := by decide +kernel

/-- What every F1 statement of 06 assumes, with a legality that `legal` stands for. -/
def Meets1 (f : F1) (legal : Bool) : Prop :=
  f.rsv = 0 ∧ legal = true ∧ (∀ w, Issues base th0 w t5 ctx5) ∧ (∀ l, Landed base th0 l) ∧ (∀ l, Clean t5 l)

theorem meets1 {f : F1} {legal : Bool} (h : f.rsv = 0 ∧ legal = true) : Meets1 f legal := ⟨h.1, h.2, ready_issues base_ready⟩

/-- The same in format F2. -/
def Meets2 (f : F2) (legal : Bool) : Prop :=
  f.rsv = 0 ∧ legal = true ∧ (∀ w, Issues base th0 w t5 ctx5) ∧ (∀ l, Landed base th0 l) ∧ (∀ l, Clean t5 l)

theorem meets2 {f : F2} {legal : Bool} (h : f.rsv = 0 ∧ legal = true) : Meets2 f legal := ⟨h.1, h.2, ready_issues base_ready⟩

/-- The two clauses of PTEST, the second at its last vector register; every other clause assumes no more. -/
theorem witness_IntegerInstructionResults : Meets1 f1 true ∧ Meets1 f1 (f1.et == 0)
    ∧ Meets1 { f1 with et := 1, ra := 31 } (({ f1 with et := 1, ra := 31 } : F1).et == 1 && decide (({ f1 with et := 1, ra := 31 } : F1).ra.toNat < 32)) :=
  ⟨meets1 (by decide), meets1 (by decide), meets1 (by decide)⟩

/-- The shifts at their largest count, LIU at its largest immediate. -/
theorem witness_ImmediateInstructionResults : Meets2 f2 true ∧ Meets2 { f2 with imm := 63 } (decide (({ f2 with imm := 63 } : F2).imm.toNat < 64))
    ∧ Meets1 f1 (decide (({ f5 with imm := 65535 } : F5).imm.toNat < 65536)) :=
  ⟨meets2 (by decide), meets2 (by decide), meets1 (by decide)⟩

/-- Both formats; FCVT at the ends of its types. -/
theorem witness_FloatingInstructionResults :
    (∀ et ∈ ([10, 11] : List (BitVec 4)), Meets1 { f1 with et := et } (et == 10 || et == 11))
    ∧ Meets1 { f1 with et := 4, rc := 11 } (decide (4 ≤ (4 : BitVec 4).toNat ∧ (4 : BitVec 4).toNat ≤ 11 ∧ 4 ≤ (11 : BitVec 6).toNat % 16 ∧ (11 : BitVec 6).toNat % 16 ≤ 11))
    ∧ Meets1 { f1 with et := 11, rc := 4 } (decide (4 ≤ (11 : BitVec 4).toNat ∧ (11 : BitVec 4).toNat ≤ 11 ∧ 4 ≤ (4 : BitVec 6).toNat % 16 ∧ (4 : BitVec 6).toNat % 16 ≤ 11)) := by
  refine ⟨fun et h => meets1 ⟨rfl, ?_⟩, meets1 (by decide), meets1 (by decide)⟩
  simp only [List.mem_cons, List.not_mem_nil, or_false] at h
  rcases h with rfl | rfl <;> rfl

/-- Mask registers 0 and 7. -/
theorem witness_MaskInstructionResults :
    (∀ r ∈ ([0, 7] : List (BitVec 6)), Meets1 { f1 with rd := r, ra := r, rb := r } (decide (r.toNat < 8))) := by
  intro r h
  refine meets1 ⟨rfl, ?_⟩
  simp only [List.mem_cons, List.not_mem_nil, or_false] at h
  rcases h with rfl | rfl <;> rfl

/-- Types 7 (the last integer), 11 (the last of all) and 1 (the last of VDOTP), at vector register 31. -/
theorem witness_VectorArithmeticResults :
    (∀ et ∈ ([1, 7, 11] : List (BitVec 4)), Meets1 { f1 with rd := 31, ra := 31, rb := 31, et := et } (decide (et.toNat ≤ 11) && decide ((31 : BitVec 6).toNat < 32)))
    ∧ (7 : BitVec 4).toNat ≤ 7 ∧ (1 : BitVec 4).toNat ≤ 1 := by
  refine ⟨fun et h => meets1 ⟨rfl, ?_⟩, by decide, by decide⟩
  simp only [List.mem_cons, List.not_mem_nil, or_false] at h
  rcases h with rfl | rfl | rfl <;> rfl

/-- The same; VCVT from 64 lanes to 8 at its last part, and from 8 lanes to 64 at part 0; a mask register below 8. -/
theorem witness_VectorMoveAndReduceResults :
    Meets1 { f1 with rd := 7, ra := 31, rb := 31, et := 11 } true
    ∧ Meets1 { f1 with rd := 31, ra := 31, et := 0, rc := 0x36 }
        (decide (etLanes 6 ≤ etLanes 0) && decide ((0x36 : BitVec 6).toNat % 16 = 6) && decide ((0x36 : BitVec 6).toNat / 16 < etLanes 0 / etLanes 6))
    ∧ Meets1 { f1 with rd := 31, ra := 31, et := 6, rc := 0 } (!decide (etLanes 0 ≤ etLanes 6) && (0 : BitVec 6).toNat / 16 == 0)
    ∧ Meets1 { f1 with ra := 31, et := 7 } true ∧ Meets1 { f1 with ra := 31, et := 8 } (decide (8 ≤ (8 : BitVec 4).toNat)) :=
  ⟨meets1 (by decide), meets1 (by decide), meets1 (by decide), meets1 (by decide), meets1 (by decide)⟩

def ctxSys : Ctx := { ctx5 with owner := sysOwner }

/-- SRD and SWR at their last and only registers, the second also for the system context. -/
theorem witness_ControlInstructionResults :
    Meets2 f2 true ∧ Meets2 { f2 with imm := 8 } (decide ((8 : BitVec 32).toNat ≤ 8)) ∧ Meets2 { f2 with imm := 5 } (decide ((5 : BitVec 32).toNat = 5))
    ∧ ((∀ w, Issues (at' (run n0 t5 ctxSys)) th0 w t5 ctxSys) ∧ ctxSys.owner = sysOwner ∧ (run n0 t5 ctxSys).globalsDone 0 = true)
    ∧ (t5.getS 1 = 3 ∧ t5.getS 2 = BitVec.allOnes 64) :=
  ⟨meets2 (by decide), meets2 (by decide), meets2 (by decide),
    ⟨(ready_issues (s := at' (run n0 t5 ctxSys)) (by decide +kernel)).1, by decide +kernel, by decide +kernel⟩, by decide⟩

/-- A job of node 0 with one failure unreported, and with none. -/
def jobWith (l : List Nat) : Job := { owner := 5, members := [0], faulted := false, posted := 1, seen := 0, unreported := l }
def tJob : Thread := { t5 with job := some 9 }
def nJob (l : List Nat) : Node := run (n0.setJob 9 (jobWith l)) tJob ctx5

theorem witness_FencesAndEndComplete :
    Meets1 { f1 with rc := 15 } (decide ((15 : BitVec 6).toNat % 16 ≠ 0)) ∧ base.node.spokes.accesses = []
    ∧ (∀ l ∈ [[], [4095]], (∀ w, Issues (at' (nJob l)) th0 w tJob ctx5) ∧ tJob.job = some 9 ∧ (nJob l).job 9 = some (jobWith l)
        ∧ (nJob l).globalsDone 0 = true) := by
  refine ⟨meets1 (by decide), rfl, fun l h => ?_⟩
  simp only [List.mem_cons, List.not_mem_nil, or_false] at h
  rcases h with rfl | rfl
  · exact ⟨(ready_issues (s := at' (nJob [])) (by decide +kernel)).1, by decide +kernel, by decide +kernel, by decide +kernel⟩
  · exact ⟨(ready_issues (s := at' (nJob [4095])) (by decide +kernel)).1, by decide +kernel, by decide +kernel, by decide +kernel⟩

/-! ## Witnesses: loads, stores, accesses (06) -/

theorem base_addressed (f : F3) (op fn : Nat) (l m : List Dst) (p : Bool) (a n : Nat) (h : t5.addrCode (f.sp == 1) p a n = 0) :
    Addressed base th0 op fn f t5 ctx5 l m p a n := ⟨(ready_issues base_ready).1 _, (ready_issues base_ready).2.1 _, (ready_issues base_ready).2.2 _, h⟩

/-- A load and a store of each kind: local, of the last 8 or 64 bytes of the page, and of tenant memory; the sixteenth
function of AMO, the one of a scalar-and-compare form, and the function 10. -/
theorem witness_LoadStoreInstructionResults :
    (let f := { f3 with ra := 0, disp := 4088 }
     Addressed base th0 0x40 6 f t5 ctx5 [] [] false (t5.addrF3 f).toNat 8 ∧ f.sc ≠ 3 ∧ f.k = 0 ∧ f.sp = 0)
    ∧ (let f := { f3 with ra := 0, disp := 4032, rd := 31, k := 7 }
     Addressed base th0 0x41 4 f t5 ctx5 [] [] (f.x == 1) (t5.addrF3 f).toNat 64 ∧ f.sc ≠ 3 ∧ f.rd.toNat < 32 ∧ f.sp = 0)
    ∧ (let f := { f3 with ra := 0, disp := 4096, sp := 1 }
     Addressed base th0 0x40 6 f t5 ctx5 [] [] false (t5.addrF3 f).toNat 8 ∧ f.sp = 1 ∧ base.node.accessRoom (thrNo th0) (t5.addrF3 f).toNat = true)
    ∧ (∀ k ∈ [9, 25, 10], let f := { f3 with ra := 0, disp := 4088 }
     Addressed base th0 0x42 k f t5 ctx5 [] [] false (t5.getS f.ra.toNat + f.disp.signExtend 64).toNat (amoWidth k) ∧ f.sc = 0 ∧ (k % 16 ≤ 9 ∨ k = 10)) := by
  refine ⟨⟨base_addressed _ _ _ _ _ _ _ _ (by decide +kernel), by decide, by decide, by decide⟩,
    ⟨base_addressed _ _ _ _ _ _ _ _ (by decide +kernel), by decide, by decide, by decide⟩,
    ⟨base_addressed _ _ _ _ _ _ _ _ (by decide +kernel), by decide, by decide +kernel⟩, fun k h => ?_⟩
  simp only [List.mem_cons, List.not_mem_nil, or_false] at h
  rcases h with rfl | rfl | rfl <;> exact ⟨base_addressed _ _ _ _ _ _ _ _ (by decide +kernel), by decide, by decide⟩

/-- A node on which owner 5 has one region in HBM. -/
def reg5 : Region := { tier := 2, rfl := 0, heat := 0, home := 2, move := 0, epoch := 0, loc := 0, count := 0 }
def nMem : Node := n0.setRegion 5 0 reg5
def acc (kind fn : Nat) : Access :=
  { thr := 0, owner := 5, job := none, kind := kind, fn := fn, addr := 0x1FFFF8, size := 8, dst := .s 3, data := [1, 0, 0, 0, 0, 0, 0, 0], cmp := 0
    mask := 255, x := false, acquire := false, after := [], tag := none, pc := 0, word := 0, issued := 0, begun := true, hold := false }
def nAcc (kind fn : Nat) : Node :=
  let n := run nMem t5 ctx5
  { n with spokes := { n.spokes with accesses := [(1, acc kind fn)] } }

/-- A load, a store and an AMO of the last 8 bytes of the region; a deadline that is now. -/
theorem witness_OutstandingAccessesComplete :
    (∀ p ∈ [(0, 6), (1, 3), (2, 0)], let a := acc p.1 p.2
      (nAcc p.1 p.2).acc 1 = some a ∧ a.begun = true ∧ (nAcc p.1 p.2).accReady a = true ∧ (nAcc p.1 p.2).dataUp = true ∧ bitAt a.addr 63 = false
      ∧ (nAcc p.1 p.2).remoteOf a = none ∧ (nAcc p.1 p.2).memCode a.owner a.addr a.size (p.1 != 0) = 0
      ∧ (nAcc p.1 p.2).amoCode a.owner a.addr a.size = 0
      ∧ (nAcc p.1 p.2).replOf a.owner (regionOf a.addr) = none ∧ (nAcc p.1 p.2).thread a.thr = some t5
      ∧ (nAcc p.1 p.2).storeRoom a.owner a.addr a.size = true)
    ∧ ((run n0 t5 { ctx5 with deadline := some 0 }).ctx 7).bind (·.deadline) = some 0 ∧ 0 ≤ n0.now := by decide +kernel

/-- A tick later than 0 and node 0's own clock; the deadline ends the context. -/
theorem test_deadline_ends_the_context :
    (nodeAfter (.contextDeadline 7) (at' (run n0 t5 { ctx5 with deadline := some 0 }))).ctx 7 = none := by decide +kernel
theorem test_load_completes : (after (.loadComplete 1 .ok) (at' ((nAcc 0 6).write 5 0x1FFFF8 [7, 1]))).map (fun t => t.getS 3) = some 263#64 := by decide +kernel

/-! ## Witnesses: queues, synchronisation, search (07, 13) -/

theorem fst0 {α : Type} {p : Nat × α} (h : p.1 = 0) : p = (0, p.2) := by rw [← h]

/-- A thread with given scalar registers and two local pages. -/
def tr (l : KList W64) : Thread := { t5 with s := l, lsize := 2 }

/-- Queue 3 is a pipe of 16 slots of tenant 5 on the node, its ring at the start of the tenant's region. -/
def pipe (q : Queue) : Node := (nMem.setReg .qcfg 3 (2 ^ 63 + 2 ^ 62 + 5 * 2 ^ 47 + 4 * 2 ^ 43)).setQueue 3 q
def fq : F1 := { f1 with ra := 1, rb := 2, rc := 4 }

/-- A pop of one slot into the last 128 bytes of the thread's pages; a push of 16 slots, which is all of the ring, from the last
2,048 bytes; a commit. -/
theorem witness_QueueInstructionResults :
    (let t := tr [(1, 3), (2, 8064)]
     let n := run (pipe { emptyQueue with tail := 1 }) t ctx5
     Ready1 (at' n) th0 0x14 0 fq [fq.ra, fq.rb, fq.rc] t ctx5 ∧ fq.et = 0 ∧ n.mayUse ctx5 (t.reg fq.ra % 8192) true = true
      ∧ 0 < n.popSlots (t.reg fq.ra % 8192) ∧ t.reg fq.rb % 64 = 0 ∧ t.reg fq.rb + 128 * n.popSlots (t.reg fq.ra % 8192) ≤ t.localSize)
    ∧ (let t := tr [(1, 3), (2, 6144), (4, 16)]
     let n := run (pipe emptyQueue) t ctx5
     let y := n.queue (t.reg fq.ra)
     Ready1 (at' n) th0 0x14 1 fq [fq.ra, fq.rb, fq.rc] t ctx5 ∧ fq.et = 0 ∧ t.reg fq.ra < 8192 ∧ n.mayUse ctx5 (t.reg fq.ra) false = true ∧ 1 ≤ t.reg fq.rc
      ∧ t.reg fq.rc ≤ 16 ∧ t.reg fq.rb + 128 * t.reg fq.rc ≤ t.localSize ∧ (t.capture (t.reg fq.ra)).getD y.epoch = y.epoch
      ∧ (y.resAt (n.qcfg (t.reg fq.ra)).n + 65536 - y.head) % 65536 + t.reg fq.rc ≤ (n.qcfg (t.reg fq.ra)).n)
    ∧ (let t := { tr [(1, 3)] with captures := [⟨3, 0⟩] }
     let p : Push := { thr := 0, count := 0, slots := 1, epoch := 0 }
     let n := run (pipe { emptyQueue with reserved := 1, pushes := [p] }) t ctx5
     Ready1 (at' n) th0 0x14 2 fq [fq.ra] t ctx5 ∧ fq.et = 0 ∧ t.reg fq.ra < 8192 ∧ n.mayUse ctx5 (t.reg fq.ra) false = true
      ∧ t.capture (t.reg fq.ra) = some (n.queue (t.reg fq.ra)).epoch ∧ (n.queue (t.reg fq.ra)).pushes = [p] ∧ p.thr = thrNo th0) :=
  ⟨⟨ready1 (by decide +kernel) (by decide) _ _ _, by decide +kernel⟩, ⟨ready1 (by decide +kernel) (by decide) _ _ _, by decide +kernel⟩,
    ⟨ready1 (by decide +kernel) (by decide) _ _ _, by decide +kernel⟩⟩

/-- A synchronisation object of tenant 5, the last of the table. -/
def nSync (y : Sync) (t : Thread) (x : Ctx) : Node := run (n0.setSync 4095 y) t x
def syn (ty v p : Nat) (w : List Nat) : Sync := { type := ty, owner := 5, value := v, parts := p, waiters := w }

/-- A semaphore and a counter at their needed count; posts that reach the largest value; a barrier of one; an event, cleared and
set; node time; a snapshot at the earliest legal time; a wait that is over. -/
theorem witness_SynchronisationInstructionResults :
    (∀ p ∈ [(0, 2 ^ 32 - 1), (3, 2 ^ 32)], let t := tr [(1, 4095), (2, BitVec.ofNat 64 p.2)]
     let y := syn p.1 p.2 0 []
     let n := nSync y t ctx5
     Ready1 (at' n) th0 0x15 0 fq [fq.ra, fq.rb, fq.rc] t ctx5 ∧ fq.et = 0 ∧ t.reg fq.ra < 4096 ∧ n.sync (t.reg fq.ra) = some y
      ∧ y.usable ctx5.owner = true ∧ y.waiters = [] ∧ (p.1 = 0 → 1 ≤ t.reg fq.rb ∧ t.reg fq.rb < 2 ^ 32) ∧ t.reg fq.rb ≤ y.value)
    ∧ (∀ p ∈ [(0, 2 ^ 32 - 2), (3, 2 ^ 64 - 1)], let t := tr [(1, 4095), (2, 1)]
     let y := syn p.1 p.2 0 []
     let n := nSync y t ctx5
     Ready1 (at' n) th0 0x15 1 fq [fq.ra, fq.rb] t ctx5 ∧ fq.et = 0 ∧ t.reg fq.ra < 4096 ∧ n.sync (t.reg fq.ra) = some y
      ∧ y.usable ctx5.owner = true ∧ y.waiters = [] ∧ (y.type = 0 ∧ 1 ≤ t.reg fq.rb ∧ y.value + t.reg fq.rb < 2 ^ 32 ∨ y.type = 3))
    ∧ (∀ v ∈ [8190, 8191], let t := tr [(1, 4095), (2, 1)]
     let y := syn 2 v 8192 []
     let n := nSync y t ctx5
     Ready1 (at' n) th0 0x15 2 fq [fq.ra, fq.rc] t ctx5 ∧ fq.et = 0 ∧ t.reg fq.ra < 4096 ∧ n.sync (t.reg fq.ra) = some y
      ∧ y.usable ctx5.owner = true ∧ y.type = 2 ∧ (y.parts ≤ y.value + 1 ∨ y.value + 1 < y.parts) ∧ (y.parts ≤ y.value + 1 ↔ v = 8191))
    ∧ (∀ b ∈ [0, 1], let t := tr [(1, 4095), (2, BitVec.ofNat 64 b)]
     let y := syn 1 1 0 []
     let n := nSync y t ctx5
     Ready1 (at' n) th0 0x15 3 fq [fq.ra, fq.rb] t ctx5 ∧ Ready1 (at' n) th0 0x15 4 fq [fq.ra, fq.rc] t ctx5 ∧ fq.et = 0 ∧ t.reg fq.ra < 4096
      ∧ n.sync (t.reg fq.ra) = some y ∧ y.usable ctx5.owner = true ∧ y.type = 1 ∧ y.value = 1 ∧ (t.getS fq.rb.toNat).getLsbD 0 = (b == 1))
    ∧ (Ready1 base th0 0x11 0 f1 [] t5 ctx5 ∧ f1.et = 0)
    ∧ (let t := tr [(1, 10000), (2, 1)]
     let n := run n0 t ctxSys
     Ready1 (at' n) th0 0x11 1 fq [fq.ra, fq.rb] t ctxSys ∧ fq.et = 0 ∧ ctxSys.owner = sysOwner ∧ t.reg fq.rb < 2 ∧ n.armCode (t.reg fq.ra) = 0)
    ∧ (let t := { tr [] with wait := some (.evt 4095 (some 0)) }
     let n := nSync (syn 1 0 0 [0]) t ctx5
     n.dataUp = true ∧ n.thread (thrNo th0) = some t ∧ t.wait = some (.evt 4095 (some 0)) ∧ 0 ≤ n.clk ∧ n.sync 4095 = some (syn 1 0 0 [0])) := by
  refine ⟨fun p h => ?_, fun p h => ?_, fun v h => ?_, fun b h => ?_,
    ⟨ready1 base_ready (by decide) _ _ _, by decide⟩, ⟨ready1 (by decide +kernel) (by decide) _ _ _, by decide +kernel⟩, by decide +kernel⟩
  · simp only [List.mem_cons, List.not_mem_nil, or_false] at h
    rcases h with rfl | rfl <;> exact ⟨ready1 (by decide +kernel) (by decide) _ _ _, by decide +kernel⟩
  · simp only [List.mem_cons, List.not_mem_nil, or_false] at h
    rcases h with rfl | rfl <;> exact ⟨ready1 (by decide +kernel) (by decide) _ _ _, by decide +kernel⟩
  · simp only [List.mem_cons, List.not_mem_nil, or_false] at h
    rcases h with rfl | rfl <;> exact ⟨ready1 (by decide +kernel) (by decide) _ _ _, by decide +kernel⟩
  · simp only [List.mem_cons, List.not_mem_nil, or_false] at h
    rcases h with rfl | rfl <;>
      exact ⟨ready1 (by decide +kernel) (by decide) _ _ _, ready1 (by decide +kernel) (by decide) _ _ _, by decide +kernel⟩

/-! ### Scans -/

/-- A scan block: the query vector at 64, the table at 1,024, no filter, dimension 8. -/
def scanBytes (m vf pin cc : Nat) (kout : Nat := 0) : Bytes :=
  natLe 4 64 ++ natLe 4 1024 ++ natLe 4 0xFFFFFFFF ++ natLe 8 0 ++ natLe 2 8 ++ natLe 2 m ++ natLe 1 vf ++ natLe 1 pin ++ natLe 2 0 ++ natLe 4 cc
  ++ natLe 8 kout ++ List.replicate 24 0

/-- The bytes that are not 0 of a segment of one vector (02 Tables 2.3, 2.4), dimension 8, of format 7, 8 or 0; and, 4,096 bytes on, a reference
to it and to its bitmap. -/
def segCells : Nat → List (Nat × Byte)
  | 7 => [(0, 83), (1, 69), (2, 71), (3, 49), (4, 7), (6, 8), (8, 8), (12, 1), (24, 1), (32, 192), (40, 192), (41, 1), (44, 192), (45, 2), (49, 3),
          (60, 1), (61, 34), (62, 17), (63, 207), (64, 1), (448, 77), (4101, 128), (4104, 192), (4105, 2), (4109, 128)]
  | 8 => [(0, 83), (1, 69), (2, 71), (3, 49), (4, 8), (6, 8), (8, 8), (12, 1), (24, 1), (32, 64), (33, 1), (40, 64), (41, 2), (44, 64), (45, 3),
          (48, 128), (49, 3), (60, 188), (61, 1), (62, 44), (63, 129), (64, 1), (576, 77), (4101, 128), (4104, 64), (4105, 3), (4109, 128)]
  | _ => [(0, 83), (1, 69), (2, 71), (3, 49), (6, 8), (12, 1), (24, 1), (32, 64), (33, 8), (40, 64), (41, 9), (44, 64), (45, 10), (48, 128), (49, 10),
          (60, 93), (61, 162), (62, 87), (63, 138), (2368, 77), (4101, 128), (4104, 64), (4105, 10), (4109, 128)]

def segHead : Nat → SegHead
  | 7 => { fmt := 7, dim := 8, pqM := 8, count := 1, serial := 0, birth := 1, offAttr := 192, offAblk := 0, offId := 448, offTomb := 704, bytes := 768 }
  | 8 => { fmt := 8, dim := 8, pqM := 8, count := 1, serial := 0, birth := 1, offAttr := 320, offAblk := 0, offId := 576, offTomb := 832, bytes := 896 }
  | _ => { fmt := 0, dim := 8, pqM := 0, count := 1, serial := 0, birth := 1, offAttr := 2112, offAblk := 0, offId := 2368, offTomb := 2624, bytes := 2688 }

def segAt : Nat := 2 ^ 47
def refAt : Nat := segAt + 4096

/-- A node whose stored objects of owner 5 lie in a region of HBM and hold these bytes. -/
def withObj (n : Node) (l : List (Nat × Byte)) : Node :=
  let n := n.setRegion 5 (regionOf segAt) reg5
  { n with mem := { n.mem with bytes := l.map fun p => (memKey 5 segAt + p.1, p.2) } }

def shId : ShardId := ⟨5, 12, 1⟩
def pin1 : Pin := ⟨shId, 0, 1⟩
def ctxPin : Ctx := { ctx5 with pins := [(0, pin1)] }
def listH : HubList :=
  { ctx := 7, handle := 0, hub := 0, blocks := [1, 0, 0, 0], list := TopList.empty 64, scanned := 0, filtered := 0, tombstoned := 0, attached := [0]
    emitted := [] }

/-- A thread with its scan block at 0, list 2 as h0, and its segment reference at the address in s1: block 0, one block. -/
def tScan (a : Nat) (blk : Bytes) : Thread := { tr [(1, BitVec.ofNat 64 a), (4, 1)] with sram := cellWrite [] 0 blk, h := [(0, 2)] }
def fScan (fl : BitVec 13) : F4 := { ra := 1, rb := 0, rc := 4, h := 0, k := 0, fl := fl, imm := 0 }

/-- A node with one segment of one vector, and a reference to it. -/
def nScan (vf : Nat) (t : Thread) : Node :=
  (run (withObj n0 (segCells vf)) t ctxPin).setList 2 listH

def scanArgsOk (s : State) (fn fl form : Nat) (f : F4) (t : Thread) (out : Bool) : Bool :=
  let raw := t.localRead f.imm.toNat 64
  let k := readScanBlk raw
  ready s t ctxPin && decide (f.k = 0 ∧ f.fl.toNat &&& fl = f.fl.toNat) && decide (fld f.fl.toNat 6 2 = form) && decide (bitAt f.fl.toNat 8 = out)
  && decide (t.localCode f.imm.toNat 64 64 = 0) && decide (s.node.scanCode t f raw form out = 0)
  && decide (t.localCode k.qoff (exactSize k.vf k.dim) 64 = 0) && (fn != 0 || decide (t.localCode k.loff (16 * k.m) 64 = 0))
  && (fn != 1 || decide (t.localCode k.loff (256 * min k.m 128) 64 = 0))

theorem scan_ready {s : State} {fn fl form : Nat} {f : F4} {t : Thread} {out : Bool} (h : scanArgsOk s fn fl form f t out = true) :
    ScanReady s th0 fn fl form f t ctxPin out := by
  simp only [scanArgsOk, Bool.and_eq_true, Bool.or_eq_true, bne_iff_ne, ne_eq, decide_eq_true_eq] at h
  obtain ⟨⟨⟨⟨⟨⟨⟨⟨h1, h2⟩, h3⟩, h4⟩, h5⟩, h6⟩, h7⟩, h8⟩, h9⟩ := h
  exact ⟨ready4 h1 h2 _ _ _, h3, h4, h5, h6, h7, fun e => h8.resolve_left fun k => k e, fun e => h9.resolve_left fun k => k e⟩

def isOk {α : Type} : Except Nat α → Bool
  | .ok _ => true
  | .error _ => false

/-- What a segment scan of format `v` (of `m` subspaces) meets: PQ4, PQ8, and exact vectors of format 0. -/
def meetsSegment (fn fl v m : Nat) : Prop :=
  let f := fScan 0
  let t := tScan refAt (scanBytes m 0 0x80 0)
  let s := at' (nScan v t)
  let k := readScanBlk (t.localRead f.imm.toNat 64)
  let h := segHead v
  let el : Bytes := natLe 8 segAt ++ natLe 8 (segAt + h.offTomb)
  let r := s.node.tierRead ctxPin.reader (t.reg f.ra) 16
  let r' := r.2.tierRead ctxPin.reader segAt 64
  let c' := Node.scanArgs t ctxPin k 1
  let bs := strided (t.reg f.rb) (t.reg f.rc) (f.fl.toNat % 64 + 1) (slotCount h.count / 32)
  ScanReady s th0 fn fl 0 f t ctxPin false ∧ scanPin ctxPin k = some pin1 ∧ bitAt (t.reg f.ra) 63 = false
  ∧ t.addrCode true false (t.reg f.ra) 16 = 0 ∧ s.node.mustWait 0 (t.reg f.ra, 16) = false ∧ r.1 = .ok el ∧ getLe el 0 8 = segAt
  ∧ r.2.mustWait 0 (segAt, 64) = false ∧ isOk r'.1 = true ∧ r'.2.seg 5 segAt = some h ∧ h.dim = k.dim
  ∧ h.pqM = k.m ∧ fld h.fmt 4 2 = k.met ∧ fld h.fmt 0 4 = v ∧ h.birth ≤ 1 ∧ k.foff = 0xFFFFFFFF
  ∧ r'.2.listOf t f.h.toNat = some (2, listH) ∧ (∀ p ∈ bs.flatMap (c'.segParts segAt (getLe el 8 8) h v), r'.2.mustWait 0 p = false)
  ∧ ∃ (g : Gather) (n : Node), gatherAll (Node.segBlock c' segAt (getLe el 8 8) h v (if v = 0 then 2 else 0)
        (fun b j => if v = 7 ∨ v = 8 then pqDist (t.lut k (if v = 8 then 256 else 16)) (blockCodes v k.m b j)
          else exactDist k.vf k.met k.dim c'.q (slice b (exactSize k.vf k.dim * j) (exactSize k.vf k.dim)))) bs r'.2
      (startGather (some (2, listH))) = ((0, g), n)

/-- The side form and the centroid form, the latter to a list and to memory. -/
def sideBytes : Bytes := natLe 8 segAt ++ natLe 8 segAt ++ natLe 8 0 ++ natLe 8 segAt ++ natLe 4 0 ++ natLe 4 1 ++ List.replicate 24 0
def tSide : Thread := { tScan 128 (scanBytes 0 0 0x80 0) with sram := cellWrite (cellWrite [] 0 (scanBytes 0 0 0x80 0)) 128 sideBytes }

theorem fst_eq {α β : Type} {p : α × β} {a : α} (h : p.1 = a) : p = (a, p.2) := by rw [← h]

theorem fst_fst {α β : Type} {p : (Nat × α) × β} (h : p.1.1 = 0) : p = ((0, p.1.2), p.2) := by rw [← h]

/-- The node of a write that succeeds. -/
def got : Except Nat Node → Node
  | .ok n => n
  | .error _ => n0

theorem got_eq {e : Except Nat Node} (h : isOk e = true) : e = .ok (got e) := by
  cases e with
  | ok n => rfl
  | error c => cases h

def fSide : F4 := fScan 0x40
def nSide : Node := (run (withObj nMem [(0, 1), (8, 77)]) tSide ctxPin).setList 2 listH

/-- One entry of a side list. -/
def meetsSide : Prop :=
  let t := { tSide with sram := cellWrite tSide.sram 128 (natLe 8 segAt ++ natLe 8 (segAt + 64) ++ natLe 8 0 ++ natLe 8 (segAt + 128) ++ natLe 4 0 ++ natLe 4 1) }
  let s := at' (nSide.setThread 0 t)
  let k := readScanBlk (t.localRead fSide.imm.toNat 64)
  let sp := readSpan (t.localRead (t.reg fSide.ra) 64)
  let c := Node.scanArgs t ctxPin k 1
  let gs := strided (t.reg fSide.rb) (t.reg fSide.rc) (fSide.fl.toNat % 64 + 1) (ceilDiv (sp.last - sp.first) 32)
  ScanReady s th0 2 0x1FF 1 fSide t ctxPin false ∧ scanPin ctxPin k = some pin1 ∧ t.localCode (t.reg fSide.ra) 64 64 = 0
  ∧ zeros (t.localRead (t.reg fSide.ra) 64) 40 24 = true ∧ (Node.scanArgs t ctxPin k 1).filter.preds = []
  ∧ s.node.listOf t fSide.h.toNat = some (2, listH) ∧ sp.last - sp.first = 1
  ∧ (∀ o ∈ gs.flatMap sp.ords, ∀ r ∈ (sp.rcd + 32 * o, 32) :: c.sideParts sp o, s.node.mustWait 0 r = false)
  ∧ ∃ (g : Gather) (n : Node), gatherAll (Node.sideGroup c t ctxPin sp) gs s.node (startGather (some (2, listH))) = ((0, g), n)

/-- One centroid, to a list or to memory. -/
def meetsCentroids (out : Bool) : Prop :=
  let f := fScan (if out then 0x180 else 0x80)
  let t := tScan segAt (scanBytes 0 0 0 1 (if out then 4096 else 0))
  let s := at' (nSide.setThread 0 t)
  let k := readScanBlk (t.localRead f.imm.toNat 64)
  let q := t.localRead k.qoff (exactSize k.vf k.dim)
  ScanReady s th0 2 0x1FF 2 f t ctxPin out ∧ t.addrCode true false (t.reg f.ra) 64 = 0 ∧ (out = true → t.addrCode true false k.kout 4 = 0)
  ∧ (∀ b ∈ strided (t.reg f.rb) (t.reg f.rc) (f.fl.toNat % 64 + 1) (ceilDiv k.ccount 32),
      s.node.mustWait 0 (t.reg f.ra + 32 * b * exactSize k.vf k.dim, 32 * exactSize k.vf k.dim) = false
      ∧ (out = true → s.node.mustWait 0 (k.kout + 128 * b, 128) = false))
  ∧ (out = false → s.node.listOf t f.h.toNat = some (2, listH))
  ∧ ∃ (ns ms : Nat → Node) (vs : Nat → Bytes), ns 0 = s.node ∧ ∀ i b,
      (strided (t.reg f.rb) (t.reg f.rc) (f.fl.toNat % 64 + 1) (ceilDiv k.ccount 32))[i]? = some b →
      (ns i).uniRead t ctxPin (t.reg f.ra + 32 * b * exactSize k.vf k.dim) ((centroidKeys k q (vs i) b).length * exactSize k.vf k.dim) = (.ok (vs i), ms i)
      ∧ (if out then (ms i).uniWrite (thrNo th0) t ctxPin (k.kout + 128 * b) ((centroidKeys k q (vs i) b).flatMap fun p => natLe 4 p.2) = .ok (ns (i + 1))
          else ns (i + 1) = ms i)

theorem meets_centroids_list : meetsCentroids false := by
  refine ⟨scan_ready (by decide +kernel), by decide +kernel, (fun h => by cases h), by decide +kernel, fun _ => by decide +kernel, ?_⟩
  refine ⟨fun i => if i = 0 then nSide.setThread 0 (tScan segAt (scanBytes 0 0 0 1)) else
      ((nSide.setThread 0 (tScan segAt (scanBytes 0 0 0 1))).uniRead (tScan segAt (scanBytes 0 0 0 1)) ctxPin segAt 64).2,
    fun _ => ((nSide.setThread 0 (tScan segAt (scanBytes 0 0 0 1))).uniRead (tScan segAt (scanBytes 0 0 0 1)) ctxPin segAt 64).2,
    fun _ => natLe 8 1 ++ natLe 8 77 ++ List.replicate 48 0, rfl, fun i b h => ?_⟩
  have hs : strided ((tScan segAt (scanBytes 0 0 0 1)).reg (fScan 0x80).rb) ((tScan segAt (scanBytes 0 0 0 1)).reg (fScan 0x80).rc)
      ((fScan 0x80).fl.toNat % 64 + 1) (ceilDiv (readScanBlk ((tScan segAt (scanBytes 0 0 0 1)).localRead 0 64)).ccount 32) = [0] := by decide +kernel
  have h : ([0] : List Nat)[i]? = some b := hs ▸ h
  match i, h with
  | 0, h => cases h; decide +kernel

theorem meets_centroids_memory : meetsCentroids true := by
  refine ⟨scan_ready (by decide +kernel), by decide +kernel, fun _ => by decide +kernel, by decide +kernel, (fun h => by cases h), ?_⟩
  let t := tScan segAt (scanBytes 0 0 0 1 4096)
  let n := nSide.setThread 0 t
  let v : Bytes := natLe 8 1 ++ natLe 8 77 ++ List.replicate 48 0
  let k := readScanBlk (t.localRead 0 64)
  let m := (n.uniRead t ctxPin segAt 64).2
  refine ⟨fun i => if i = 0 then n else got (m.uniWrite 0 t ctxPin 4096 ((centroidKeys k (t.localRead k.qoff 64) v 0).flatMap fun p => natLe 4 p.2)),
    fun _ => m, fun _ => v, rfl, fun i b h => ?_⟩
  have hs : strided (t.reg (fScan 0x180).rb) (t.reg (fScan 0x180).rc) ((fScan 0x180).fl.toNat % 64 + 1) (ceilDiv k.ccount 32) = [0] := by decide +kernel
  have h : ([0] : List Nat)[i]? = some b := hs ▸ h
  match i, h with
  | 0, h => cases h; decide +kernel

theorem meets_pq4 : meetsSegment 0 0xFF 7 8 := by
  refine ⟨scan_ready (by decide +kernel), by decide +kernel, by decide +kernel, by decide +kernel, by decide +kernel, by decide +kernel,
    by decide +kernel, by decide +kernel, by decide +kernel, by decide +kernel, by decide +kernel, by decide +kernel, by decide +kernel,
    by decide +kernel, by decide +kernel, by decide +kernel, by decide +kernel, by decide +kernel, _, _, fst_fst ?_⟩
  decide +kernel

theorem meets_pq8 : meetsSegment 1 0xFF 8 8 := by
  refine ⟨scan_ready (by decide +kernel), by decide +kernel, by decide +kernel, by decide +kernel, by decide +kernel, by decide +kernel,
    by decide +kernel, by decide +kernel, by decide +kernel, by decide +kernel, by decide +kernel, by decide +kernel, by decide +kernel,
    by decide +kernel, by decide +kernel, by decide +kernel, by decide +kernel, by decide +kernel, _, _, fst_fst ?_⟩
  decide +kernel

theorem meets_exact : meetsSegment 2 0x1FF 0 0 := by
  refine ⟨scan_ready (by decide +kernel), by decide +kernel, by decide +kernel, by decide +kernel, by decide +kernel, by decide +kernel,
    by decide +kernel, by decide +kernel, by decide +kernel, by decide +kernel, by decide +kernel, by decide +kernel, by decide +kernel,
    by decide +kernel, by decide +kernel, by decide +kernel, by decide +kernel, by decide +kernel, _, _, fst_fst ?_⟩
  decide +kernel

theorem meets_side : meetsSide := by
  refine ⟨scan_ready (by decide +kernel), by decide +kernel, by decide +kernel, by decide +kernel, by decide +kernel, by decide +kernel,
    by decide +kernel, by decide +kernel, _, _, fst_fst ?_⟩
  decide +kernel

/-- PQ4, PQ8 and exact segments of one vector; a side list of one entry; one centroid to a list and to memory. -/
theorem witness_ScanInstructionResults : meetsSegment 0 0xFF 7 8 ∧ meetsSegment 1 0xFF 8 8 ∧ meetsSegment 2 0x1FF 0 0 ∧ meetsSide
    ∧ meetsCentroids false ∧ meetsCentroids true :=
  ⟨meets_pq4, meets_pq8, meets_exact, meets_side, meets_centroids_list, meets_centroids_memory⟩

/-! ### Filters, tables, lists, generations (07) -/

theorem ok_of {α : Type} {e : Except Nat α} (h : isOk e = true) : ∃ x, e = .ok x := by
  cases e with
  | ok x => exact ⟨x, rfl⟩
  | error c => cases h

theorem isSome_of {α : Type} {o : Option α} (h : o.isSome = true) : ∃ x, o = some x := Option.isSome_iff_exists.mp h

/-- Sixteen predicates, one term; a filter state at the end of the pages. -/
theorem witness_SearchInstructionResults_filters :
    let f : F4 := { ra := 1, rb := 2, rc := 4, h := 0, k := 0, fl := 1, imm := 7616 }
    let t := { tr [(1, 1024), (2, 2048), (4, 272)] with
      sram := ((List.range 16).flatMap fun i => [(1024 + 32 * i, 1), (1027 + 32 * i, 1)]) ++ [(2048, 1), (2050, 1)] }
    let n := run nMem t ctx5
    let preds := t.localRead 1024 512
    Ready4 (at' n) th0 0x5A 0 f 1 [f.ra, f.rb, f.rc] t ctx5 ∧ t.reg f.rc % 32 = 16 ∧ fld (t.reg f.rc) 8 4 = 1
    ∧ t.operandCode true (t.reg f.ra) 512 1 = 0 ∧ t.localCode (t.reg f.rb) 32 4 = 0 ∧ n.operand t ctx5 true (t.reg f.ra) 512 = (.ok preds, n)
    ∧ (∀ i, i < 16 → predOk true (slice preds (32 * i) 32) = true) ∧ termsOk 16 1 (t.localRead (t.reg f.rb) 32) = true ∧ filterBytes 16 preds = 512
    ∧ t.localCode (t.reg f.ra) 512 1 = 0
    ∧ t.localCode f.imm.toNat (filterImage 16 1 preds (t.localRead (t.reg f.rb) 32)).length 1 = 0 := by
  refine ⟨ready4 (by decide +kernel) (by decide) _ _ _, by decide +kernel, by decide +kernel, by decide +kernel, by decide +kernel, rfl, ?_⟩
  decide +kernel

/-- A table of 8 subspaces of 16 entries, from a codebook in the tenant's region. -/
theorem witness_SearchInstructionResults_tables :
    let f : F4 := { ra := 0, rb := 0, rc := 0, h := 0, k := 0, fl := 0, imm := 0 }
    let t := { tr [] with sram := cellWrite [] 0 (scanBytes 8 0 0 0) }
    let n := run nMem t ctx5
    let k := readScanBlk (t.localRead 0 64)
    let q := t.localRead k.qoff (exactSize k.vf k.dim)
    let cb : Bytes := List.replicate 512 0
    Ready4 (at' n) th0 0x58 0 f 1 [f.ra] t ctx5 ∧ t.addrCode true false (t.reg f.ra) 4 = 0 ∧ t.localCode 0 64 64 = 0
    ∧ scanBlkOk (t.localRead 0 64) false false = true ∧ k.m ≠ 0 ∧ t.localCode k.qoff (exactSize k.vf k.dim) 64 = 0
    ∧ t.localCode k.loff (k.m * 16) 64 = 0 ∧ n.mustWait 0 (t.reg f.ra, 4 * k.dim * 16) = false
    ∧ (n.uniRead t ctx5 (t.reg f.ra) (4 * k.dim * 16)).1 = .ok cb
    ∧ (lutBuild k.met k.m (k.dim / k.m) 16 ((elems32 k.vf q).take k.dim) ((List.range (16 * k.dim)).map fun i => getLe cb (4 * i) 4)).valid = true := by
  refine ⟨ready4 (by decide +kernel) (by decide) _ _ _, ?_⟩
  decide +kernel

/-- A node with a list of the gang, a thread that has it as h0, and one that has not. -/
def ctxList : Ctx := { ctx5 with lists := [(0, 2)], slotRefs := [63] }
def nList (t : Thread) (x : Ctx) : Node := (run nMem t x).setList 2 listH
def fl0 (fl : BitVec 13) : F4 := { ra := 1, rb := 2, rc := 4, h := 0, k := 0, fl := fl, imm := 63 }

/-- TOPK.INIT that attaches, and one of 4,096 entries on a free hub; a push with the last tile; a merge of one entry; an emit; a
FREE of a list and of slot 63. -/
theorem witness_SearchInstructionResults_lists :
    (let t := tr [(1, 64)]
     Ready4 (at' (nList t ctxList)) th0 0x5C 0 (fl0 0) 0 [1] t ctxList ∧ 1 ≤ t.reg 1 ∧ t.reg 1 ≤ 4096 ∧ (nList t ctxList).listOf t 0 = none
      ∧ (nList t ctxList).gangList ctxList 0 = some (2, listH) ∧ listH.list.cap = t.reg 1)
    ∧ (let t := tr [(1, 4096)]
     let n := run n0 t ctx5
     Ready4 (at' n) th0 0x5C 0 (fl0 0) 0 [1] t ctx5 ∧ 1 ≤ t.reg 1 ∧ t.reg 1 ≤ 4096 ∧ n.listOf t 0 = none ∧ n.gangList ctx5 0 = none
      ∧ n.hubWaits ctx5.hub = [] ∧ placeBlocks (n.freeBlocks ctx5.hub) (t.reg 1) = some [16, 16, 16, 16])
    ∧ (let t := { tr [(1, BitVec.ofNat 64 (7 * 2 ^ 32 + 9)), (2, 5)] with h := [(0, 2)] }
     Ready4 (at' (nList t ctxList)) th0 0x5C 1 (fl0 0) 0 [1, 2] t ctxList ∧ (nList t ctxList).listOf t 0 = some (2, listH)
      ∧ fld (t.reg 1) 0 32 ≠ padKey ∧ fld (t.reg 1) 32 16 < 8)
    ∧ (let t := { tr [(2, 1)] with h := [(0, 2)] }
     Ready4 (at' (nList t ctxList)) th0 0x5C 2 (fl0 0) 1 [1, 2, 4] t ctxList ∧ t.reg 2 ≤ 4096 ∧ t.operandCode false (t.reg 1) (16 * t.reg 2) 16 = 0
      ∧ (nList t ctxList).listOf t 0 = some (2, listH) ∧ (nList t ctxList).mustWait 0 (t.reg 1, 16 * t.reg 2) = false
      ∧ ((nList t ctxList).operand t ctxList false (t.reg 1) (16 * t.reg 2)).1 = .ok (List.replicate 16 0))
    ∧ (let t := { tr [(1, 8128)] with h := [(0, 2)] }
     Ready4 (at' (nList t ctxList)) th0 0x5C 3 (fl0 3) 3 [1] t ctxList ∧ t.operandCode true (t.reg 1) 32 64 = 0
      ∧ (nList t ctxList).listOf t 0 = some (2, listH))
    ∧ (let t := { tr [] with h := [(0, 2)] }
     Ready4 (at' (nList t ctxList)) th0 0x6F 0 (fl0 0) 3 [] t ctxList ∧ (fl0 0).fl.toNat % 4 = 0 ∧ (nList t ctxList).listOf t 0 = some (2, listH)
      ∧ Ready4 (at' (nList t ctxList)) th0 0x6F 0 (fl0 1) 3 [] t ctxList ∧ (fl0 1).fl.toNat % 4 = 1
      ∧ ctxList.slotRefs.contains ((fl0 1).imm.toNat % 64) = true) := by
  refine ⟨⟨ready4 (by decide +kernel) (by decide) _ _ _, by decide +kernel⟩, ⟨ready4 (by decide +kernel) (by decide) _ _ _, by decide +kernel⟩,
    ⟨ready4 (by decide +kernel) (by decide) _ _ _, by decide +kernel⟩, ⟨ready4 (by decide +kernel) (by decide) _ _ _, by decide +kernel⟩,
    ⟨ready4 (by decide +kernel) (by decide) _ _ _, by decide +kernel⟩,
    ⟨ready4 (by decide +kernel) (by decide) _ _ _, by decide +kernel, by decide +kernel, ready4 (by decide +kernel) (by decide) _ _ _, by decide +kernel⟩⟩

/-- ARGMAX over one F32; grants of a whole unit to ARGMAX and of a block to TOPK.INIT. -/
theorem witness_SearchInstructionResults_argmax :
    (let t := tr [(2, 1)]
     let f : F1 := { f1 with ra := 1, rb := 2, rc := 4, et := 10 }
     let n := run nMem t ctx5
     Ready1 (at' n) th0 0x10 0 f [f.ra, f.rb] t ctx5 ∧ f.rc ≠ f.rd ∧ f.rc ≠ 0 ∧ n.pendingReg (thrNo th0) (.s f.rc.toNat) = false
      ∧ argFmt f.et.toNat = some (0, 4) ∧ t.addrCode true false (t.reg f.ra) 4 = 0 ∧ 1 ≤ t.reg f.rb ∧ t.reg f.rb ≤ 2 ^ 24
      ∧ (n.freeBlocks ctx5.hub).getD 3 0 = 16 ∧ n.hubWaits ctx5.hub = []
      ∧ n.mustWait 0 (t.reg f.ra, t.reg f.rb * 4) = false
      ∧ (n.uniRead t ctx5 (t.reg f.ra) (t.reg f.rb * 4)).1 = .ok (List.replicate 4 0)
      ∧ (argBest ((List.range (t.reg f.rb)).map fun i => (i, argValue 0 (getLe (List.replicate 4 0) (i * 4) 4)))).isSome = true)
    ∧ (∀ w ∈ [Wait.argmax, Wait.topk 64],
      let t := { tr [] with wait := some w }
      let b : BlockWait := ⟨0, 0, 64⟩
      let n := (run n0 t ctx5).setHubWaits 31 [b]
      n.hubWaits 31 = [b] ∧ n.thread b.thr = some t ∧ n.ctx t.ctx = some ctx5
      ∧ (t.wait = some .argmax → (List.range 4).find? (fun u => (n.freeBlocks 31).getD u 0 == 16) = some 0)
      ∧ (t.wait ≠ some .argmax → (n.initList b.thr t ctx5 b.handle b.cap).map (·.1) = some 0)) := by
  refine ⟨⟨ready1 (by decide +kernel) (by decide) _ _ _, by decide +kernel⟩, ?_⟩
  decide +kernel

/-! ## Witnesses: shards, seals, merge sessions (02, 04) -/

/-- A shard of tenant 5: PQ4, 8 subspaces, dimension 8, all 2^21 - 1 partitions. -/
def shard5 : Shard :=
  { id := shId, inst := 0, params := { vfSeg := 7, vfEx := 0, met := 0, d := 8, m := 8, p := 2097151, c := 1, ablk := false }, centroids := [], codebook := []
    plan := none, openGen := 2, sides := [], segSerial := 0 }
def gen1 (st pins : Nat) (m : KList PartEntry) : GenRec :=
  { inst := 0, parts := 2097151, leaves := [], gen := 1, state := st, compaction := false, draining := false, shard := shId, sealTime := 0, pmap := 0, pins := pins, live := 0, entries := 0, map := m }

/-- A node that pairs the shard with node 1. -/
def nPaired (n : Node) : Node := { n with peloton := { n.peloton with shardMap := [{ id := shId, primary := 0, standby := some 1 }] } }

/-- A node whose flash works and that has this shard and these generations. -/
def nShard (x : Shard) (g : List GenRec) : Node :=
  { nMem with index := { nMem.index with shards := [x], gens := g }, flash := { nMem.flash with popOk := true } }

/-- The key of that shard in a register. -/
def key5 : W64 := BitVec.ofNat 64 (12 + 4096)
def pins15 : KList Pin := (List.range 15).map fun i => (i, pin1)

/-- A pin of the newest generation at the last handle and the last pin count; an unpin; a seal; an append to the last partition. -/
theorem witness_GenerationInstructionResults :
    (let t := tr [(1, key5), (2, BitVec.allOnes 64)]
     let x := { ctx5 with pins := pins15 }
     let n := run (nShard shard5 [gen1 2 1048574 []]) t x
     Ready1 (at' n) th0 0x12 0 fq [fq.ra, fq.rb] t x ∧ fq.et = 0 ∧ n.shardKey x (t.reg fq.ra) = .ok shard5
      ∧ (t.reg fq.rb < 2 ^ 48 ∨ t.reg fq.rb = 2 ^ 64 - 1) ∧ n.pinTarget shard5.id (t.reg fq.rb) = some (gen1 2 1048574 []) ∧ x.freeHandle = some 15
      ∧ (gen1 2 1048574 []).pins < 1048575)
    ∧ (let t := tr [(1, 14)]
     let x := { ctx5 with pins := pins15 }
     Ready1 (at' (run (nShard shard5 []) t x)) th0 0x12 1 fq [fq.ra] t x ∧ KList.find? x.pins (t.reg fq.ra % 16) = some pin1)
    ∧ (let t := tr [(1, key5)]
     let n := run (nShard shard5 []) t ctx5
     Ready1 (at' n) th0 0x12 2 fq [fq.ra] t ctx5 ∧ n.shardKey ctx5 (t.reg fq.ra) = .ok shard5 ∧ MayAsk n shard5.id)
    ∧ (∀ pair ∈ [false, true], let t := { tr [(1, key5), (2, 2097150), (4, 8064)] with sram := [(8064, 1), (8072, 77), (8078, 1)] }
     let n := run (if pair then nPaired (nShard shard5 []) else nShard shard5 []) t ctx5
     let raw := t.localRead (t.reg fq.rc) (appendBytes shard5.params (t.localRead (t.reg fq.rc) 32))
     Ready1 (at' n) th0 0x13 0 fq [fq.ra, fq.rb, fq.rc] t ctx5 ∧ t.localCode (t.reg fq.rc) 32 64 = 0 ∧ n.shardKey ctx5 (t.reg fq.ra) = .ok shard5
      ∧ t.localCode (t.reg fq.rc) (appendBytes shard5.params (t.localRead (t.reg fq.rc) 32)) 64 = 0 ∧ Appends n shard5 (t.reg fq.rb) raw
      ∧ n.paired shId = pair) := by
  refine ⟨⟨ready1 (by decide +kernel) (by decide) _ _ _, by decide +kernel⟩, ⟨ready1 (by decide +kernel) (by decide) _ _ _, by decide +kernel⟩,
    ⟨ready1 (by decide +kernel) (by decide) _ _ _, by decide +kernel, by unfold MayAsk; decide +kernel⟩, fun p h => ?_⟩
  simp only [List.mem_cons, List.not_mem_nil, or_false] at h
  unfold Appends
  rcases h with rfl | rfl <;>
    exact ⟨ready1 (by decide +kernel) (by decide) _ _ _, by decide +kernel, by decide +kernel, by decide +kernel, by decide +kernel, by decide +kernel⟩

/-- An item with its flags, its count and its arguments; queue 3 is its queue. -/
def item (op fl cnt : Nat) (args : List Nat) (rest : Bytes := []) : Item :=
  { q := 3, slots := 1, bytes := slice (natLe 1 op ++ natLe 1 fl ++ natLe 2 0 ++ natLe 4 cnt ++ args.flatMap (natLe 8)) 0 128 ++ rest, fwd := false, src := 0
    checked := true, cost := 0, reserve := 0 }
def adm (i : Item) : Admitted := { item := i, tAdmit := 0, clkAdmit := 0, seq := 0 }

/-- Queue 3 is of tenant 5 (or, with `sys`, of the system context), and this item is the next that it runs. -/
def withM (n : Node) (i : Item) (sys : Bool := false) : Node :=
  (n.setReg .qcfg 3 (2 ^ 63 + 5 * 2 ^ 47 + (if sys then 2 ^ 57 else 0))).setQueue 3 { emptyQueue with mItems := [adm i] }

/-- The APPEND item of one vector, its bytes inline, and its node. -/
def apItem : Item := item 0x11 1 1 [12 + 4096, 2097150] ([1, 0, 0, 0, 0, 0, 0, 0, 77, 0, 0, 0, 0, 0, 1, 0] ++ List.replicate 80 0)
def ctxAp : Ctx := { ctx5 with adm := some (adm apItem), op := 0x11 }
def nAp (pair : Bool) : Node := run (withM (if pair then nPaired (nShard shard5 []) else nShard shard5 []) apItem) t5 ctxAp

/-- SEAL; INDEX_CREATE of an exact shard of one centroid; INDEX_DROP; MERGE_PLAN of one position; an inline APPEND of one vector,
on an unpaired shard and on a paired one. -/
theorem witness_ShardItemResults :
    (let i := item 0x12 0 0 [12 + 4096]
     let n := withM (nShard shard5 []) i
     n.mHead 3 0x12 = some (adm i) ∧ (n.shard (shardOfKey (n.qcfg 3).tid (i.arg 0))).isSome = true
      ∧ MayAsk n (shardOfKey (n.qcfg 3).tid (i.arg 0)))
    ∧ (let i := item 0x13 0 1 [13 + 4096, 8 * 2 ^ 11 + 2 ^ 33, 0, 0, 0]
     let n := withM (nShard shard5 []) i
     let sh := shardOfKey (n.qcfg 3).tid (i.arg 0)
     let p := createParams (i.arg 1) i.count
     n.mHead 3 0x13 = some (adm i) ∧ n.shard sh = none ∧ n.recFree sh 0 = true ∧ n.rangeCode (shOwner sh) (i.arg 2) (p.c * (p.exact + 8)) = 0
      ∧ p.isPq = false ∧ (∀ j, j < p.c → tagCode sh p.p (getLe (n.read (shOwner sh) (i.arg 2) (p.c * (p.exact + 8))) (p.c * p.exact + 8 * j) 8) = 0)
      ∧ i.arg 4 = 0)
    ∧ (let i := item 0x14 0 0 [12 + 4096]
     let n := withM (nShard shard5 []) i
     n.mHead 3 0x14 = some (adm i) ∧ (n.shard (shardOfKey (n.qcfg 3).tid (i.arg 0))).isSome = true)
    ∧ (let i := item 0x15 0 0 [12 + 4096 + 5 * 2 ^ 28, 0]
     let n := withM ((nShard shard5 []).write 5 0 [0, 0, 0, 0, 1, 0, 0, 0, 64]) i true
     n.mHead 3 0x15 = some (adm i) ∧ n.shard (shardOfKey (fld (i.arg 0) 28 10) (i.arg 0)) = some shard5 ∧ isOk (n.readPlan 5 (i.arg 1)) = true)
    ∧ (∀ pair ∈ [false, true], let n := nAp pair
     let raw := apItem.bytes.drop 128
     n.ctx 7 = some ctxAp ∧ ctxAp.adm = some (adm apItem) ∧ ctxAp.op = 0x11 ∧ ctxAp.gangSize ≠ 0 ∧ n.dataUp = true
      ∧ shardOfKey (n.qcfg 3).tid (apItem.arg 0) = shId ∧ n.shard shId = some shard5 ∧ n.appendElem shard5 apItem 0 = .ok (2097150, raw)
      ∧ Appends n shard5 2097150 raw ∧ n.paired shId = pair ∧ grown (n.shard shId) ((appended n shard5 2097150 raw).shard shId) ≠ []) := by
  unfold MayAsk Appends
  refine ⟨by decide +kernel, by decide +kernel, by decide +kernel, by decide +kernel, by decide +kernel⟩

def streams0 : Streams := { recs := segAt, vec := segAt + 2 ^ 25, blk := 0, code := segAt + 2 ^ 27, base := 0 }
def side (next : Nat) : SideList := { st := streams0, next := next }
def sealQ (closed : Bool) : SealReq :=
  { shard := shId, waiters := [], closed := closed, gen := 1, part := none, since := 0, persisted := false, standbyOk := false }
def withSeal (n : Node) (q : SealReq) : Node := { n with index := { n.index with seals := [q] } }
def entry0 : PartEntry := { st := streams0, segList := 0, segs := [], sideFirst := 0, sideEnd := 1024, sideMap := 0, sideBits := 0 }
def comp0 : Compaction := { shard := shId, part := 0, gen := 1, pinned := true, carried := false, sideEnd := 0, segs := [], origin := [] }
def fb (pool filled : Nat) : FBlock := { pool := pool, erases := 0, reads := 0, next := filled, isOpen := false, units := [], filled := filled, refreshed := none }

/-- A seal that closes, and one of nothing new; a commit; a compaction at its first due entry, and its seal; a seal-area block. -/
theorem witness_SealAndCompactionResults :
    (let x := { shard5 with sides := [(0, side 1)] }
     let n := withSeal (nShard x []) (sealQ false)
     n.openSeal shId = some (sealQ false) ∧ n.shard shId = some x ∧ n.closedSeal shId = none ∧ n.linksUp = true ∧ n.mgt.pfPhase = .idle ∧ n.openParts x ≠ []
      ∧ n.recFree shId x.openGen = true)
    ∧ (let n := withSeal (nShard shard5 [gen1 2 0 []]) (sealQ false)
     n.openSeal shId = some (sealQ false) ∧ n.shard shId = some shard5 ∧ n.closedSeal shId = none ∧ n.linksUp = true ∧ n.mgt.pfPhase = .idle
      ∧ n.openParts shard5 = [] ∧ n.compactionsOf (sealQ false) = [])
    ∧ (∀ p ∈ [(false, false), (false, true), (true, true)],
     let q := { sealQ true with standbyOk := p.1, persisted := p.2 }
     let n := withSeal (nShard shard5 [gen1 1 0 []]) q
     let n := if p.1 then nPaired n else n
     n.closedSeal shId = some q ∧ n.shard shId = some shard5 ∧ n.genOf 0 q.gen = some (gen1 1 0 []) ∧ n.linksUp = true ∧ n.mgt.pfPhase = .idle
      ∧ n.flashWriteCode (shOwner shId) = 0 ∧ n.follows shId = none ∧ (n.paired shId = false ∨ q.standbyOk = true) ∧ n.paired shId = p.1
      ∧ q.persisted = p.2)
    ∧ (let x := { shard5 with sides := [(0, side 1024)] }
     let g := gen1 2 1048574 [(0, entry0)]
     let n := (nShard x [g]).setReg .genCfg 0 (2 ^ 8)
     let n : Node := { n with adm := { n.adm with gateOpen := true } }
     n.shard shId = some x ∧ n.newest shId = some g ∧ n.compactDue x 0 = true ∧ n.adm.gateOpen = true ∧ n.dataUp = true ∧ g.pins < 1048575
      ∧ n.follows shId = none ∧ n.index.compactions = [])
    ∧ (let n : Node := { nShard shard5 [gen1 2 1 []] with index := { (nShard shard5 [gen1 2 1 []]).index with compactions := [comp0] } }
     n.shard shId = some shard5 ∧ comp0 ∈ n.index.compactions ∧ comp0.shard = shId ∧ comp0.part = 0 ∧ n.index.seals = []
      ∧ n.recFree shId shard5.openGen = true ∧ n.dataUp = true)
    ∧ (let n : Node := { nShard shard5 [] with flash := { (nShard shard5 []).flash with blocks := [(blkKey 1 7, fb 3 1)] } }
     List.find? (fun (b : Nat × FBlock) => b.2.pool == 3 && b.2.filled != 0) n.flash.blocks = some (blkKey 1 7, fb 3 1) ∧ n.mapRoom = true
      ∧ n.flash.readOnly = false ∧ n.dataUp = true) :=
  ⟨by decide +kernel, by decide +kernel, by decide +kernel, by decide +kernel, by decide +kernel, by decide +kernel⟩

/-- A query, its context, a merge message and a session. -/
def qry (fw : Bool) : Query := { noQuery [] with forwarded := fw, qtag := 32768 + 7, sentAt := if fw then some 0 else none }
def ctxQ (fw : Bool) : Ctx := { ctx5 with query := some (qry fw), threads := [] }
def msg (tag pos : Nat) : MergeMsg :=
  { status := 0, cond := 0, nposIn := 1, gen := 1, src := 2, qtag := tag, dropKey := padKey, scanned := 0, filtered := 0, tombstoned := 0, pos := pos
    entries := [] }
def sess (waits : List Nat) : MergeSession :=
  { ctx := 7, pos := 0, coord := true, waits := waits, own := false, inputs := [], missing := false, reservedAt := 0, relTmo := 0 }
def nSel (f : Sel → Sel) : Node := let n := n0.setCtx 7 (ctxQ false); { n with sel := f n.sel }

/-- The node merger; a session reserved; a stream taken, held, and missed; a session closed, and one that gives up; a held stream
and a forwarded query that are over. -/
theorem witness_MergeSessionResults :
    ((nSel id).ctx 7 = some (ctxQ false) ∧ (ctxQ false).query = some (qry false) ∧ (ctxQ false).gangSize ≠ 0 ∧ (ctxQ false).threads = []
      ∧ (qry false).partialList = none ∧ (nSel id).dataUp = true ∧ (nSel id).ownTurn 0 = true)
    ∧ (let n := nSel fun l => { l with msWait := [7] }
     n.sel.msWait = [7] ∧ n.ctx 7 = some (ctxQ false) ∧ n.sel.sessions.length < 4096 ∧ n.sessFull 5 = false)
    ∧ (let n := nSel fun l => { l with sessions := [(32775, sess [1])] }
     (n.sessionsOf 32775).find? (fun p => p.2.takes 1) = some (32775, sess [1])
      ∧ (n.sessionsOf 32775).find? (fun p => n.sessionDue p.2 && !p.2.absent.isEmpty) = some (32775, sess [1]))
    ∧ (((nSel id).sessionsOf 32776).find? (fun p => p.2.takes 1) = none ∧ (nSel id).lateFor 32776 1 = none ∧ (nSel id).mayReserve 32776 = true)
    ∧ (((nSel id).sessionsOf 8).find? (fun p => p.2.takes 1) = none ∧ (nSel id).lateFor 8 1 = none ∧ (nSel id).mayReserve 8 = false)
    ∧ (let n := nSel fun l => { l with sessions := [(32775, sess [])] }
     (n.sessionsOf 32775).find? (fun p => p.2.complete (n.ownIsReady p.2)) = some (32775, sess []))
    ∧ (let h : HeldStream := { msg := msg 32776 1, since := 0, relTmo := 0 }
     let n := nSel fun l => { l with held := [h] }
     n.sel.held.find? (fun h => h.msg.qtag == 32776 && n.passed h.since (1000 * h.relTmo)) = some h)
    ∧ (((n0.setCtx 7 (ctxQ true)).ctx 7).bind (·.query) = some (qry true) ∧ (qry true).sentAt = some 0 ∧ (qry true).forwarded = true
      ∧ (n0.setCtx 7 (ctxQ true)).passed 0 (1000 * (qry true).relTmo) = true) := by decide +kernel

/-! ## Witnesses: tables, locks, memory of hosts (07, 08) -/

/-- A table descriptor at 64 of tenant 5's region: one row of one F32, plain SGD, its records at 4,096. -/
def tabCells : List Host.Cell :=
  [(0, 0x54), (1, 0x41), (2, 0x42), (3, 0x4C), (6, 1), (8, 1), (17, 0x10), (24, 64)].map fun (p : Nat × Byte) => (memKey 5 64 + p.1, p.2)
def nTab : Node := { nMem with mem := { nMem.mem with bytes := tabCells } }
def tTab : Thread := tr [(1, 64), (2, 128)]
def fTab (fl : BitVec 13) : F4 := { ra := 1, rb := 2, rc := 4, h := 0, k := 0, fl := fl, imm := 1 }

/-- Its descriptor and operands can be read, and nothing holds them back; it is asynchronous as its flag says. -/
def tabReady (n : Node) (kind : Nat) (f : F4) : Bool :=
  match n.tabHead 0 tTab ctx5 kind f.fl.toNat f.imm.toNat 64 128 0 none with
  | (.ok o, m) => (o.spans 128).all (fun e => !m.mustWait 0 e) && match m.tabFill tTab ctx5 o 128 with
    | (.ok o', m') => o'.async == (decide (2 ≤ kind) && bitAt f.fl.toNat 5) && m'.accessRoom 0 0
    | _ => false
  | _ => false

/-- A thread's table operation of each kind, at the last legal flags; UPDATE also asynchronous. -/
theorem witness_TableResults_threads :
    ∀ p ∈ ([(0, 7, 4), (1, 25, 16), (2, 32, 0), (2, 32, 32), (3, 32, 32)] : List (Nat × Nat × BitVec 13)),
      let f := fTab p.2.2
      let n := run nTab tTab ctx5
      Ready4 (at' n) th0 0x60 p.1 f p.2.1 [1, 2, 4] tTab ctx5 ∧ fld f.fl.toNat 1 2 ≠ 3 ∧ fld f.fl.toNat 3 2 ≠ 3
      ∧ n.dev.func ≠ 3 ∧ n.mustWait 0 (64, 64) = false ∧ tTab.reg 1 = 64 ∧ tTab.reg 2 = 128 ∧ tTab.reg 4 = 0
      ∧ tabReady n p.1 f = true := by
  intro p h
  simp only [List.mem_cons, List.not_mem_nil, or_false] at h
  rcases h with rfl | rfl | rfl | rfl | rfl <;> exact ⟨ready4 (by decide +kernel) (by decide) _ _ _, by decide +kernel⟩

/-- The same as items, without a client entry and with one. -/
def tabItem (op : Nat) : Item := item op 0 1 [64, 128, 0]
def nTabItem (op : Nat) (cli : Bool) : Node :=
  let n := run (withM nTab (tabItem op)) tTab { ctx5 with adm := some (adm (tabItem op)), op := op }
  if cli then (n.setReg .cliId 2 (2 ^ 63 + 5 * 2 ^ 26)).setReg .qcfg 3 (2 ^ 63 + 2 ^ 60 + 5 * 2 ^ 47) else n
theorem witness_TableResults_items :
    ∀ op ∈ [0x18, 0x19, 0x1A, 0x1B], let a := adm (tabItem op)
      ((nTabItem op false).ctx 7).bind (·.adm) = some a ∧ a.item.op = op ∧ ((nTabItem op false).ctx 7).map (·.threads) = some [0]
      ∧ (nTabItem op false).dataUp = true ∧ (nTabItem op false).store.ops = [] ∧ (nTabItem op false).inLine a = false
      ∧ (nTabItem op false).itemClient a.item = none ∧ isOk ((nTabItem op false).itemTab a) = true ∧ (nTabItem op true).itemClient a.item = some 2
      ∧ MayDraw (nTabItem op true) 2 ((nTabItem op true).tabSize a)
      ∧ isOk ((drew (nTabItem op true) 2 ((nTabItem op true).tabSize a)).itemTab a) = true := by
  unfold MayDraw
  decide +kernel

def tabD : TabDesc :=
  { rfmt := 0, opt := 0, elems := 1, rows := 1, base := 4096, rstride := 64, lr := 0, eps := 0, beta1 := 0, beta2 := 0, bc1 := 0, bc2 := 0, repl := false }
def tabO (kind : Nat) : TabOp :=
  { ctx := 7, thr := some 0, kind := kind, desc := tabD, owner := 5, count := 1, indices := [0], recs := [List.replicate 64 0], weights := [], fmt := 0
    mode := 0, dst := 0, dstLocal := true, async := false, item := none, access := none, issued := 0, rows := [] }
def nRow (kind : Nat) : Node :=
  let n := run nMem t5 ctx5
  { n with store := { n.store with ops := [(9, tabO kind)], engines := [(127, [⟨9, 0⟩])] } }

/-- The read of that row. -/
def rowAt (kind : Nat) : Except Nat Bytes × Node := (lessRow (nRow kind) 127 ⟨9, 0⟩).rowRead (tabO kind) 4096

/-- A replicated range of which this node holds a copy, that has applied nothing. -/
def repl5 : Repl := { owner := 5, first := 0, count := 1, primary := 1, replicas := [0], seq := 0 }
def nRepl : Node := { nMem with peloton := { nMem.peloton with repls := [repl5] } }

/-- One row on the last engine, of each kind; engines that are drained; a record one version on, one of the same version, and a
write that is no record. -/
theorem witness_TableResults_rows :
    (∀ p ∈ [(0, [0, 1]), (1, [0, 1]), (2, [2]), (3, [3])],
      RowReady (at' (nRow p.1)) 127 p.2 ⟨9, 0⟩ (tabO p.1) (List.replicate 64 0) (rowAt p.1).2
      ∧ (rowUpdate tabD (List.replicate 64 0) (((tabO p.1).recs.getD 0 []).drop 8)).isSome = true
      ∧ (rowReplace tabD (List.replicate 64 0) ((tabO p.1).recs.getD 0 [])).isSome = true)
    ∧ (let n : Node := { n0 with store := { n0.store with remap := true, engines := [(0, [])] } }
     n.store.remap = true ∧ n.dataUp = true ∧ ∀ p ∈ n.sweepRows.store.engines, p.2 = [])
    ∧ NextWrite nRepl 5 4096 1 repl5
    ∧ (8 ≤ ([0, 0, 0, 0, 1, 0, 0, 0] : Bytes).length ∧ rverNewer (getLe [0, 0, 0, 0, 1, 0, 0, 0] 4 4) (nRepl.readLe 5 4100 4) = true)
    ∧ rverNewer (getLe [0, 0, 0, 0, 0, 0, 0, 0] 4 4) (nRepl.readLe 5 4100 4) = false ∧ ([0] : Bytes).length < 8 := by
  refine ⟨fun p h => ?_, by decide +kernel, by unfold NextWrite; decide +kernel, by decide +kernel, by decide +kernel, by decide⟩
  simp only [List.mem_cons, List.not_mem_nil, or_false] at h
  rcases h with rfl | rfl | rfl | rfl <;>
    exact ⟨⟨by decide +kernel, by decide +kernel, by decide +kernel, by decide +kernel, fst_eq (by decide +kernel)⟩, by decide +kernel, by decide +kernel⟩

/-- A node with client 2 of tenant 5, an item on its last word, and locks. -/
def wordAt : Nat := 0x1FFFF8
def lock5 : Lock := { owner := 5, addr := wordAt, client := 2, value := 1 }
def nWord (op fl : Nat) (ls : List Lock) : Node :=
  let n := ((withM nMem (item op fl 0 [wordAt, 0, 0])).setReg .cliId 2 (2 ^ 63 + 5 * 2 ^ 26)).setReg .qcfg 3 (2 ^ 63 + 2 ^ 60 + 5 * 2 ^ 47)
  { n with store := { n.store with locks := ls } }

theorem word_item (op fl : Nat) (ls : List Lock) (h : (nWord op fl ls).mHead 3 op = some (adm (item op fl 0 [wordAt, 0, 0]))
    ∧ (nWord op fl ls).roomOver ((nWord op fl ls).qcfg 3).owner (wordAt % 2 ^ 48) 8 = true ∧ (item op fl 0 [wordAt, 0, 0]).arg 0 = wordAt
    ∧ (nWord op fl ls).inLine (adm (item op fl 0 [wordAt, 0, 0])) = false ∧ (nWord op fl ls).itemClient (item op fl 0 [wordAt, 0, 0]) = some 2
    ∧ ((nWord op fl ls).client 2).waiting = [] ∧ fld ((nWord op fl ls).reg .cliBw 2) 0 16 = 0) :
    WordItem (at' (nWord op fl ls)) 3 op (adm (item op fl 0 [wordAt, 0, 0])) 2 :=
  ⟨h.1, rfl, by rw [show (adm (item op fl 0 [wordAt, 0, 0])).item.arg 0 = wordAt from h.2.2.1]; exact h.2.1, h.2.2.2.1, h.2.2.2.2.1, h.2.2.2.2.2.1,
    fun k => absurd h.2.2.2.2.2.2 k⟩

/-- Acquire, release, an atomic addition; a lease that lapses now; a grant that takes the last token, for a CXL read and for an item. -/
theorem witness_LockAndLeaseResults :
    (let n := drew (nWord 0x1C 0 []) 2 8
     WordItem (at' (nWord 0x1C 0 [])) 3 0x1C (adm (item 0x1C 0 0 [wordAt, 0, 0])) 2 ∧ wordAt % 8 = 0 ∧ n.wordCode (n.qcfg 3).owner wordAt 8 = 0
      ∧ (item 0x1C 0 0 [wordAt, 0, 0]).arg 1 % 65536 = (n.client 2).epoch ∧ n.readLe (n.qcfg 3).owner wordAt 8 = 0 ∧ n.store.locks.length < 65536
      ∧ bitAt (item 0x1C 0 0 [wordAt, 0, 0]).iflags 0 = false)
    ∧ (let n := drew (nWord 0x1C 1 [lock5]) 2 8
     WordItem (at' (nWord 0x1C 1 [lock5])) 3 0x1C (adm (item 0x1C 1 0 [wordAt, 0, 0])) 2 ∧ bitAt (item 0x1C 1 0 [wordAt, 0, 0]).iflags 0 = true
      ∧ n.store.locks.find? (fun l => l.owner == (n.qcfg 3).owner && l.addr == wordAt && l.client == 2) = some lock5
      ∧ n.wordCode (n.qcfg 3).owner wordAt 8 = 0)
    ∧ (let n := drew (nWord 0x1D 0 []) 2 8
     WordItem (at' (nWord 0x1D 0 [])) 3 0x1D (adm (item 0x1D 0 0 [wordAt, 0, 0])) 2 ∧ wordAt % amoWidth 0 = 0
      ∧ n.wordCode (n.qcfg 3).owner wordAt (amoWidth 0) = 0)
    ∧ (let n := nMem.setClient 1023 { noClient with live := true }
     (n.client 1023).live = true ∧ (n.client 1023).lastReq + 1000000 * (n.client 1023).term ≤ n.clk)
    ∧ (let w : CxlWait := { client := 1023, owner := 5, addr := 0, len := 64, issued := 0, bar4 := false, data := none }
     let s : Node := (nMem.setReg .cliBw 1023 65536).setClient 1023 { noClient with tokens := 64, waiting := [(4, 64)] }
     let s : Node := { s with store := { s.store with bwWaits := [(4, w)] } }
     let n := (s.fillClient 1023).dropEnded 1023
     (n.client 1023).waiting = (4, 64) :: [] ∧ n.dataUp = true ∧ 64 ≤ (n.client 1023).tokens ∧ n.grantRoom 4 = true
      ∧ KList.find? n.store.bwWaits 4 = some w)
    ∧ (let a := adm (tabItem 0x18)
     let s := ((nTabItem 0x18 true).setReg .cliBw 2 65536).setClient 2 { noClient with tokens := 64, waiting := [(4, 64)] }
     let s : Node := { s with store := { s.store with bwItems := [(4, a)] } }
     let n := (s.fillClient 2).dropEnded 2
     (n.client 2).waiting = (4, 64) :: [] ∧ n.dataUp = true ∧ 64 ≤ (n.client 2).tokens ∧ n.grantRoom 4 = true
      ∧ KList.find? n.store.bwWaits 4 = none ∧ KList.find? n.store.bwItems 4 = some a) :=
  ⟨⟨word_item _ _ _ (by decide +kernel), by decide +kernel⟩, ⟨word_item _ _ _ (by decide +kernel), by decide +kernel⟩,
    ⟨word_item _ _ _ (by decide +kernel), by decide +kernel⟩, by decide +kernel, by decide +kernel, by decide +kernel⟩

/-- Tenant 5's first region exported at device address 0; client 2 is its host; its key is loaded. -/
def nCxl : Node :=
  let n := ((nMem.setReg .expBase 0 (2 ^ 63 + 5 * 2 ^ 48)).setReg .expLen 0 1).setReg .cliId 2 (2 ^ 63 + 5 * 2 ^ 26)
  let n := n.setKslot 5 { state := 1, key := 1, keyId := 1, copies := 3 }
  { n with hif := { n.hif with capGb := 1 }, dev := { n.dev with func := 1 } }
def cxlW : CxlWait := { client := 2, owner := 5, addr := 0, len := 64, issued := 0, bar4 := false, data := none }

/-- The last line of the region, read and written; the peer window; a read whose time is over. -/
theorem witness_HostMemoryResults :
    (let m : Node := { nCxl with store := { nCxl.store with nload := 15 } }
     nCxl.hif.capGb ≠ 0 ∧ m.dataUp = true ∧ dpaParts m.exports 66 0x1FFFC0 0 64 = [{ place := some (5, 0x1FFFC0), off := 0, len := 64 }]
      ∧ m.cxlPlace { place := some (5, 0x1FFFC0), off := 0, len := 64 } = .ok (2, 5, 0x1FFFC0) ∧ MayDraw (m.touchLease 2) 2 64
      ∧ m.roomOver 5 0x1FFFC0 64 = true ∧ (List.replicate 64 (0 : Byte)).length = 64)
    ∧ (2 ^ 36 - 1 < 2 ^ 36 ∧ dpaParts nCxl.exports 66 (fld (nCxl.reg .p2pBase) 0 27 * 2097152 + 0x1FFFC0) 0 64 = [{ place := some (5, 0x1FFFC0), off := 0, len := 64 }]
      ∧ nCxl.cxlPlace { place := some (5, 0x1FFFC0), off := 0, len := 64 } = .ok (2, 5, 0x1FFFC0) ∧ MayDraw (nCxl.touchLease 2) 2 64
      ∧ nCxl.roomOver 5 0x1FFFC0 64 = true)
    ∧ (let n : Node := { nCxl with clk := 2000000, store := { nCxl.store with cxlWaits := [(4, cxlW)] } }
     KList.find? n.store.cxlWaits 4 = some cxlW ∧ cxlW.data = none ∧ n.passed cxlW.issued (fld (n.reg .stoCfg) 0 16) = true) := by
  unfold MayDraw
  decide +kernel

/-! ## Witnesses: cassettes, admission, synchronisation items (05, 13) -/

/-- A model of one element-wise layer over one F32. -/
def imgCells : List (Nat × Byte) :=
  [(0, 0x4D), (1, 0x4F), (2, 0x44), (3, 0x4C), (4, 1), (6, 1), (8, 1), (12, 1), (24, 64), (64, 6), (67, 0x20), (68, 1), (70, 1)]
def imgBytes : Bytes := (List.range 128).map fun i => KList.getD imgCells i 0
/-- The tag of that image with a payload of 64 zeros, and the payload enciphered, under owner 5's model key, as another program of
AES-256-GCM and HMAC-SHA-384 gives them. -/
def imgTag : List (Nat × Byte) := (List.range 16).map fun i => (48 + i, BitVec.ofNat 8 (0x734C172A06AA8E9424A77F69C52B80ED / 2 ^ (8 * i)))
def imgPay : List (Nat × Byte) := (List.range 64).map fun i => (128 + i, BitVec.ofNat 8
  (0xFAF3016780C8C68B026D3437D5664AFCC0EAB817851E1E253C064A83ABAA0F6C9A51AA4F7452707E241AF19CF8E25C83747DD15DE55B49B602CA9BBB548BA486 / 2 ^ (8 * i)))
def slotOk (st : Nat) (a : Option Admitted) : Slot := { state := st, refs := 0, area := 1, addr := 4096, image := imgBytes, item := a }
def nCas (i : Nat) (x : Slot) : Node :=
  ((nMem.setReg .casSlot i (2 ^ 27 + 5 * 2 ^ 16)).setSlot i x).setKslot 5 { state := 1, key := 1, keyId := 1, copies := 3 }
/-- The same with the image in memory. -/
def nImg (i : Nat) (x : Slot) : Node :=
  { nCas i x with mem := { (nCas i x).mem with bytes := (imgCells ++ imgTag ++ imgPay).foldl (fun m p => cellWrite m (memKey 5 4096 + p.1) [p.2]) [] } }
def casReq (k : Nat) (took : Bool := false) : CasReq :=
  { slot := 63, thr := 0, ctx := 7, hub := 0, inputs := k, done := 0, inAddr := 0, inLocal := false, outAddr := 0, outLocal := false, staged := false
    took := took }

def slotLoading : Slot := slotOk 1 (some (adm (item 0x20 0 0 [63, 4096])))
def opensTo (p : Bytes) : Except Nat ModelCopy → Bool
  | .ok k => k.payload == p
  | .error _ => false

theorem isOk_of_opens {p : Bytes} {e : Except Nat ModelCopy} (h : opensTo p e = true) : isOk e = true := by
  cases e with
  | ok k => rfl
  | error c => cases h

/-- The image deciphers to its payload. -/
theorem test_model_image_opens : opensTo (List.replicate 64 0) ((nImg 63 slotLoading).openImage 63).1 = true := by decide +kernel

/-- The last slot loaded, unloaded in both states; a first shift that takes a reference; a batch of one input and of 4,096, staged too. -/
theorem witness_CassetteResults_items :
    (let i := item 0x20 0 0 [63, 4096]
     let n := withM ((nCas 63 emptySlot).setReg .casCfg 0 1) i
     let n : Node := { n with mem := { n.mem with bytes := imgCells.map fun (p : Nat × Byte) => (memKey 5 4096 + p.1, p.2) } }
     n.mHead 3 0x20 = some (adm i) ∧ isOk (n.loadCheck (n.modelOwner (adm i)) ((adm i).item.arg 0 % 64) ((adm i).item.arg 1)) = true)
    ∧ (∀ n ∈ [nImg 63 slotLoading, nCas 63 slotLoading |>.setKslot 5 { state := 2, key := 1, keyId := 1, copies := 0 }],
     (n.slot 63).state = 1 ∧ (n.slot 63).item = some (adm (item 0x20 0 0 [63, 4096])) ∧ n.dataUp = true ∧ ∀ r ∈ n.mgt.resets, r.begun = false)
    ∧ (isOk ((nImg 63 slotLoading).openImage 63).1 = true
      ∧ isOk (((nCas 63 slotLoading).setKslot 5 { state := 2, key := 1, keyId := 1, copies := 0 }).openImage 63).1 = false)
    ∧ (∀ st ∈ [2, 4], let i := item 0x21 0 0 [63]
     let n := withM (nCas 63 (slotOk st none)) i
     n.mHead 3 0x21 = some (adm i) ∧ n.slotOwner ((adm i).item.arg 0 % 64) = some (n.modelOwner (adm i)) ∧ (n.slot ((adm i).item.arg 0 % 64)).state = st) := by
  rw [isOk_of_opens test_model_image_opens]
  decide +kernel

theorem witness_CassetteResults_threads :
    (∀ x ∈ [ctx5, { ctx5 with slotRefs := [63] }],
     let n := run (nCas 63 (slotOk 2 none)) t5 x
     Ready4 (at' n) th0 0x64 0 (fl0 0) 0 [] t5 x ∧ n.slotOwner ((fl0 0).imm.toNat % 64) = some x.owner ∧ (n.slot ((fl0 0).imm.toNat % 64)).state = 2
      ∧ ((if x.slotRefs.contains 63 then n else (n.addRef 63).setCtx t5.ctx { x with slotRefs := x.slotRefs ++ [63] }).casRequest (thrNo th0) t5
        (casReq 0 (!x.slotRefs.contains 63))).isSome = true)
    ∧ (∀ p ∈ ([(4096, 0, 2), (1, 7, 2), (1, 3, 2), (1, 3, 4)] : List (Nat × BitVec 13 × Nat)),
     let t := tr [(4, BitVec.ofNat 64 p.1)]
     let x := { ctx5 with slotRefs := [63], query := some (noQuery [0x10, 2]) }
     let n := run (nCas 63 (slotOk p.2.2 none)) t x
     let f := fl0 p.2.1
     let md := readModel (n.slot 63).image
     let k := t.reg f.rc
     let fl := f.fl.toNat
     Ready4 (at' n) th0 0x64 1 f 7 [f.ra, f.rb, f.rc] t x ∧ x.slotRefs.contains 63 = true ∧ 1 ≤ k ∧ k ≤ 4096 ∧ (bitAt fl 2 = true → x.staged = true ∧ k = 1)
      ∧ (n.slot 63).state = p.2.2 ∧ (bitAt fl 2 = false → t.operandCode (bitAt fl 0) (t.reg f.ra) (if bitAt fl 0 then k * md.inStride else 1) (elemAlign md.inFmt) = 0)
      ∧ t.operandCode (bitAt fl 1) (t.reg f.rb) (if bitAt fl 1 then k * round64 (4 * md.outElems) else 1) 4 = 0
      ∧ n.mustWait 0 (t.reg f.ra, if bitAt fl 2 || bitAt fl 0 then 0 else k * md.inStride) = false
      ∧ n.mustWait 0 (t.reg f.rb, if bitAt fl 1 then 0 else k * round64 (4 * md.outElems)) = false
      ∧ (n.casRequest (thrNo th0) t { casReq k with inLocal := bitAt fl 0, outLocal := bitAt fl 1, staged := bitAt fl 2 }).isSome = true) := by
  refine ⟨fun x h => ?_, fun p h => ?_⟩
  · simp only [List.mem_cons, List.not_mem_nil, or_false] at h
    rcases h with rfl | rfl <;> exact ⟨ready4 (by decide +kernel) (by decide) _ _ _, by decide +kernel⟩
  · simp only [List.mem_cons, List.not_mem_nil, or_false] at h
    rcases h with rfl | rfl | rfl | rfl <;> exact ⟨ready4 (by decide +kernel) (by decide) _ _ _, by decide +kernel⟩

/-- The last tile starts a batch, ends one, and enters a window of fixed-slot mode. -/
theorem witness_CassetteResults_tiles :
    (let n : Node := { nMem with power := { nMem.power with pllOn := 255, tileRet := 0 } }
     (n.tile 7).batch = none ∧ n.dataUp = true ∧ bitAt n.power.pllOn 7 = true ∧ bitAt n.power.tileRet 7 = false)
    ∧ (let b : CasBatch := { slot := 63, parts := [{ id := 1, req := casReq 1, n := 1 }] }
     let k : ModelCopy := { image := imgBytes, payload := List.replicate 64 0 }
     let n := (nCas 63 (slotOk 2 none)).setTile 7 { (nMem.tile 7) with batch := some b, copies := [(63, k)] }
     (n.tile 7).batch = some b ∧ n.dataUp = true ∧ KList.find? (n.tile 7).copies b.slot = some k)
    ∧ (nMem.setReg .isoCfg 0 1).fixedSlot = true := by decide +kernel

/-- Tenant 5 may use the node; queue 3 is its queue, with this item at the front. -/
def nAdm (n : Node) (i : Item) : Node :=
  let n := ((n.setTen 5 { noTen with valid := true }).setKslot 5 { state := 1, key := 1, keyId := 1, copies := 3 }).setReg .qcfg 3 (2 ^ 63 + 5 * 2 ^ 47 + 4 * 2 ^ 43)
  (n.setReg .qcfg 0 (2 ^ 63 + 5 * 2 ^ 47 + 4 * 2 ^ 43 + 2 ^ 61)).setQueue 3 { emptyQueue with items := [i] }
def qItem : Item :=
  { item 0x10 0 0 [] with
      bytes := (List.range 128).map fun i => KList.getD [(0, 0x10), (2, 12), (4, 1), (8, 1), (24, 64)] i 0, checked := false }
def prog0 : Program := { entry := 0, lo := 0, hi := 100, lsize := 1 }

/-- Fetches from host memory and from pushed slots; a read that times out; a query's check. -/
theorem witness_AdmissionResults_queues :
    (let n := (nMem.setReg .qcfg 3 (2 ^ 63 + 2 ^ 60 + 5 * 2 ^ 47 + 4 * 2 ^ 43)).setQueue 3 { emptyQueue with tail := 1, readTo := 0 }
     n.fetchDue 3 = true ∧ (n.qcfg 3).host = true ∧ ([List.replicate 128 0] : List Bytes).length = (n.queue 3).used
      ∧ (let m : Node := { n with clk := 10000000 }
       (m.qcfg 3).host = true ∧ m.fetchDue 3 = true ∧ m.passed (m.queue 3).readAt 10000 = true))
    ∧ (let n := (nMem.setReg .qcfg 3 (2 ^ 63 + 5 * 2 ^ 47 + 4 * 2 ^ 43)).setQueue 3 { emptyQueue with tail := 1, pushed := [(0, 1)] }
     n.fetchDue 3 = true ∧ (n.qcfg 3).host = false)
    ∧ (let n := nAdm (nShard shard5 [gen1 2 0 []]) qItem
     (n.queue 3).items = qItem :: [] ∧ qItem.op = 0x10 ∧ qItem.checked = false ∧ n.dataUp = true ∧ n.checkQuery qItem = 0
      ∧ n.burstCode qItem (n.itemCost qItem) = 0) := by decide +kernel

/-- An admission; a dispatch; the gate's window, to the nanosecond. -/
theorem witness_AdmissionResults_gate :
    (let n := nAdm nMem (item 0x12 0 0 [12 + 4096])
     n.dataUp = true ∧ (n.admitScan ((List.range 8).map fun i => (n.adm.lastClass + 1 + i) % 8)).isSome = true)
    ∧ (let a := adm (item 0x1F 0 0 [])
     let n := nMem.setCtx 7 { ctx5 with adm := some a, op := 0x1F, threads := [] }
     let n : Node := { n with adm := { n.adm with lines := [(3, [a])] }, spokes := { n.spokes with progs := [(0x1F, prog0)] } }
     n.dataUp = true ∧ (n.lineOrder.findSome? (fun p => n.placeHead p.1 p.2)).isSome = true)
    ∧ (let n := nMem.setReg .gateCfg 0 (2 * 2 ^ 20 + 1)
     let o : Node := { n with mgt := { n.mgt with timeNs := 2000 } }
     o.adm.gateWindow ≤ o.now / max 1 o.gatePeriod)
    ∧ (let n := nMem.setReg .gateCfg 0 (2 * 2 ^ 20 + 1)
     let o : Node := { n with adm := { n.adm with gateOpen := true, gateWindow := 2 }, mgt := { n.mgt with timeNs := 3000 } }
     o.adm.gateOpen = true ∧ (o.adm.gateWindow - 1) * o.gatePeriod + o.gateSpan = o.now) := by decide +kernel

/-- Every type of object at its last legal value; a signal whose sum is the largest. -/
theorem witness_SyncItemResults :
    (∀ p ∈ [(0, 2 ^ 32 - 1), (1, 1), (2, 8192), (2, 1), (3, 2 ^ 64 - 1)], let i := item 0x30 p.1 0 [p.2]
     let n := withM nMem i
     n.mHead 3 0x30 = some (adm i) ∧ i.iflags % 4 = p.1 ∧ (p.1 = 0 → i.arg 0 < 2 ^ 32) ∧ (p.1 = 1 → i.arg 0 < 2) ∧ (p.1 = 2 → 1 ≤ i.arg 0 ∧ i.arg 0 ≤ 8192)
      ∧ KList.firstFree n.qsy.syncs 4096 0 = some 0 ∧ n.fsFull (n.qcfg 3).owner 14 12 (n.syncCount (n.qcfg 3).owner) = false)
    ∧ (let i := item 0x31 0 0 [4095]
     let n := withM (nMem.setSync 4095 (syn 2 1 8192 [0])) i
     n.mHead 3 0x31 = some (adm i) ∧ n.itemSync 3 (adm i) = some (4095, syn 2 1 8192 [0]))
    ∧ (∀ p ∈ [(1, 0, 1), (0, 1, 2 ^ 32 - 2), (3, 2 ^ 64 - 1, 1)], let i := item 0x32 0 0 [4095, p.2.2]
     let x := syn p.1 p.2.1 0 []
     let n := withM (nMem.setSync 4095 x) i
     n.mHead 3 0x32 = some (adm i) ∧ n.itemSync 3 (adm i) = some (4095, x)
      ∧ (x.type = 1 ∨ (x.type = 0 ∧ 1 ≤ i.arg 1 ∧ i.arg 1 < 2 ^ 32 ∧ x.value + i.arg 1 < 2 ^ 32 ∨ x.type = 3))) := by decide +kernel

/-! ## Witnesses: links and fabric (11, 12) -/

/-- A node whose last port has this state, after `f`. -/
def nPort (st : Nat) (f : Port → Port := id) : Node :=
  let n := ((nMem.setReg .portCfg 15 1).setReg .timeCfg 0 31).setPort 15 (f { emptyPort with state := st })
  { n with dev := { n.dev with ready := true } }
def sw (w : Bool) : LaneSwitch := { lane := 8, count := 5, width := w }

/-- A codeword of zeros with its tag under a key of zeros, or another, and its CRC (each by another program). -/
def cword (tag : Nat) (crc : Nat) : Bytes := List.replicate 608 0 ++ natLe 16 tag ++ List.replicate 12 0 ++ natLe 4 crc
def cwOk : Bytes := cword 0xC9600E0B24C0939AEF0F5B1FAB180E0D 1918587661
def cwBad : Bytes := cword 0 4257612980
def cwWhole (b : Bytes) : Bool := b.length == 640 && getLe b 636 4 == crc32c (slice b 0 636)

theorem cword_tag : (Aes.gcm zeroKey (headIv (List.replicate 32 0)) (List.replicate 32 0) (List.replicate 576 0) (List.replicate 576 0)).2
    = natLe 16 0xC9600E0B24C0939AEF0F5B1FAB180E0D := by decide +kernel

theorem opens_of {k iv a c t : Bytes} (h : (Aes.gcm k iv a c c).2 = t) : (gcmOpen k iv a c t).isSome = true := by
  unfold gcmOpen
  simp [h]
theorem shut_of {k iv a c t u : Bytes} (h : (Aes.gcm k iv a c c).2 = t) (n : (t == u) = false) : gcmOpen k iv a c u = none := by
  unfold gcmOpen
  dsimp only
  rw [h, if_neg (by rw [n]; exact Bool.false_ne_true)]

/-- One that opens, one whose tag is wrong, and one whose CRC is. -/
theorem witness_LinkDataResults_codewords :
    (cwWhole cwOk = true ∧ (gcmOpen zeroKey (headIv cwOk) (slice cwOk 0 32) (slice cwOk 32 576) (slice cwOk 608 16)).isSome = true)
    ∧ (cwWhole cwBad = true ∧ gcmOpen zeroKey (headIv cwBad) (slice cwBad 0 32) (slice cwBad 32 576) (slice cwBad 608 16) = none)
    ∧ cwWhole (cword 0 0) = false := by
  have h : ∀ t c, headIv (cword t c) = headIv (List.replicate 32 0) ∧ slice (cword t c) 0 32 = List.replicate 32 0
      ∧ slice (cword t c) 32 576 = List.replicate 576 0 := fun t c => ⟨rfl, rfl, rfl⟩
  have h1 : slice cwOk 608 16 = natLe 16 0xC9600E0B24C0939AEF0F5B1FAB180E0D := by decide +kernel
  have h2 : slice cwBad 608 16 = natLe 16 0 := by decide +kernel
  have hn : (natLe 16 0xC9600E0B24C0939AEF0F5B1FAB180E0D == natLe 16 0) = false := by decide +kernel
  refine ⟨⟨by decide +kernel, ?_⟩, ⟨by decide +kernel, ?_⟩, by decide +kernel⟩
  · rw [h1, show cwOk = cword _ _ from rfl, (h _ _).1, (h _ _).2.1, (h _ _).2.2]
    exact opens_of cword_tag
  · rw [h2, show cwBad = cword _ _ from rfl, (h _ _).1, (h _ _).2.1, (h _ _).2.2]
    exact shut_of cword_tag hn

/-- The last port in each state from which its data commands act; powers at 44 and below; switches at their count; timers now due. -/
theorem witness_LinkDataResults :
    ((∃ v ∈ (List.range 9).map fun i => min 127 (([43, 44] : List Nat).getD i 0), 44 ≤ v)
      ∧ (∀ v ∈ (List.range 9).map fun i => min 127 (([43, 0] : List Nat).getD i 0), v < 44))
    ∧ ((nPort 5).port 15).state = 5
    ∧ (∀ w ∈ [true, false], (sw w).count = (4096 + 5) % 4096 ∧ ((nPort 5 fun x => { x with txSwitch := [sw w] }).port 15).txSwitch = [sw w]
      ∧ ((nPort 5 fun x => { x with rxSwitch := [sw w] }).port 15).rxSwitch = [sw w])
    ∧ 3 ≤ ((nPort 3).port 15).state ∧ ((nPort 3 fun x => { x with rxKeys := [(0, zeroKey)] }).port 15).rxKeys = [(0, zeroKey)]
    ∧ (∀ f ∈ ([fun x => { x with accepted := 32 }, fun x => { x with ackNow := true }, fun x => { x with ackDue := some 0 }] : List (Port → Port)),
      3 ≤ ((nPort 3 f).port 15).state ∧ (nPort 3 f).ackDueNow ((nPort 3 f).port 15) = true)
    ∧ (let n : Node := { nPort 3 (fun x => { x with timer := some 0 }) with clk := 4000 }
     (n.port 15).timer = some 0 ∧ 0 + 4000 ≤ n.clk) := by
  refine ⟨by decide, by decide +kernel, by decide +kernel, by decide +kernel, by decide +kernel, fun f h => ?_, by decide +kernel⟩
  simp only [List.mem_cons, List.not_mem_nil, or_false] at h
  rcases h with rfl | rfl | rfl <;> decide +kernel

/-- Every step of a bring-up at its last moment, and keys, neighbours and time of a port that is UP. -/
theorem witness_LinkControlResults :
    (let n := nPort 5 fun x => { x with fctr := 1, rxPhase := true }
     (n.port 15).state = 5 ∧ 2 ^ ((nPort 5 fun x => { x with fctr := 2 ^ 39, rekeyExp := 39 }).port 15).rekeyExp ≤ ((nPort 5 fun x => { x with fctr := 2 ^ 39, rekeyExp := 39 }).port 15).fctr
      ∧ (n.port 15).rxPhase ≠ false)
    ∧ (((nPort 5 fun x => { x with fctr := 2 ^ 40 - 1 }).port 15).state = 5 ∧ 2 ^ 40 - 1 ≤ ((nPort 5 fun x => { x with fctr := 2 ^ 40 - 1 }).port 15).fctr)
    ∧ (((nPort 3).port 15).state = 3 ∧ ((nPort 3).port 15).certNext = 0) ∧ 4 ≤ ((nPort 4).port 15).state
    ∧ (let n := nPort 0 fun x => { x with laser := [52, 72, 60, 60, 60, 60, 60] }
     (n.port 15).state = 0 ∧ (n.port 15).retryAt = none ∧ bitAt (n.reg .portCfg 15) 0 = true ∧ n.linksUp = true ∧ n.dev.ready = true
      ∧ 7 ≤ popcount 9 (tonesOk (n.port 15).laser) ∧ 7 ≤ popcount 9 0x1FC)
    ∧ (let n : Node := { nPort 1 with clk := 999999 }
     (n.port 15).state = 1 ∧ n.clk < (n.port 15).since + 1000000 ∧ (1000000 : Nat) ≤ 1000000)
    ∧ (let n : Node := { nPort 2 with clk := 1999999 }
     (n.port 15).state = 2 ∧ n.clk < (n.port 15).since + 2000000)
    ∧ (let n : Node := { nPort 3 (fun x => { x with certOk := true, keyOk := true }) with clk := 19999999 }
     (n.port 15).state = 3 ∧ (n.port 15).certOk = true ∧ (n.port 15).keyOk = true ∧ n.clk < (n.port 15).since + 20000000)
    ∧ (let n : Node := { nPort 4 (fun x => { x with neighOk := true }) with clk := 999999 }
     (n.port 15).state = 4 ∧ (n.port 15).neighOk = true ∧ n.clk < (n.port 15).since + 1000000 ∧ bitAt (n.reg .portCfg 15) 0 = true)
    ∧ (∀ p ∈ [(1, 1000000), (2, 2000000), (3, 20000000), (4, 1000000)], let n : Node := { nPort p.1 with clk := p.2 }
     1 ≤ (n.port 15).state ∧ (n.port 15).state ≤ 4 ∧ n.passed (n.port 15).since (stepLimit (n.port 15).state) = true)
    ∧ (let n : Node := { nPort 0 (fun x => { x with retryAt := some 9 }) with clk := 9 }
     (n.port 15).retryAt = some 9 ∧ (n.port 15).state = 0 ∧ 9 ≤ n.clk)
    ∧ (let n := nPort 5 fun x => { x with exNum := 65535, syncNum := 65535 }
     (n.port 15).state = 5 ∧ (n.port 15).exNum = 65535 ∧ (n.port 15).syncNum = 65535 ∧ bitAt (n.reg .timeCfg) 4 = true ∧ fld (n.reg .timeCfg) 0 4 = 15
      ∧ bitAt (nMem.reg .timeCfg) 4 = false)
    ∧ (let n : Node := { nMem with mgt := { nMem.mgt with timeHold := some 0, timeNs := 9 } }
     n.mgt.timeHold.isSome = true ∧ n.mgt.timeNs ≤ 9) := by decide +kernel

/-- Node 0 with a window on owner 5's region for node 1, its neighbour on the last port. -/
def nFab : Node :=
  let n := nPort 5
  { n with fabric := { n.fabric with windows := [(0, { flags := 63, sys := false, job := 0, tid := 5, peer := 1, gbase := 0, lbase := 0, len := 1 })] }
           peloton := { n.peloton with members := [(1, { noMember with state := 1, incarn := 1 })] } }
def pk (ty len addr status : Nat) (data : Bytes) : Packet := { pkt with ptype := ty, len := len, addr := addr, status := status, data := data, port := 15 }
def nReq (ptype : Nat) (kind fn : Nat) : Node :=
  { nFab with fabric := { nFab.fabric with reqs := [(0, { ptype := ptype, dst := 1, job := 0, addr := 0, len := 8, issued := 0, acc := some 1, thr := 0, owner := 5, via := some 15 })] }
              spokes := { nFab.spokes with accesses := [(1, acc kind fn)] } }

/-- A packet for another node; the last byte of the window read, written, posted, and an AMO of its last 8 bytes. -/
theorem witness_FabricMemoryResults_requests :
    ((nFab.port 15).state = 5 ∧ ({ pkt with dst := 2, port := 15 } : Packet).dst ≠ nFab.dev.node)
    ∧ (let p := pk 1 1 0x1FFFFF 0 []
     Arrives nFab p ∧ nFab.stale p = false ∧ p.addr < 0xF00000000000 ∧ nFab.admitReq p 1 false = .ok (5, 0x1FFFFF)
      ∧ (nFab.tierRead { owner := 5, tile := 0, due := false } 0x1FFFFF p.len).1 = .ok [0])
    ∧ (let p := pk 3 1 0x1FFFFF 0 [7]
     Takes nFab p ∧ nFab.admitReq p 2 true = .ok (5, 0x1FFFFF) ∧ nFab.storeRoom 5 0x1FFFFF p.len = true)
    ∧ (let p := pk 5 1 0x1FFFFF 0 [7]
     Takes nFab p ∧ nFab.admitReq p 4 true = .ok (5, 0x1FFFFF) ∧ nFab.storeRoom 5 0x1FFFFF p.len = true)
    ∧ (let p := pk 7 16 0x1FFFF8 0 (List.replicate 16 1)
     Takes nFab p ∧ nFab.admitReq { p with len := amoWidth p.status } 3 true = .ok (5, 0x1FFFF8)
      ∧ nFab.amoCode 5 0x1FFFF8 (amoWidth p.status) = 0 ∧ nFab.storeRoom 5 0x1FFFF8 8 = true)
    ∧ (let n : Node := { nFab with clk := 1000, fabric := { nFab.fabric with served := [{ src := 1, tag := 0, since := 0 }] } }
     n.acksFor 1 = { src := 1, tag := 0, since := 0 } :: [] ∧ 0 + 1000 ≤ n.clk) := by
  simp only [Takes, Arrives]
  refine ⟨by decide +kernel, by decide +kernel, by decide +kernel, by decide +kernel, by decide +kernel, by decide +kernel⟩

/-- The same node with its region in FLASH and a full data share: a write waits. -/
def nFull (r : JRec) : Node :=
  let n := nFab.setRegion 5 0 { reg5 with tier := 4 }
  { n with flash := { n.flash with popOk := true, pop := some noPop, data := [r] } }
theorem full_waits (r : JRec) (h : r.payload.length = 4194304) : Takes (nFull r) (pk 3 1 0 0 [7])
    ∧ (nFull r).admitReq (pk 3 1 0 0 [7]) 2 true = .ok (5, 0) ∧ (nFull r).storeRoom 5 0 1 = false := by
  refine ⟨⟨⟨rfl, rfl, rfl⟩, rfl, by decide, rfl⟩, rfl, ?_⟩
  have h4 : (nFull r).tierAt 5 0 = 4 := rfl
  have hb : (nFull r).dataBytes = 0 + (32 + ceilDiv r.payload.length 32 * 32) := rfl
  unfold Node.storeRoom Node.dataLeft
  rw [h4, hb, h, show (4 != 4) = false from rfl, Bool.false_or, decide_eq_false (by decide), Bool.false_and]
theorem witness_FabricMemoryResults_waits : ∃ r, Takes (nFull r) (pk 3 1 0 0 [7]) ∧ (nFull r).admitReq (pk 3 1 0 0 [7]) 2 true = .ok (5, 0)
    ∧ (nFull r).storeRoom 5 0 1 = false :=
  ⟨{ jtype := 2, seq := 1, key := 0, aux := 0, payload := List.replicate 4194304 0, since := 0 }, full_waits _ List.length_replicate⟩

/-- Responses of each kind, to the access that waits; a note about a posted write; a request that is over its time. -/
theorem witness_FabricMemoryResults_responses :
    (∀ p ∈ [(1, 2, 0, 6), (3, 4, 1, 3), (7, 8, 2, 0)], let n := nReq p.1 p.2.2.1 p.2.2.2
     let q := pk p.2.1 8 0 0 [1, 0, 0, 0, 0, 0, 0, 0]
     Arrives n q ∧ (n.requestOf q p.1).isSome = true ∧ failureOf q = 0 ∧ (n.requestOf q p.1).bind (·.acc) = some 1
      ∧ (n.dropReq (reqKey q.cls q.tag)).acc 1 = some (acc p.2.2.1 p.2.2.2))
    ∧ Arrives nFab (pk 6 8 0 0 [])
    ∧ (let n := nReq 5 1 3
     let q := pk 9 8 0 0 []
     Arrives n q ∧ (n.requestOf q 5).bind (·.acc) = some 1)
    ∧ (∀ ty ∈ [1, 5], let n : Node := { (nReq ty 1 3).setReg .tmoCfg 0 16383 with clk := 16383000 }
     (KList.find? n.fabric.reqs 0).map (·.ptype) = some ty ∧ n.passed 0 n.tgtUs = true) := by
  simp only [Arrives]
  decide +kernel

def winItem : Item := item 0x38 0 0 [0, 0, 0, 0, 0, 0, 0, 0] |> fun i => { i with bytes := i.bytes.take 72 ++ [63, 0, 0, 0, 5, 0, 1, 0] ++ List.replicate 16 0 ++ [1, 0, 0, 0, 0, 0, 0, 0] ++ List.replicate 24 0 }

/-- A lender's window of nine regions for node 0. -/
def lendItem : Item :=
  { winItem with bytes := winItem.bytes.take 72 ++ [33, 1, 0, 0, 0, 0, 0, 0] ++ List.replicate 16 0 ++ [9, 0, 0, 0, 0, 0, 0, 0] ++ List.replicate 24 0
                 fwd := true, src := 1 }

/-- The first window after the last; a grant; its removal; the last job number; a route. -/
theorem witness_FabricItemResults :
    (let n := withM nMem winItem
     let b := slice (adm winItem).item.bytes 72 32
     n.mHead 3 0x38 = some (adm winItem) ∧ windowOk b = true ∧ n.jobActive (readWindow b).job = true
      ∧ (∀ x ∈ n.fabric.windows, x.2.overlaps (readWindow b) = false) ∧ KList.firstFree n.fabric.windows 4096 0 = some 0
      ∧ winItem.fwd = false)
    ∧ (let b := slice lendItem.bytes 72 32
     let n := withM nMem lendItem
     n.mHead 3 0x38 = some (adm lendItem) ∧ lendItem.fwd = true ∧ windowOk b = true ∧ n.lentHere (readWindow b) = true)
    ∧ (let i := item 0x39 0 0 [0]
     (withM nFab i).mHead 3 0x39 = some (adm i) ∧ (KList.find? (withM nFab i).fabric.windows ((adm i).item.arg 0 % 4096)).isSome = true)
    ∧ (let i := item 0x3A 0 1 [65535, 5, 4096]
     (withM nMem i).mHead 3 0x3A = some (adm i) ∧ (adm i).item.arg 0 % 65536 ≠ 0 ∧ (withM nMem i).job ((adm i).item.arg 0 % 65536) = none
      ∧ (withM nMem i).fabric.jobs.length < 1024)
    ∧ (let i := item 0x3C 0 0 [9]
     (withM (nJob []) i).mHead 3 0x3C = some (adm i) ∧ ((withM (nJob []) i).job ((adm i).item.arg 0 % 65536)).isSome = true)
    ∧ (let i := item 0x40 0 0 [32767, 65535]
     (withM nMem i).mHead 3 0x40 = some (adm i)) := by decide +kernel

/-! ## Witnesses: the peloton, tenancy and trust (12, 14) -/

/-- Node 0 in a council of itself, its leader, with node 1 on its last port. -/
def nPel : Node :=
  let n := nFab.setReg .pelCfg 0 (1 + 1 * 2 ^ 4 + 3 * 2 ^ 9 + 1 * 2 ^ 13)
  let n := n.setPort 15 { emptyPort with state := 5, nv := true, nbr := 1 }
  { n with peloton := { n.peloton with leader := some 0, beaconAt := some 0, state := 4 } }
def heldD (k : DecisionKind) (te : Nat) : Held := { dseq := 0, kind := k, subject := 1, incarn := 1, te := te, arg := 2 }

/-- Each message and timer of the peloton, at the instant it is due; a decision of each kind. -/
theorem witness_PelotonResults :
    (let n : Node := { nPel with clk := 3 * 1000 + 50000 }
     n.pelOn = true ∧ (∃ p ∈ n.portsTo 1, p.state = 5) ∧ (n.member 1).state ≠ 0 ∧ (n.member 1).state ≠ 7
      ∧ n.peloton.reported.contains (1, (n.member 1).incarn) = false ∧ n.lastBeat 1 + n.missN * n.hbUs * 1000 + 50000 = n.clk)
    ∧ (nPel.pelOn = true ∧ (nPel.hear 0).leads = true)
    ∧ ((nPel.port 15).state = 5 ∧ nPel.peloton.dseq ≤ 0 ∧ (∀ h ∈ nPel.peloton.pending, h.dseq ≠ 0))
    ∧ (let n : Node := { nPel with clk := 1000 }
     n.peloton.lastHb + n.hbUs * 1000 = n.clk)
    ∧ nPel.oldMessage 1 1 = false
    ∧ (let n : Node := { nPel with clk := 250000 }
     n.pelOn = true ∧ n.leads = true ∧ n.nCouncil < 2 * (n.council.filter n.heardFrom).length ∧ n.peloton.lastBeaconSent + 250000 = n.clk)
    ∧ (nPel.peloton.fenced = false ∧ (nPel.peloton.leader = some 0 → nPel.peloton.beaconSeq < 1))
    ∧ (let n : Node := { nPel with clk := 1500000 }
     n.pelOn = true ∧ n.peloton.fenced = false ∧ 4 ≤ n.peloton.state ∧ n.peloton.state ≤ 6 ∧ n.peloton.beaconAt.getD 0 + 1500000 = n.clk)
    ∧ (∀ k ∈ [DecisionKind.nodeFailed, .join, .jobFault, .function, .absent],
     let n : Node := { nPel with mgt := { nPel.mgt with timeNs := 9 }, peloton := { nPel.peloton with pending := [heldD k 9] } }
     n.pelOn = true ∧ n.peloton.pending = heldD k 9 :: [] ∧ (heldD k 9).kind = k ∧ (heldD k 9).te ≤ n.now ∧ (heldD k 9).subject = 1) := by decide +kernel

def nSwap : Node := { nPel with peloton := { nPel.peloton with members := [(1, { noMember with state := 4, incarn := 1 }), (2, { noMember with state := 5, incarn := 1, func := 3 })] } }

/-- Requests to the leader, to another node's leader, of copies and of the item queue. -/
theorem witness_MembershipRequestResults :
    (nPel.pelOn = true ∧ nPel.leads = true ∧ functionCode (2 % 4) true true = 0 ∧ nSwap.pelOn = true ∧ nSwap.leads = true ∧ nSwap.swapCode 1 false false = 0)
    ∧ (let n : Node := { nPel.setReg .pelCfg 0 (2 ^ 22) with clk := 1000000, peloton := { nPel.peloton with drains := [{ id := shId, since := 0 }] } }
     n.peloton.drains.find? (fun d => d.id == shId) = some { id := shId, since := 0 } ∧ n.passed 0 (1000 * fld (n.reg .pelCfg) 22 10) = true)
    ∧ nPel.sealUp = true
    ∧ (let n : Node := { nShard shard5 [] with peloton := { nPel.peloton with shardMap := [{ id := shId, primary := 1, standby := some 0 }] } }
     n.sealUp = true ∧ n.shard shId = some shard5 ∧ n.follows shId = some 1 ∧ n.appendRoom shard5 = true)
    ∧ (let i := item 0x3D 0 0 [12 + 4096, 2 ^ 31 + 2 ^ 16]
     (withM nMem i).mHead 3 0x3D = some (adm i) ∧ (if bitAt ((adm i).item.arg 1) 31 then some (fld ((adm i).item.arg 1) 16 15) else none) ≠ some (fld ((adm i).item.arg 1) 0 15))
    ∧ (let i := item 0x3E 0 1 [5 * 2 ^ 27, 1, 64]
     (withM nMem i).mHead 3 0x3E = some (adm i))
    ∧ (let i := item 0x3F 0 0 [1, 0, 2]
     (withM nPel i).mHead 3 0x3F = some (adm i) ∧ (adm i).item.arg 0 = 1 ∧ (withM nPel i).pelOn = true ∧ (withM nPel i).leads = true)
    ∧ (let i := item 0x3F 0 0 [3, 1, 2, 9]
     let n := withM nPel i
     n.mHead 3 0x3F = some (adm i) ∧ (adm i).item.arg 0 = 3 ∧ n.pelOn = true ∧ n.leads = true ∧ functionCode ((adm i).item.arg 2 % 4) (n.lendsAny 1) (n.servesAny 1) = 0)
    ∧ (let i := item 0x3F 0 0 [4, 32767, 0, 9]
     let n := withM nPel i
     n.mHead 3 0x3F = some (adm i) ∧ (adm i).item.arg 0 = 4 ∧ n.pelOn = true ∧ n.leads = true)
    ∧ (let i := item 0x3F 0 0 [5, 1]
     let n := withM nSwap i
     n.mHead 3 0x3F = some (adm i) ∧ (adm i).item.arg 0 = 5 ∧ n.pelOn = true ∧ n.leads = true
      ∧ n.swapCode 1 (n.lendsAny 1) (n.peloton.repls.any fun r => r.primary == 1) = 0)
    ∧ (let i := item 0x3B 0 0 [9]
     let n := withM (nJob []) i
     n.mHead 3 0x3B = some (adm i) ∧ (n.job ((adm i).item.arg 0 % 65536)).isSome = true ∧ n.pelOn = false)
    ∧ (let i := item 0x3B 0 0 [9]
     let n := withM (nPel.setJob 9 (jobWith [])) i
     n.mHead 3 0x3B = some (adm i) ∧ (n.job ((adm i).item.arg 0 % 65536)).isSome = true ∧ n.pelOn = true ∧ n.leads = true) := by decide +kernel

/-- A node whose channels are all up, with tenant 1,023, a connection in its last step on each channel, and a session. -/
def conn3 (c : Chan) : SpdmConn := { noConn c with version := true, caps := true, algs := true, response := [1] }
def nSpdm (x : Session) : Node :=
  let n := nMem.setTen 1023 { noTen with valid := true }
  { n with hif := { n.hif with linkUp := true, vfEnable := true }
           flash := { n.flash with popOk := true }
           sec := { n.sec with conns := [conn3 .pfDoe, conn3 (.vfDoe 1023), conn3 .mctp], sessions := [(7, x)], slot1 := [9] } }
def sess7 (c : Chan) (r : Option Role) (e : Bool) : Session := { chan := c, role := r, subject := 0, established := e, lastBeat := 0, keyGen := 0 }

/-- Every channel in its last step of negotiation; sessions of each state; chunk 0, and the last byte of the certificate. -/
theorem witness_SpdmResults :
    (∀ ch ∈ [Chan.pfDoe, .vfDoe 1023, .mctp], let n := nSpdm (sess7 .mctp none true)
     n.chanUp ch = true ∧ (n.ten 1023).valid = true ∧ (n.conn ch).version = true ∧ (n.conn ch).caps = true ∧ (n.conn ch).algs = true
      ∧ n.sec.slot1 ≠ [] ∧ 0 < n.sec.slot1.length ∧ (1 : Nat) ≤ 1 ∧ KList.firstFree n.sec.sessions 8 0 = some 0
      ∧ (0 : Nat) = (if (n.conn ch).request.isEmpty then 0 else (n.conn ch).nextChunk) ∧ 0 < (n.conn ch).response.length)
    ∧ (((nSpdm (sess7 (.vfDoe 1023) none true)).blocksOf (.vfDoe 1023)).contains 16 = true
      ∧ ((nSpdm (sess7 .mctp none true)).blocksOf .mctp).contains 6 = true)
    ∧ certOk { role := some .maker, ecdsaOk := true, chainOk := true, notBefore := 0, notAfter := 0, subject := 1 } (nSpdm (sess7 .mctp none true)).now = true
    ∧ (∀ e ∈ [true, false], (nSpdm (sess7 .mctp none e)).session 7 = some (sess7 .mctp none e) ∧ (sess7 .mctp none e).established = e
      ∧ (nSpdm (sess7 .mctp none e)).chanUp .mctp = true)
    ∧ (let n : Node := { nSpdm (sess7 .mctp none true) with clk := 10000000000 }
     n.session 7 = some (sess7 .mctp none true) ∧ 0 + 10000000000 ≤ n.clk)
    ∧ (let n := nSpdm (sess7 .pfDoe (some .installer) true)
     n.session 7 = some (sess7 .pfDoe (some .installer) true) ∧ n.chanUp .pfDoe = true ∧ n.auditOk = true) := by decide +kernel

/-- The first chunk of a response, whatever the size of a chunk. -/
theorem witness_SpdmResults_chunk : 0 * Config.chunkSize < ((nSpdm (sess7 .mctp none true)).conn .mctp).response.length := by
  rw [Nat.zero_mul]; decide +kernel

def cons7 (t : Nat) (x : Session) : Node := (nSpdm x).setTen t { noTen with valid := true }

/-- The end of a tenant; parity errors; a session of each role that vendor operations need; a token at its expiry. -/
theorem witness_VendorOperationResults :
    (let n : Node := { nMem with mem := n0.mem, sec := { nMem.sec with destroying := [(1023, 0)] } }
     KList.find? n.sec.destroying 1023 = some 0 ∧ (∀ c ∈ n.spokes.ctxs, c.2.owner ≠ 1023) ∧ n.ownSlots 1023 = [] ∧ KList.getD n.mem.regions 1023 [] = [])
    ∧ (let n := nMem.setKslot 1024 { state := 1, key := 1, keyId := 1, copies := 3 }
     (n.kslot 1024).state = 1 ∧ (n.kslot 1024).state ≠ 0)
    ∧ (∀ p ∈ [(Chan.pfDoe, Role.operator), (.mctp, .installer), (.mctp, .maker)], let x := sess7 p.1 (some p.2) true
     let n := nSpdm x
     n.session 7 = some x ∧ x.established = true ∧ n.chanUp x.chan = true ∧ x.role = some p.2 ∧ n.auditOk = true ∧ n.keyLoadCode 1023 1 = 0)
    ∧ (let x := sess7 (.vfDoe 1023) none true
     let n := nSpdm x
     n.session 7 = some x ∧ x.established = true ∧ n.chanUp x.chan = true ∧ n.auditOk = true ∧ (n.ten 1023).valid = true)
    ∧ (let x := sess7 .mctp (some .installer) true
     let n : Node := { nSpdm x with fuses := { (nSpdm x).fuses with anchors := [1, 2, 3] } }
     n.session 7 = some x ∧ n.fuses.anchors ≠ [] ∧ n.fuses.anchors.length < 4 ∧ n.auditOk = true)
    ∧ (let tok : Token := { serialOk := true, challenge := 0, expiry := 1, sigOk := true }
     let n := nSpdm (sess7 .mctp (some .installer) true)
     tok.serialOk = true ∧ tok.sigOk = true ∧ tok.challenge = n.sec.challenge ∧ n.now < tok.expiry)
    ∧ (let n : Node := { nMem with mgt := { nMem.mgt with timeNs := 9 }, sec := { nMem.sec with token := some { expiry := 9 } } }
     n.sec.token = some { expiry := 9 } ∧ 9 ≤ n.now)
    ∧ (let n : Node := { nSpdm (sess7 .mctp (some .maker) true) with dev := { n0.dev with strap := 12 } }
     n.session 7 = some (sess7 .mctp (some .maker) true) ∧ n.auditOk = true ∧ n.chanUp .mctp = true ∧ n.dev.strap = 12) := by decide +kernel

theorem vf_role : ∀ v, (sess7 .pfDoe (some .operator) true).chan ≠ .vfDoe v := fun v h => by cases h

/-- A node held in a reset of level 2, unlocked, at each policy, with a thread of a tenant that consents. -/
theorem witness_JtagResults :
    (∀ pol ∈ [1, 2, 3],
     let n := run ((nMem.setTen 5 { noTen with valid := true, consent := true })) t5 ctx5
     let n : Node := { n with
       fuses := { n.fuses with dbgPol := pol }
       dev := { n.dev with unlocked := true }
       sec := { n.sec with token := some { expiry := 9 } }
       mgt := { n.mgt with resets := [{ level := 2, tile := 0, source := 0, since := 0, begun := true }] } }
     1 ≤ n.fuses.dbgPol ∧ n.sec.token.isSome = true ∧ n.heldL2 = true ∧ n.fuses.dbgPol = pol ∧ n.dev.unlocked = true ∧ (n.ten 5).consent = true
      ∧ n.ownerOfThr (thrNo th0) = some 5 ∧ (n.thread (thrNo th0)).isSome = true) := by decide +kernel

/-! ## Witnesses: power, resets, detection (15, 16) -/

def est (fixed : Bool) (hi room : Nat) : Node :=
  let n := (nMem.setReg .isoCfg 0 (b2n fixed)).setReg .tpwrLim 0 100
  { n with power := { n.power with overCnt := List.replicate 8 hi, roomCnt := List.replicate 8 room } }

/-- Estimates at the limit and beyond it, in the last count; rails at their bounds; idle and waking clocks; temperatures on each side of each limit. -/
theorem witness_PowerResults_estimates :
    (est true 0 0).fixedSlot = true
    ∧ (let n := est false 2 98
     n.fixedSlot = false ∧ ¬ 1000 * fld (n.reg .tpwrLim) 0 8 < 100000 ∧ (n.power.overCnt.getD 7 0 + 1 < 4) ∧ n.power.roomCnt.getD 7 0 + 1 < 100)
    ∧ (let n := est false 3 0
     n.fixedSlot = false ∧ 1000 * fld (n.reg .tpwrLim) 0 8 < 100001 ∧ n.power.overCnt.getD 7 0 + 1 = 4)
    ∧ (let n := est false 0 99
     n.fixedSlot = false ∧ 92970 + 7030 ≤ 1000 * fld (n.reg .tpwrLim) 0 8 ∧ n.power.roomCnt.getD 7 0 + 1 = 100)
    ∧ (100 * 807 < 95 * railNominal.getD 16 0 ∧ 105 * railNominal.getD 16 0 < 100 * 893) := by decide +kernel

theorem witness_PowerResults_clocks :
    (let n : Node := { (nMem.setReg .clkCfg 0 (2 ^ 16 + 1)) with clk := 1000 }
     n.threadsOf 31 = [] ∧ n.passed (KList.getD n.power.idleSince 31 0) (fld (n.reg .clkCfg) 0 16) = true)
    ∧ (let n : Node := { (nMem.setReg .clkCfg 0 (2 ^ 16 + 1)) with clk := 1000000, power := { nMem.power with freewheel := 15 * 2 ^ 28 } }
     fld n.power.freewheel 28 4 = 15 ∧ (n.tile 7).queue = [] ∧ (n.tile 7).batch = none ∧ bitAt n.power.pllOn 7 = true
      ∧ (∀ j, j < 4 → n.passed (KList.getD n.power.idleSince (28 + j) 0) (1000 * fld (n.reg .clkCfg) 16 16) = true)
      ∧ n.passed (KList.getD n.power.idleSince 39 0) (1000 * fld (n.reg .clkCfg) 16 16) = true)
    ∧ (let n : Node := { run nMem t5 ctx5 with power := { nMem.power with pllOn := 254 } }
     bitAt n.power.pllOn 0 = false ∧ (∃ j, j < 4 ∧ n.threadsOf (4 * 0 + j) ≠ []))
    ∧ (let n := nMem.setReg .therm 0 (95 * 256 + 85)
     ((∃ x ∈ [85], fld (n.reg .therm) 0 8 ≤ x) ∧ (∀ x ∈ [85], x < fld (n.reg .therm) 8 8) ∧ (∃ x ∈ [85], fld (n.reg .therm) 8 8 ≤ x + 10))
      ∧ ((∃ x ∈ [95], fld (n.reg .therm) 0 8 ≤ x) ∧ (∃ x ∈ [95], fld (n.reg .therm) 8 8 ≤ x))
      ∧ ((∀ x ∈ [79], x + 5 < fld (n.reg .therm) 0 8) ∧ (∀ x ∈ [89], x < 90) ∧ (∀ x ∈ [79], x + 10 < fld (n.reg .therm) 8 8)))
    ∧ (let n : Node := { nMem with clk := 10000000, power := { nMem.power with throttle := true, coolSince := some 0 } }
     n.power.throttle = true ∧ n.passed n.power.throttleStep 1000 = true ∧ n.power.coolSince = some 0 ∧ 0 + 10000000 ≤ n.clk)
    ∧ (let n : Node := { nMem with clk := 10000000 }
     n.power.throttle = false ∧ n.passed n.power.throttleStep 10000 = true) := by decide +kernel

def nHot : Node := { nMem.setReg .therm 0 (95 * 256 + 85) with power := { nMem.power with throttle := true } }
theorem sensor_keeps (n : Node) (i v : Nat) : (n.setSensor i v).mgt.thermTripN = n.mgt.thermTripN ∧ (n.setSensor i v).power = n.power := by
  unfold Node.setSensor
  dsimp only
  split <;> exact ⟨rfl, rfl⟩

/-- A node that is throttled, at 95 degrees and a trip limit of 95: the trip clause's last premise, whatever the sensors' own limits. -/
theorem witness_PowerResults_trip : ((nHot.setSensors 1 [95]).setSensors 12 []).engage.mgt.thermTripN = true ∧ fld (nHot.reg .therm) 8 8 ≤ 95
    ∧ fld (nHot.reg .therm) 0 8 ≤ 95 := by
  refine ⟨?_, by decide +kernel, by decide +kernel⟩
  have h := sensor_keeps nHot 1 95
  show (nHot.setSensor 1 95).engage.mgt.thermTripN = true
  unfold Node.engage
  rw [if_pos (h.2 ▸ rfl)]
  exact h.1

def nPf (p : PfPhase) (clk : Nat) : Node := { nMem.setReg .pfCfg 0 100 with clk := clk, mgt := { nMem.mgt with pfPhase := p } }

/-- Each step of a power failure at its first instant. -/
theorem witness_PowerFailureResults :
    ((nPf .idle 0).mgt.pfPhase = .idle ∧ 99 < fld ((nPf .idle 0).reg .pfCfg) 0 8 ∧ (2000 : Nat) ≤ 2000)
    ∧ ((nPf .tripped 3000).mgt.pfPhase = .tripped ∧ (nPf .tripped 3000).mgt.pfSince + 3000 ≤ (nPf .tripped 3000).clk)
    ∧ (∀ d ∈ [8000, 18000], (nPf .frozen d).mgt.pfPhase = .frozen ∧ (nPf .frozen d).mgt.pfSince + d ≤ (nPf .frozen d).clk)
    ∧ (nPf .saving 0).mgt.pfPhase = .saving ∧ ((nPf .saving 0).mgt.pfPhase ≠ .idle ∧ (nPf .saving 0).mgt.pfPhase ≠ .done ∧ 89 < 90)
    ∧ ((nPf .done 0).mgt.pfPhase = .done ∧ fld ((nPf .done 0).reg .pfCfg) 0 8 + 4 < 105 ∧ (10 : Nat) ≤ 10) := by decide +kernel

def rs (level tile : Nat) (b : Bool) : ResetRun := { level := level, tile := tile, source := 0, since := 0, begun := b }
def nRst (r : ResetRun) : Node := { nMem with mgt := { nMem.mgt with resets := [r] } }

/-- A brown-out; a due reset of each level, on the last tile; completions of levels 2 and 3; a start that is done, and one that is late. -/
theorem witness_ResetResults_resets :
    (nMem.mgt.pfPhase = .idle ∧ (10 : Nat) ≤ 10 ∧ (100 : Nat) ≤ 100)
    ∧ ((nRst (rs 3 7 false)).mgt.pfPhase = .idle ∧ (nRst (rs 3 7 false)).dueReset 3 (some 7) = some (rs 3 7 false))
    ∧ (∀ l ∈ [0, 1, 2], (nRst (rs l 0 false)).mgt.pfPhase = .idle ∧ (nRst (rs l 0 false)).dueReset l none = some (rs l 0 false))
    ∧ (nRst (rs 2 0 true)).mgt.resets.find? (fun r => r.begun && r.level == 2) = some (rs 2 0 true)
    ∧ (nRst (rs 3 7 true)).mgt.resets.find? (fun r => r.begun && r.level == 3 && r.tile == 7) = some (rs 3 7 true)
    ∧ (let n : Node := { nMem with clk := 2000000000, dev := { nMem.dev with starting := some 0 } }
     n.dev.starting = some 0 ∧ 0 + 2000000000 ≤ n.clk) := by decide +kernel

def start0 (adc : Nat) : StartInfo :=
  { adc := adc, slotAOk := true, slotBOk := false, progs := [], words := [], measure1 := 0, measure2 := 0, measure3 := 0, cfgBlock := [], cfgSigOk := false
    railsOk := true, pop := noPop, badChannels := [], badSpokes := [], badCassettes := [], wrapOk := false, journalOk := 0 }

/-- Three failures; the recovery strap; a start from slot A, and from slot A when the strap names B. -/
theorem witness_ResetResults_start :
    (∃ r ∈ (nRst (rs 0 0 true)).mgt.resets, r.begun = true ∧ r.level ≤ 1) ∧ (nRst (rs 0 0 true)).dev.starting = none
    ∧ (let n : Node := { nRst (rs 0 0 true) with qspi := { n0.qspi with fails := 3 } }
     3 ≤ n.qspi.fails)
    ∧ (let n : Node := { nRst (rs 1 0 true) with qspi := { n0.qspi with fails := 2 } }
     n.qspi.fails < 3 ∧ (n.readStrap (start0 896).adc).dev.strap = 14)
    ∧ (∀ adc ∈ [0, 64, 128],
     let i := start0 adc
     let s : Node := { nRst (rs 1 0 true) with qspi := { n0.qspi with fails := 2 } }
     let n := s.readStrap i.adc
     let n : Node := { n with qspi := { n.qspi with fails := min 3 (n.qspi.fails + 1) }, dev := { n.dev with starting := some n.clk } }
     let want := strapSlotB n.dev.strap
     let okWant := if want then i.slotBOk else i.slotAOk
     let okOther := if want then i.slotAOk else i.slotBOk
     let d : Dev := { n.dev with slot := b2n (want == okWant), slotFallback := !okWant, measure1 := i.measure1, measure2 := i.measure2,
                                 measure3 := i.measure3, func := n.dev.func0 }
     let m := ({ n with
       dev := d
       spokes := { n.spokes with progs := i.progs.foldl (fun m p => KList.put m p.1 p.2) [], istore := i.words.foldl (fun m p => KList.put m p.1 p.2) [] }
       : Node }).enableRails
     let m : Node := { m with power := { m.power with railGood := 2 ^ 17 - 1, pllOn := 0xFF } }
     s.qspi.fails < 3 ∧ (s.readStrap i.adc).dev.strap ≠ 14 ∧ i.railsOk = true ∧ (okWant = true ∨ okOther = true)
      ∧ (m.configure i.cfgBlock i.cfgSigOk).isSome = true) := by decide +kernel

/-- Tests of the last spoke and cassette; errors of a tile's control a second apart and closer; arms, latches and completions of both banks. -/
theorem witness_DetectionResults :
    (bitAt (nMem.spokeRet 31) 63 = false ∧ bitAt nMem.power.tileRet 7 = false ∧ (nMem.tile 7).batch = none)
    ∧ (∀ c ∈ [999999999, 1000000000], let n : Node := { nMem with clk := c, power := { nMem.power with src13At := [(7, 0)] } }
     KList.find? n.power.src13At 7 = some 0 ∧ (n.clk < 0 + 1000000000 ∨ 0 + 1000000000 ≤ n.clk))
    ∧ (let n := nPort 5
     (1 ≠ n.dev.node ∧ n.snap.seen.contains (1, 9) = false ∧ (n.port 15).state = 5 ∧ n.now < 1 ∧ n.snap.armed.length < 4))
    ∧ (let n : Node := { nMem with mgt := { nMem.mgt with timeNs := 9 }, snap := { nMem.snap with armed := [⟨9, 1⟩] } }
     n.snap.armed.find? (fun a => decide (a.t ≤ n.now)) = some ⟨9, 1⟩)
    ∧ (∀ b ∈ [0, 1], let n : Node := { nMem with snap := { nMem.snap with latching := [⟨9, b⟩] } }
     n.snap.latching.find? (fun a => a.seq % 2 == b) = some ⟨9, b⟩) := by decide +kernel

/-! ## Witnesses: tiers and flash (09, 10) -/

def mv0 (bits : Nat) (stop : Option Nat) : Move := { owner := 5, region := 0, tier := 2, loc := 9, atDst := bits, stopped := stop, rehash := false }
def nMv (i : Nat) (m : Move) : Node := { nMem with mem := { nMem.mem with moves := [(i, m)] } }
def repl0 : Repl := { owner := 5, first := 0, count := 1, primary := 1, replicas := [0], seq := 0 }

/-- Items over the last region; an unmap that may complete; an epoch; tier 2 nearly full; chunks 0 and 31 of the last move; a replica's next write. -/
theorem witness_TierResults :
    (let i := item 0x28 0 1 [2 ^ 27 - 1, 5, 0]
     let n := withM (nMem.setReg .tq0 5 (2 ^ 64 - 1)) i
     n.mHead 3 0x28 = some (adm i) ∧ (n.regionMap (n.regionItemOwner (adm i).item) (fld ((adm i).item.arg 2) 0 3) (itemRegions (adm i).item)).1 = 0)
    ∧ (∀ op ∈ [0x29, 0x2A], let i := item op 0 1 [0, 5, 1, 1]
     let n := withM nMem i
     n.mHead 3 op = some (adm i) ∧ itemRegions (adm i).item ≠ [] ∧ n.allOf (n.regionItemOwner (adm i).item) (itemRegions (adm i).item) = true
      ∧ n.tilesFit (n.flagRegions (n.regionItemOwner i) (fld (i.arg 2) 0 3) (fld (i.arg 3) 0 3) (itemRegions i)) = true)
    ∧ (let u : Unmap := { owner := 5, regions := [0], item := none }
     let n : Node := { nMem with mem := { nMem.mem with unmaps := [u] } }
     n.mem.unmaps.find? (fun u => u.owner == 5 && u.regions.contains 0) = some u ∧ n.quiet 5 0 = true ∧ n.dataUp = true ∧ n.discardRoom 5 0 = true)
    ∧ (let n : Node := { nMem.setReg .drlCfg 0 (2 ^ 24) with clk := 1000000 }
     n.passed n.mem.lastEpoch (1000 * fld (n.reg .drlCfg) 24 8) = true ∧ n.dataUp = true)
    ∧ (let n : Node := { nMem with mem := { nMem.mem with
         grants := [⟨1, 0, 1, 0⟩], regions := [(5, (List.range 8).map fun i => (i, { reg5 with tier := 3, loc := i }))] } }
     n.fixedSlot = false ∧ n.dataUp = true ∧ 8 * n.tierFree 3 < n.tierCap 3)
    ∧ (∀ c ∈ [0, 31], let m := mv0 (2 ^ c - 1) none
     KList.find? (nMv 63 m).mem.moves 63 = some m ∧ m.stopped = none ∧ (nMv 63 m).dataUp = true ∧ bitAt m.atDst c = false
      ∧ (∀ d, d < c → bitAt m.atDst d = true) ∧ ((nMv 63 m).copyChunk m c).isSome = true
      ∧ (nMv 63 m).region 5 0 = some reg5 ∧ reg5.tier ≠ 3)
    ∧ (let n := (nMv 63 (mv0 0 none)).setRegion 5 0 { reg5 with tier := 3 }
     KList.find? n.mem.moves 63 = some (mv0 0 none) ∧ n.dataUp = true ∧ (n.region 5 0).map (·.tier) = some 3)
    ∧ (let n : Node := { nMem with peloton := { nMem.peloton with repls := [repl0] } }
     n.replOf 5 (regionOf 0x1FFFFF) = some repl0 ∧ n.isReplica 5 (regionOf 0x1FFFFF) = true ∧ 1 = (n.replica 5 repl0.first).applied + 1 ∧ n.dataUp = true
      ∧ n.isReplica 5 0 = true) := by decide +kernel

/-- A population of one die: blocks 7 and 8 are not static. -/
def pop1 : Population := { noPop with pagesPerDie := 72, pagesPerBlock := 8 }
def blk1 (pool erases reads : Nat) : FBlock := { fb pool 1 with erases := erases, reads := reads }
def nFls (bl : KList FBlock) : Node :=
  let n := (nMem.setReg .flsCfg 0 (100 * 2 ^ 8 + 100 * 2 ^ 16)).setReg .flsWlCfg 0 0
  { n with flash := { n.flash with pop := some pop1, dies := 1, popOk := true, blocks := bl } }

/-- A mapped unit's read; a patrol; a failed program; collection, folding, wear and refresh; calibration; write-back of data and of a map page; a line that waits. -/
theorem witness_FlashResults :
    (nMem.setReg .isoCfg 0 1).fixedSlot = true
    ∧ (let n : Node := { nFls [] with flash := { (nFls []).flash with map := [(77, 9)] } }
     KList.find? n.flash.map 77 = some 9 ∧ n.flsOn = true)
    ∧ (let n := nFls [(blkKey 0 8, blk1 2 0 0)]
     n.flsOn = true ∧ (n.blk 0 8).filled ≠ 0 ∧ (n.blk 0 8).pool ≠ 0 ∧ (n.blk 0 8).pool ≠ 4 ∧ 0 < n.flash.dies ∧ bitAt n.flash.dieRet 0 = false
      ∧ n.pop.staticBlocks ≤ 8 ∧ 8 < n.pop.blocksPerDie ∧ n.sysWindow 0 = true ∧ 1000 * fld (n.reg .flsWlCfg) 0 16 ≤ (n.blk 0 8).reads ∧ (n.blk 0 8).refreshed = none
      ∧ n.dieFreePct 0 < fld (n.reg .flsCfg) 8 8 ∧ n.dieFreePct 0 < fld (n.reg .flsCfg) 16 8
      ∧ (∀ t, KList.find? n.flash.zqAt 0 = some t → n.passed t 250000 = true))
    ∧ (let n := nFls [(blkKey 0 8, blk1 1 0 0)]
     n.oldestBuffer 0 = some 8 ∧ n.flsOn = true ∧ n.sysWindow 0 = true)
    ∧ (let n := nFls [(blkKey 0 7, { freeBlk with erases := 1 }), (blkKey 0 8, blk1 2 0 0)]
     n.wearPair 0 = some ((8, blk1 2 0 0), (7, { freeBlk with erases := 1 })) ∧ n.flsOn = true ∧ n.sysWindow 0 = true
      ∧ (∀ t, KList.find? n.flash.lastMove 0 = some t → n.passed t 1000000 = true) ∧ bitAt n.flash.dieRet 0 = false ∧ fld (n.reg .flsWlCfg) 16 16 < n.topErases 0 - 0
      ∧ n.mapBytes + 64 * (n.validUnits 0 8).length ≤ mapShare)
    ∧ (let r : JRec := { jtype := 2, seq := 1, key := 9, aux := 0, payload := [], since := 0 }
     let n : Node := { nFls [] with clk := 1000000000, flash := { (nFls []).flash with data := [r], dirty := [(3, (1, 0))], waits := [{ rcd := r, ack := .none }] } }
     n.writeBackDue = some 9 ∧ n.flsOn = true ∧ (n.unitHome 9 = none ∧ n.fixedSlot = false) ∧ n.pageDue 3 = true
      ∧ n.flash.waits.find? (fun w => n.dataRoom w.rcd) = some { rcd := r, ack := .none })
    ∧ ((nFls []).flash.waits = [] ∧ (nFls []).flsOn = true ∧ (nFls []).dieWorn 0 = false)
    ∧ (nFls [(blkKey 0 8, blk1 4 0 0)]).dieWorn 0 = true := by
  decide +kernel

/-! ## Witnesses: registers, the mailbox, the host (00, 13, 14, 15, 17) -/

/-- `Accepts`, for the register that the write names and the role that it needs. -/
def acceptsAs (n : Node) (src : Src) (name : RegName) (i v : Nat) (r : Option Role) (a : RegAt) : Bool :=
  decide (cover bar0Rows true a.off a.row.width = .regs [a]) && decide (a.row.name = name) && decide (a.idx = i) && decide (src = .pf ∨ src = .fw)
  && decide (a.off + a.row.width ≤ 0x4000000) && (!n.dev.pewter || pewterKeeps a.off) && decide (v < 2 ^ (8 * a.row.width))
  && decide (n.writeRole src (n.roleOf src) a v = (0, r)) && decide (a.row.mask (fun x => x != .ro) ≠ 0) && decide (a.row.reserved v = 0)
  && decide (n.regCheck name i (v &&& a.row.mask fun x => x != .ro) = 0) && (r.isNone || n.auditOk)

def regNamed (name : RegName) (i : Nat) : RegAt :=
  (findReg bar0Rows (regOff name i)).getD ⟨{ name := name, base := 0, stride := 0, count := 0, width := 0, writer := .any, reader := .any, fields := [] }, 0, 0⟩

def acceptsB (n : Node) (src : Src) (name : RegName) (i v : Nat) : Bool :=
  let a := regNamed name i
  (findReg bar0Rows (regOff name i)).isSome && acceptsAs n src name i v (n.writeRole src (n.roleOf src) a v).2 a

theorem accepts_of {n : Node} {src : Src} {name : RegName} {i v : Nat} (h : acceptsB n src name i v = true) :
    ∃ r, Accepts n src name i v r (regNamed name i) := by
  simp only [acceptsB, acceptsAs, Bool.and_eq_true, decide_eq_true_eq, Bool.or_eq_true, Bool.not_eq_true', Option.isNone_iff_eq_none] at h
  obtain ⟨f, ⟨⟨⟨⟨⟨⟨⟨⟨⟨⟨whole, nm⟩, ix⟩, sr⟩, ins⟩, kept⟩, fits⟩, role⟩, wr⟩, rsv⟩, inr⟩, aud⟩ := h
  refine ⟨_, ?_, whole, ⟨nm, ix⟩, sr, ins, kept, fits, role, wr, rsv, inr, fun h => ?_⟩
  · obtain ⟨a, ha⟩ := Option.isSome_iff_exists.mp f
    simp [regNamed, ha]
  · cases aud with
    | inl e => rw [e] at h; cases h
    | inr e => exact e

/-- Writes of the last register of each kind by the firmware, with the further premise of its clause (fixed-slot mode is written where
it is on already: then no sum of quotas is asked for). -/
def regWrites : List (Node × RegName × Nat × Nat × Bool) :=
  [(nMem.setTen 5 { noTen with valid := true }, .qcfg, 8191, 2 ^ 63 + 5 * 2 ^ 47 + 4 * 2 ^ 43 + 2 ^ 61, !(nMem.qcfg 8191).valid)
   , (nMem.setReg .qcfg 8191 (2 ^ 63), .qcfg, 8191, 0, ((nMem.setReg .qcfg 8191 (2 ^ 63)).qcfg 8191).valid)
   , (nMem, .shpCfg, 1023, 0, true)
   , (nMem, .clsCfg, 6, 0, true)
   , (nMem.setReg .isoCfg 0 1, .isoCfg, 0, 1 + 2 ^ 12 + 100 * 2 ^ 16, true)
   , (nMem, .isoCfg, 0, 2 ^ 12 + 100 * 2 ^ 16, true)
   , (nMem, .tenCfg, 1023, 2 ^ 63, true)
   , (nMem.setTen 1023 { noTen with valid := true }, .tenCfg, 1023, 0, ((nMem.setTen 1023 { noTen with valid := true }).ten 1023).valid)
   , (nMem, .cliId, 1023, 2 ^ 63 + 5 * 2 ^ 26, !(nMem.cliId 1023).valid)
   , (nMem.setClient 1023 { noClient with live := true } |>.setReg .cliId 1023 (2 ^ 63), .cliId, 1023, 0,
      ((nMem.setClient 1023 { noClient with live := true }).client 1023).live)
   , (nMem, .cliBw, 1023, 2 ^ 16 + 1, true)
   , (nMem, .tq0, 1023, 1, true), (nMem, .tq1, 1023, 1, true)
   , (nMem, .tbCfg, 0, 2, true)
   , (nMem, .rstReq, 0, 1, true)
   , (nMem, .rstProg, 0, rstMax, true)
   , (nMem, .strapOvr, 0, 2 ^ 4 + 11, true)
   , (nMem.setReg .timeCfg 0 (2 ^ 5), .timeSet, 0, 2 ^ 64 - 1, true)
   , ({ nMem with log := { nMem.log with head := 5 } }, .logRing, 0, 5, true)
   , (nMem, .ffCtl, 0, 1, true)
   , (nMem, .logStat, 0, 0xF8, true)
   , (nMem, .snapArm, 0, 2 ^ 40, true)
   , ({ nMem with dev := { nMem.dev with slot := 1 } }, .mboxCtl, 0, 2, decide (1 ≠ b2n (bitAt 2 16)))
   , (nMem.fillWindow [], .mboxCtl, 0, 3839 * 8 + 1, decide (fld (3839 * 8 + 1) 3 13 ≤ 3839))
   , (nMem, .mboxCtl, 0, 3, true)
   , ({ nMem with dev := { nMem.dev with pewter := true } }, .mboxCtl, 0, 4, true)
   , ({ nMem with dev := { nMem.dev with pewter := true }, qspi := { nMem.qspi with auditUsed := 256 } }, .mboxCtl, 0, 2, true)]

/-- The writes of RegisterCommandResults, of MailboxResults, of RegisterAccessResults and of AuditChainHolds. -/
theorem witness_RegisterCommandResults : ∀ p ∈ regWrites,
    (∃ r, Accepts p.1 .fw p.2.1 p.2.2.1 p.2.2.2.1 r (regNamed p.2.1 p.2.2.1)) ∧ p.2.2.2.2 = true := by
  have h : (regWrites.all fun p => acceptsB p.1 .fw p.2.1 p.2.2.1 p.2.2.2.1 && p.2.2.2.2) = true := by decide +kernel
  intro p hp
  have := Bool.and_eq_true_iff.mp (List.all_eq_true.mp h p hp)
  exact ⟨accepts_of this.1, this.2⟩

/-- What the clauses of the mailbox add: the installer's firmware, a log with room, and none. -/
theorem witness_MailboxResults : (n0.roleOf .fw [.installer]).isSome = true ∧ nMem.auditOk = true
    ∧ ({ nMem with qspi := { nMem.qspi with auditUsed := 256 } } : Node).auditOk = false ∧ fld 2 0 3 = 2 ∧ fld 3 0 3 = 3 ∧ fld 4 0 3 = 4
    ∧ nMem.dev.pewter = false := by decide +kernel

/-- A whole write; a read that any function may do; a write that starts in the middle of a register; a doorbell of the last function and page, and of the last queue; a client's status. -/
theorem witness_RegisterAccessResults :
    (∃ r, Accepts nMem.free.2 .fw .clkCfg 0 (1000 * 2 ^ 16 + 1) r (regNamed .clkCfg 0)) ∧ RegName.clkCfg ≠ .mboxCtl
    ∧ (∃ r, Accepts nMem .pf .qDb 8191 65535 r (regNamed .qDb 8191)) ∧ (regNamed .qDb 8191).off = 0x2000000 + 4096 * 8191
    ∧ (regNamed .qDb 8191).row.width = 4 :=
  ⟨accepts_of (by decide +kernel), by decide, accepts_of (by decide +kernel), by decide +kernel, by decide +kernel⟩

theorem witness_RegisterAccessResults_reads :
    (let a := regNamed .mboxCtl 0
     cover bar0Rows false a.off a.row.width = .regs [a] ∧ a.off + a.row.width ≤ 0x4000000 ∧ pewterKeeps a.off = true ∧ readerOk (nMem.roleOf .pf) a = true)
    ∧ (nMem.dev.pewter = false ∧ 0x10F04 + 8 ≤ 0x4000000 ∧ cover bar0Rows true 0x10F04 8 = .bad)
    ∧ (let a := regNamed .cliStat 1023
     let n := nMem.setReg .cliId 1023 (2 ^ 63 + 5 * 2 ^ 26)
     let n : Node := { n with sec := { n.sec with sessions := [(7, sess7 .pfDoe (some .operator) true)] } }
     regOff .cliStat 1023 = a.off ∧ cover bar0Rows false a.off 8 = .regs [a] ∧ a.off + 8 ≤ 0x4000000 ∧ a.row.name = .cliStat ∧ a.idx = 1023
      ∧ a.row.width = 8 ∧ n.dev.pewter = false ∧ readerOk (n.roleOf .pf) a = true ∧ (n.cliId 1023).valid = true ∧ (n.cliId 1023).remote = false
      ∧ (n.cliId 1023).func = 0) := by decide +kernel

def vfDb : RegAt := (findReg vfRows (4096 * 14)).getD (regNamed .qDb 0)
theorem witness_RegisterAccessResults_doorbells :
    (let n := ((nMem.setTen 1023 { noTen with valid := true }).setKslot 1023 { state := 1, key := 1, keyId := 1, copies := 3 }).setReg .qcfg 8191
       (2 ^ 63 + 1023 * 2 ^ 47 + 4 * 2 ^ 43 + 1024 * 2 ^ 16 + 14)
     n.dev.pewter = false ∧ n.tenantUse 1023 = 0 ∧ 14 < 15 ∧ 2 ^ 32 - 1 < 2 ^ 32 ∧ cover vfRows true (4096 * 14) 4 = .regs [vfDb] ∧ vfDb.row.name = .qDb
      ∧ vfDb.idx = 14 ∧ vfDb.row.width = 4 ∧ vfDb.row.mask (fun x => x != .ro) ≠ 0 ∧ vfDb.row.reserved (2 ^ 31 + 65535) = 0 ∧ n.vfQueue 1023 14 = some 8191
      ∧ bitAt (2 ^ 31 + 65535) 31 = true ∧ bitAt 65535 31 = false) := by decide +kernel

/-- A link of the widest and of the slowest; sensors at the ends of their ranges; an event that waits; a pin of each function. -/
theorem witness_HostInterfaceResults :
    (nMem.dev.pewter = false ∧ 16 ∈ [1, 2, 4, 8, 16] ∧ 1 ∈ [1, 2, 4, 8, 16] ∧ (1 : Nat) ≤ 6) ∧ (isSensor 145 = true ∧ isSensor 1 = true ∧ 128 ≤ 145)
    ∧ (isSensor 96 = true ∧ 96 < 128 ∧ nMem.sensorValue 96 = some 0)
    ∧ (let n : Node := { nMem with hif := { nMem.hif with pldmEvents := [(145, 1)] } }
     n.hif.pldmEvents = (145, 1) :: [])
    ∧ (fld ((nMem.setReg .gpioCfg 0 (3 * 2 ^ 14)).reg .gpioCfg) (2 * 7) 2 = 3 ∧ fld (nMem.reg .gpioCfg) (2 * 7) 2 ≠ 3) := by decide +kernel

/-! ## Witnesses: the whole machine -/

/-- The reset state meets the invariant of the byte maps, and steps. -/
theorem witness_StepKeepsByteMaps : State.reset.ok = true ∧ (match step State.reset with
    | .next t => t.ok
    | _ => false) = true := by decide +kernel

/-- Node time that runs and that is held. -/
theorem witness_StepRunsFrontCommand : n0.mgt.timeHold = none ∧ ({ n0 with mgt := { n0.mgt with timeHold := some 5 } } : Node).mgt.timeHold = some 5 := by
  decide +kernel

/-- A thread that waits for a pop of queue 3, with nothing to pop, and with two slots at the end of its local pages. -/
def tPop (d : Nat) : Thread := { t5 with wait := some (.pop 3 d 2 none) }
def nPop (q : Queue) (d : Nat) : Node := run (pipe q) (tPop d) ctx5
theorem witness_SettledKeepsTheNode :
    (memOk n0.mem.bytes = true ∧ memOk n0.flash.media = true) ∧ (n0.poppers = [])
    ∧ (let q := { emptyQueue with tail := 2, pushed := [(0, 1), (1, 1)] }
     (nPop q 3840).poppers = [0] ∧ (nPop q 3840).thread 0 = some (tPop 3840) ∧ (tPop 3840).wait = some (.pop 3 3840 2 none)
      ∧ (nPop q 3840).popSlots 3 ≠ 0 ∧ 3840 + 128 * (nPop q 3840).popSlots 3 ≤ 4096 * (tPop 3840).lsize)
    ∧ ((nPop emptyQueue 3840).poppers = [0] ∧ (nPop emptyQueue 3840).popSlots 3 = 0)
    ∧ (∀ n ∈ [n0, nPop emptyQueue 3840, nPop { emptyQueue with tail := 2, pushed := [(0, 1), (1, 1)] } 3840], Quiet n)
    ∧ (∀ ty ∈ [0, 3], let y := syn ty 2 0 [0]
     let n := nSync y { t5 with wait := some (.sem 4095 2 none) } ctx5
     n.poppers = [] ∧ n.fabric.outbox = [] ∧ n.fabric.portOut = [] ∧ (n.qsy.syncs.filter fun p => !p.2.waiters.isEmpty) = [(4095, y)]
      ∧ (y.type = 0 ∨ y.type = 3)) := by
  unfold Quiet
  decide +kernel

theorem witness_CanonicalBytesReadTheSame :
    KList.ok ([(1, 0), (2 ^ 60, 255)] : List Host.Cell) = true ∧ memOk ([(1, 7), (2 ^ 60, 255)] : List Host.Cell) = true := by decide +kernel

theorem witness_MemoryOfOneOwner :
    memOk n0.mem.bytes = true ∧ (2 ^ 48 - 1) % 2 ^ 48 + ([7] : Bytes).length ≤ 2 ^ 48 ∧ (0 % 2 ^ 48 + 1 ≤ (2 ^ 48 - 1) % 2 ^ 48) ∧ (4 : Nat) ≠ 5 := by decide +kernel

/-- A thread that may not issue, that is past its program, whose word is another, and that stalls on an outstanding register. -/
theorem witness_InstructionsThatDoNotIssue :
    (n0.thread (thrNo th0) = none)
    ∧ (let t := { t5 with wait := some .cas }
     (run n0 t ctx5).thread (thrNo th0) = some t ∧ (run n0 t ctx5).ctx t.ctx = some ctx5 ∧ (run n0 t ctx5).canIssue (thrNo th0) t = false)
    ∧ (∀ pc ∈ [100, 32767], let t := { t5 with pc := pc }
     (run n0 t ctx5).canIssue (thrNo th0) t = true ∧ (t.pc < t.lo ∨ t.hi ≤ t.pc))
    ∧ (let n : Node := { run n0 t5 ctx5 with spokes := { (run n0 t5 ctx5).spokes with istore := [(99, 1)] } }
     n.canIssue (thrNo th0) t5 = true ∧ t5.lo ≤ t5.pc ∧ t5.pc < t5.hi ∧ n.reservedAt t5.pc = true)
    ∧ (let n : Node := { run n0 t5 ctx5 with spokes := { (run n0 t5 ctx5).spokes with istore := [(99, (encF1 1 0 f1).toNat)] } }
     n.canIssue (thrNo th0) t5 = true ∧ n.reservedAt t5.pc = false ∧ n.fetched t5.pc (encF1 1 1 f1) = false ∧ n.fetched t5.pc (encF1 1 0 f1) = true)
    ∧ ((run n0 t5 ctx5).fetched t5.pc (encF1 1 0 f1) = true ∧ ({ f1 with rsv := 1 } : F1).rsv ≠ 0) := by decide +kernel

/-- A destination that a load still owes. -/
theorem witness_InstructionsThatDoNotIssue_stall :
    Issues (at' (nAcc 0 6)) th0 (encF1 1 0 f1) t5 ctx5 ∧ ¬ Landed (at' (nAcc 0 6)) th0 [sDst f1.rd.toNat, .s f1.ra.toNat, .s f1.rb.toNat] := by
  refine ⟨⟨by decide +kernel, by decide +kernel, by decide +kernel, by decide +kernel, by decide +kernel, by decide +kernel, by decide +kernel⟩, ?_⟩
  unfold Landed
  decide +kernel

def ent (k i : Nat) : Entry := { key := k, flags := 1, gen := 0, id := i }
theorem witness_TopKKeepsTheBest : Alike [ent 2 1, ent 1 9, ent 2 1] ∧ List.Perm [ent 2 1, ent 1 9] [ent 1 9, ent 2 1] := by
  refine ⟨?_, .swap _ _ _⟩
  unfold Alike
  decide

theorem witness_MergingPartsIsMergingTheWhole : Alike [[ent 2 1], [], [ent 1 9, ent 2 1]].flatten := by
  unfold Alike
  decide

theorem witness_PartialsReachTheCoordinator : ∀ topo ∈ [0, 1, 2, 3],
    2 < ({ topo := topo, fanin := 2, nlist := [(0, 0), (1, 0), (2, 0)] } : Plan).nlist.length := by decide

/-- A ring that is empty at the wrap of its count, and one that is full. -/
def nLog (tail unread : Nat) (ring : KList LogRec) : Node :=
  { n0 with log := { n0.log with tail := tail, head := (tail + unread) % 2 ^ 32, ring := ring } }
theorem witness_LogRingStaysBounded : ∀ u ∈ [0, 20480],
    (nLog (2 ^ 32 - 1) u []).log.head < 2 ^ 32 ∧ (nLog (2 ^ 32 - 1) u []).log.tail < 2 ^ 32 ∧ (nLog (2 ^ 32 - 1) u []).log.unread = u := by decide +kernel

def lrec (code : Nat) : LogRec := { time := 0, seq := 0, code := code, flags := 0, unit := 0, tid := 5, node := 0, count := 1, last := 0, detail := [] }
def lev : LogEv := { code := 9, unit := 0, tid := 5, all := false, count := 1, detail := [] }

/-- The newest of 17,920 unread records has the event's code and TID; then none has, below a full ring and on one. -/
theorem witness_FullLogRingCoalesces :
    (let n := nLog 0 17920 [(17919, lrec 9)]
     n.fixedSlot = false ∧ KList.ok n.log.ring = true ∧ n.log.head < 2 ^ 32 ∧ n.log.tail < 2 ^ 32 ∧ 17920 ≤ n.log.unread ∧ n.log.unread ≤ 20480
      ∧ KList.find? n.log.ring ((n.log.head + 2 ^ 32 - 1 - 0) % 2 ^ 32) = some (lrec 9) ∧ (lrec 9).code = lev.code ∧ (lrec 9).tid = lev.tid ∧ 0 < n.log.unread)
    ∧ (∀ u ∈ [20479, 20480], let n := nLog 0 u []
     n.fixedSlot = false ∧ KList.ok n.log.ring = true ∧ n.log.head < 2 ^ 32 ∧ n.log.tail < 2 ^ 32 ∧ 17920 ≤ n.log.unread ∧ n.log.unread = u) := by
  decide +kernel
theorem witness_FullLogRingCoalesces_none (u k : Nat) : ¬ ∃ x, KList.find? (nLog 0 u []).log.ring k = some x ∧ x.code = lev.code ∧ x.tid = lev.tid := by
  rintro ⟨x, h, -⟩
  cases h

def fl (q : Nat) : OutFlit := { seq := q, kind := 0, fctr := 0, pkt := none, payload := [], image := [], sent := 0 }
def nBuf : Node := nPort 5 fun x => { x with txSeq := 1, buffer := [fl 4095, fl 0] }
theorem nBuf_seq (i : Nat) (f : OutFlit) (h : (nBuf.port 15).buffer[i]? = some f) : f.seq = (4095 + i) % 4096 := by
  have e : (nBuf.port 15).buffer = [fl 4095, fl 0] := by decide +kernel
  rw [e] at h
  match i, h with
  | 0, h => cases h; rfl
  | 1, h => cases h; rfl
  | i + 2, h => simp at h

/-- Two flits across the wrap of the count: the acknowledgement of the newest frees both; one ahead of it, and one behind, free none. -/
theorem witness_AcknowledgementsFreeFlits :
    (nBuf.port 15).txSeq = 1 ∧ (nBuf.port 15).buffer.length = 2 ∧ (1 + 4096 - 2) % 4096 = 4095 ∧ (∀ i f, (nBuf.port 15).buffer[i]? = some f → f.seq = (4095 + i) % 4096)
    ∧ (1 ≤ seqD 0 4094 ∧ seqD 0 4094 ≤ 2) ∧ (¬ seqD 5 4094 ≤ 2 ∧ 1 ≤ seqD 5 0 ∧ seqD 5 0 ≤ 2047) ∧ (¬ 1 ≤ seqD 4094 4094 ∧ ¬ seqD 4094 0 ≤ 2047) :=
  ⟨by decide +kernel, by decide +kernel, by decide, nBuf_seq, by decide, by decide, by decide⟩

def arec : AudRec := { seq := 0, time := 0, role := 0, chan := 0, act := 1, status := 0, subject := [], target := 0, detail := [], prev := [] }
def nAud : Node := { nMem with sec := { nMem.sec with audit := [(0, arec), (1, { arec with seq := 1, prev := Sha.sha384 (auditBytes arec) })], audSeq := 2 } }

/-- A log of two records that are chained; a new log; a log without room. -/
theorem witness_AuditChainHolds : Chained nAud ∧ (nMem.auditOk = true ∧ nMem.sec.audSeq = 0 ∧ nMem.flash.popOk = false)
    ∧ ({ nMem with qspi := { nMem.qspi with auditUsed := 256 } } : Node).auditOk = false := by
  refine ⟨⟨rfl, ?_, ?_⟩, by decide +kernel, by decide +kernel⟩
  · intro p h
    simp only [nAud, List.mem_cons, List.not_mem_nil, or_false] at h
    rcases h with rfl | rfl
    · exact Nat.zero_lt_two
    · exact Nat.one_lt_two
  · intro i r r' h h'
    match i, h, h' with
    | 0, h, h' =>
      have e : arec = r := Option.some.inj h
      have e' : { arec with seq := 1, prev := Sha.sha384 (auditBytes arec) } = r' := Option.some.inj h'
      rw [← e', ← e]
    | 1, _, h' => simp [nAud, KList.find?] at h'
    | i + 2, h, h' => simp [nAud, KList.find?] at h

end Sys2Proof.Tests
end

/-! Memory as hosts reach it (08 R263, R265-R267; 17 R531): what a request does that lies in one export and whose
client's bandwidth lets it go on at once, and the read whose deadline has passed. -/

namespace Sys2Proof.Machine

open Sys2Proof.Claims

/-! ## The commands -/

theorem exec_cxlMemRead (dpa len : Nat) (l : Fin 16) (s : State) : exec (.cxlMemRead dpa len l) s = s.cxlMem dpa len l none := rfl

theorem exec_cxlMemWrite (dpa : Nat) (b : Bytes) (l : Fin 16) (s : State) :
    exec (.cxlMemWrite dpa b l) s = s.cxlMem dpa b.length l (some b) := rfl

theorem exec_peerWindowAccess (off len : Nat) (data : Option Bytes) (s : State) :
    exec (.peerWindowAccess off len data) s = execPeerWindowAccess off len data s := rfl

theorem exec_cxlReadDeadline (id : Nat) (s : State) : exec (.cxlReadDeadline id) s = execCxlReadDeadline id s := rfl

/-- CXL.mem with capacity exposed: the load figure of the command is kept, and the request goes on. -/
theorem cxlMem_exposed {s : State} (exposed : s.node.hif.capGb ≠ 0) (dpa len nload : Nat) (data : Option Bytes) :
    s.cxlMem dpa len nload data =
      s.settled (({ s.node with store := { s.node.store with nload := nload } } : Node).cxlRequest false dpa len data) := by
  simp only [State.cxlMem, if_neg exposed]

/-- An access inside the 64 GiB of the peer window is a request at its base and offset (17 R531). -/
theorem execPeerWindowAccess_inside {off : Nat} (inside : off < 2 ^ 36) (len : Nat) (data : Option Bytes) (s : State) :
    execPeerWindowAccess off len data s = s.settled
      (s.node.cxlRequest true (fld (s.node.reg .p2pBase) 0 27 * 2097152 + off) ((data.map (·.length)).getD len) data) := by
  simp only [execPeerWindowAccess, if_neg (Nat.not_le.mpr inside)]

/-- A read that waits past the deadline ends: the timeout is counted for its owner, and its data are poisoned (08 R267). -/
theorem execCxlReadDeadline_late {s : State} {id : Nat} {w : CxlWait} (found : KList.find? s.node.store.cxlWaits id = some w)
    (read : w.data = none) (late : s.node.passed w.issued (fld (s.node.reg .stoCfg) 0 16) = true) :
    execCxlReadDeadline id s = s.settled ((({ s.node with store := { s.node.store with
      cxlWaits := KList.del s.node.store.cxlWaits id } } : Node).tmo w.owner).cxlLater w.client 0x0B01 (List.replicate w.len 0)) := by
  simp only [execCxlReadDeadline, found, read, late, Option.isNone_none, Bool.and_self, if_true]

/-! ## Bandwidth (08 R263) -/

@[simp] theorem Node.fillClient_client (n : Node) (c : Nat) :
    (n.fillClient c).client c = { n.client c with tokens := n.tokensOf c, filledAt := (n.client c).filledAt + n.fillTime c } := by
  simp only [Node.fillClient, Node.setClient_client, if_true]

@[simp] theorem Node.fillClient_limited (n : Node) (c : Nat) : (n.fillClient c).limited c = (fld (n.reg .cliBw c) 0 16 != 0) := by
  simp only [Node.limited, Node.fillClient, Node.setClient_reg']

/-- A filled bucket gives a request its size: `MayDraw` is the condition of `Node.draw`, and `drew` its result. -/
theorem draw_of_mayDraw {n : Node} {c size : Nat} (may : MayDraw n c size) : (n.fillClient c).draw c size = some (drew n c size) := by
  obtain ⟨first, holds⟩ := may
  by_cases free : fld (n.reg .cliBw c) 0 16 = 0
  · simp [Node.draw, drew, first, free]
  · simp [Node.draw, drew, first, free, holds free]

/-! ## One piece of a request (08 R265) -/

/-- The access that a piece makes of its client's request, at a place in a tenant's memory. -/
def Node.cxlAccess (n : Node) (bar4 : Bool) (data : Option Bytes) (p : DpaPart) (c tid addr : Nat) : CxlWait :=
  { client := c, owner := tid, addr := addr, len := p.len, issued := n.clk, bar4 := bar4, data := data.map fun b => slice b p.off p.len }

/-- A write never waits for the media. -/
theorem cxlAtTier_write (n : Node) {w : CxlWait} {b : Bytes} (write : w.data = some b) : n.cxlAtTier w = n.cxlServe w := by
  simp [Node.cxlAtTier, write]

section OnePiece
variable {n : Node} {p : DpaPart} {c tid addr : Nat} (place : n.cxlPlace p = .ok (c, tid, addr)) (may : MayDraw (n.touchLease c) c p.len)
include place may

theorem cxlPart_served (bar4 : Bool) (data : Option Bytes) :
    n.cxlPart bar4 data p = (drew (n.touchLease c) c p.len).cxlAtTier (n.cxlAccess bar4 data p c tid addr) := by
  simp only [Node.cxlPart, place, draw_of_mayDraw may]
  rfl

/-- A request of one piece, with room in the journal where it writes: its client's lease restarts, its bandwidth is drawn, and it
goes to the tier of its bytes. -/
theorem cxlRequest_served (up : n.dataUp = true) {dpa len : Nat} (one : dpaParts n.exports 66 dpa 0 len = [p]) (bar4 : Bool)
    {data : Option Bytes} (room : data ≠ none → n.roomOver tid addr p.len = true) :
    n.cxlRequest bar4 dpa len data = (drew (n.touchLease c) c p.len).cxlAtTier (n.cxlAccess bar4 data p c tid addr) := by
  have fits : (data.isNone || n.roomOver tid addr p.len) = true := by
    cases data with
    | none => rfl
    | some b => exact room (Option.some_ne_none b)
  simp only [Node.cxlRequest, one, List.all_cons, List.all_nil, place, Bool.and_true, fits, up, if_true, List.foldl_cons, List.foldl_nil,
    cxlPart_served place may]

end OnePiece

/-- Settles O21: each request is one piece that draws its bandwidth (`cxlRequest_served`); the late read is
`execCxlReadDeadline_late`. -/
theorem hostMemoryResults : Obligations.HostMemoryResults := by
  refine ⟨?read, ?write, ?window, ?deadline⟩
  case read =>
    intro s dpa len l c tid addr p m n exposed up one place may
    rw [exec_cxlMemRead, cxlMem_exposed exposed, cxlRequest_served place may up one false (fun h => absurd rfl h)]
    rfl
  case write =>
    intro s dpa b l c tid addr p m n exposed up one place room may
    rw [exec_cxlMemWrite, cxlMem_exposed exposed, cxlRequest_served place may up one false (fun _ => room), cxlAtTier_write _ rfl]
    rfl
  case window =>
    intro s off len c tid addr data p m n inside up one place room may
    rw [exec_peerWindowAccess, execPeerWindowAccess_inside inside, cxlRequest_served place may up one true room]
    rfl
  case deadline =>
    intro s id w found read late
    rw [exec_cxlReadDeadline, execCxlReadDeadline_late found read late]

end Sys2Proof.Machine

/-! The replay buffer and the acknowledgements of its flits (11 R344, R347): the flits of the buffer carry successive numbers, so
the ones ahead of an acknowledgement are what is left of the buffer behind those that it frees. -/

namespace Sys2Proof.Machine

/-! ## Numbers around the wrap (11 R344) -/

/-- The number b is ahead of a. -/
abbrev SeqAhead (b a : Nat) : Prop := 1 ≤ seqD b a ∧ seqD b a ≤ 2047

/-- Of at most 1,024 successive numbers from `o` on, exactly those past the first `d` are ahead of an acknowledgement that frees
`d`: a window of 2,047 classifies every number rightly across the wrap. -/
theorem seqAhead_iff_of_window {o a i count : Nat} (inRange : a < 4096) (short : count ≤ 1024) (here : i < count)
    (freed : 1 ≤ seqD a ((o + 4095) % 4096) ∧ seqD a ((o + 4095) % 4096) ≤ count) :
    SeqAhead ((o + i) % 4096) a ↔ seqD a ((o + 4095) % 4096) ≤ i := by
  simp only [SeqAhead, seqD] at *
  omega

/-- A test that holds exactly from place `d` on leaves what `d` dropped elements leave. -/
theorem filter_eq_drop_of_iff_le {α : Type} {l : List α} {q : α → Bool} {d : Nat}
    (fromPlace : ∀ i x, l[i]? = some x → (q x = true ↔ d ≤ i)) : l.filter q = l.drop d := by
  induction l generalizing d with
  | nil => simp
  | cons x xs ih =>
    have head : q x = true ↔ d ≤ 0 := fromPlace 0 x rfl
    have tail (i : Nat) (y : α) (atPlace : xs[i]? = some y) : q y = true ↔ d - 1 ≤ i := by
      rw [fromPlace (i + 1) y atPlace, Nat.sub_le_iff_le_add]
    cases d with
    | zero => rw [List.filter_cons_of_pos (head.2 le_rfl), ih tail, Nat.zero_sub, List.drop_zero, List.drop_zero]
    | succ d => rw [List.filter_cons_of_neg (by simp [head]), ih tail, Nat.add_sub_cancel, List.drop_succ_cons]

/-! ## The sender's buffer (11 R347) -/

/-- The number of the oldest unacknowledged flit: O of R347. -/
def Port.oldest (x : Port) : Nat := (x.txSeq + 4096 - x.buffer.length) % 4096

/-- The number of the newest flit sent. -/
def Port.newest (x : Port) : Nat := (x.txSeq + 4095) % 4096

/-- How many flits of the buffer an acknowledgement frees, where it frees any: d(A, O - 1) of R347. -/
def Port.reach (x : Port) (a : Nat) : Nat := seqD a ((x.oldest + 4095) % 4096)

/-- An acknowledgement frees flits: d(A, O - 1) is in 1-N. -/
def Port.Frees (x : Port) (a : Nat) : Prop := 1 ≤ x.reach a ∧ x.reach a ≤ x.buffer.length

/-- The buffer holds successive numbers from the oldest on. -/
def Port.InSequence (x : Port) : Prop := ∀ i f, x.buffer[i]? = some f → f.seq = (x.oldest + i) % 4096

section Buffer
variable {x : Port} {a : Nat} (inRange : a < 4096) (short : x.buffer.length ≤ 1024) (frees : x.Frees a)
include inRange short frees

/-- What the model drops from the front of the buffer is what R347 frees: the flits ahead of the acknowledgement stay. -/
theorem drop_reach_eq_filter_ahead (inSeq : x.InSequence) :
    x.buffer.drop (x.reach a) = x.buffer.filter fun f => decide (SeqAhead f.seq a) := by
  refine (filter_eq_drop_of_iff_le fun i f atPlace => ?_).symm
  obtain ⟨here, -⟩ := List.getElem?_eq_some_iff.1 atPlace
  rw [decide_eq_true_iff, inSeq i f atPlace]
  exact seqAhead_iff_of_window inRange short here frees

/-- The acknowledgement of the newest flit, and only that, leaves nothing outstanding. -/
theorem isEmpty_drop_reach_iff (seqInRange : x.txSeq < 4096) : (x.buffer.drop (x.reach a)).isEmpty = true ↔ a = x.newest := by
  rw [List.isEmpty_iff, List.drop_eq_nil_iff]
  simp only [Port.Frees, Port.reach, Port.oldest, Port.newest, seqD] at *
  omega

end Buffer

/-! ## What an acknowledgement does, case by case -/

section Acknowledgement
variable {n : Node} {p a : Nat} (short : (n.port p).buffer.length < 4096)
include short

/-- The model's count of outstanding flits, taken modulo 4,096, is the buffer's length. -/
theorem ackIn_oldest_eq : ((n.port p).txSeq + 4096 - (n.port p).buffer.length % 4096) % 4096 = (n.port p).oldest := by
  rw [Nat.mod_eq_of_lt short, Port.oldest]

theorem ackIn_of_frees (frees : (n.port p).Frees a) :
    n.ackIn p a = n.setPort p { n.port p with
      buffer := (n.port p).buffer.drop ((n.port p).reach a)
      timer := if ((n.port p).buffer.drop ((n.port p).reach a)).isEmpty then none else some n.clk
      replays := 0 } := by
  simp only [Node.ackIn, ackIn_oldest_eq short]
  exact if_pos frees

theorem ackIn_of_not_frees (freesNone : ¬ (n.port p).Frees a) :
    n.ackIn p a = if SeqAhead a (n.port p).newest then n.setPort p ((n.port p).count 9) else n := by
  simp only [Node.ackIn, ackIn_oldest_eq short]
  exact if_neg freesNone

end Acknowledgement

/-- An acknowledgement that frees flits, in the words of R347 and R348: the flits ahead of it stay, and the timer stops at the
newest flit's. -/
theorem ackIn_eq_filter_ahead {n : Node} {p a : Nat} (inRange : a < 4096) (seqInRange : (n.port p).txSeq < 4096)
    (short : (n.port p).buffer.length ≤ 1024) (inSeq : (n.port p).InSequence) (frees : (n.port p).Frees a) :
    n.ackIn p a = n.setPort p { n.port p with
      buffer := (n.port p).buffer.filter fun f => decide (SeqAhead f.seq a)
      timer := if a = (n.port p).newest then none else some n.clk
      replays := 0 } := by
  rw [ackIn_of_frees (by omega) frees]
  simp only [isEmpty_drop_reach_iff inRange short frees seqInRange]
  rw [drop_reach_eq_filter_ahead inRange short frees inSeq]

/-- Settles O59: an acknowledgement that frees flits is `ackIn_eq_filter_ahead`, any other `ackIn_of_not_frees`. -/
theorem acknowledgementsFreeFlits : Obligations.AcknowledgementsFreeFlits := by
  intro n p a x o newest inRange seqInRange short inSeq
  have fits : x.buffer.length < 4096 := by omega
  refine ⟨fun frees => ?frees, fun freesNone => ⟨fun ahead => ?ahead, fun behind => ?behind⟩⟩
  case frees => exact ackIn_eq_filter_ahead inRange seqInRange short inSeq frees
  case ahead => exact (ackIn_of_not_frees fits freesNone).trans (if_pos ahead)
  case behind => exact (ackIn_of_not_frees fits freesNone).trans (if_neg behind)

end Sys2Proof.Machine

/-! The audit log (14 R462, R463): a chain of records in a ring, where the next one goes, and what a privileged act does with and
without room for it. -/

namespace Sys2Proof

theorem KList.mem_of_find?_eq_some {α : Type} {l : KList α} {k : Nat} {x : α} (found : KList.find? l k = some x) : (k, x) ∈ l := by
  induction l with
  | nil => cases found
  | cons p t ih =>
    obtain ⟨j, y⟩ := p
    simp only [KList.find?] at found
    split at found
    · next here => cases found; exact here ▸ List.mem_cons_self
    · split at found
      · cases found
      · exact List.mem_cons_of_mem _ (ih found)

namespace Machine

open Sys2Proof.Claims

/-! ## One record (14 R462) -/

/-- The digest that the next record carries: of the DeviceID key in the first, of the record before it in every other. -/
def Node.auditPrev (n : Node) : Bytes :=
  if n.sec.audSeq = 0 then Sha.sha384 n.deviceKey
  else ((KList.find? n.sec.audit (n.sec.audSeq - 1)).map fun r => Sha.sha384 (auditBytes r)).getD []

/-- The next record of the log. -/
def Node.auditRec (n : Node) (a : AuditAct) (st : Nat) : AudRec :=
  { seq := n.sec.audSeq, time := n.now, role := a.role, chan := a.chan, act := a.act, status := st, subject := a.subject,
    target := a.target, detail := a.detail, prev := n.auditPrev }

/-- The records that the next one does not overwrite. -/
def Node.auditKept (n : Node) : KList AudRec :=
  if n.sec.audSeq < 65536 then n.sec.audit else KList.del n.sec.audit (n.sec.audSeq - 65536)

theorem audit_of_no_room {n : Node} (full : n.auditOk = false) (a : AuditAct) (st : Nat) : n.audit a st = n := by
  simp only [Node.audit, full, Bool.false_eq_true, if_false]

section Room
variable {n : Node} (room : n.auditOk = true) (a : AuditAct) (st : Nat)
include room

/-- With room, the record is the one of `auditRec`, put among those that it does not overwrite. -/
theorem audit_sec : (n.audit a st).sec =
    { n.sec with audit := KList.put n.auditKept n.sec.audSeq (n.auditRec a st), audSeq := n.sec.audSeq + 1 } := by
  simp only [Node.audit, room, if_true, Node.auditRec, Node.auditPrev, Node.auditKept]
  cases KList.find? n.sec.audit (n.sec.audSeq - 1) <;> rfl

/-- The QSPI area takes the record where the flash population fails. -/
theorem audit_auditUsed : (n.audit a st).qspi.auditUsed = n.qspi.auditUsed + if n.flash.popOk then 0 else 1 := by
  simp only [Node.audit, room, if_true]

end Room

theorem auditPrev_first {n : Node} (first : n.sec.audSeq = 0) : n.auditPrev = Sha.sha384 n.deviceKey := if_pos first

theorem auditPrev_next {n : Node} {i : Nat} {r : AudRec} (next : i + 1 = n.sec.audSeq) (before : KList.find? n.sec.audit i = some r) :
    n.auditPrev = Sha.sha384 (auditBytes r) := by
  simp [Node.auditPrev, ← next, before]

/-! ## What the log holds after a record -/

theorem ok_auditKept {n : Node} (canonical : KList.ok n.sec.audit = true) : KList.ok n.auditKept = true := by
  unfold Node.auditKept
  split
  · exact canonical
  · exact KList.ok_del _ _ canonical

theorem mem_of_mem_auditKept {n : Node} {p : Nat × AudRec} (kept : p ∈ n.auditKept) : p ∈ n.sec.audit := by
  unfold Node.auditKept at kept
  split at kept
  · exact kept
  · exact KList.mem_del _ _ _ kept

/-- In a ring of 65,536 records, the one overwritten is 65,536 places back. -/
theorem find?_auditKept {n : Node} (canonical : KList.ok n.sec.audit = true) (i : Nat) :
    KList.find? n.auditKept i = if i + 65536 = n.sec.audSeq then none else KList.find? n.sec.audit i := by
  unfold Node.auditKept
  split
  · rw [if_neg (by omega)]
  · rw [KList.find?_del _ _ _ canonical]
    congr 1
    simp only [eq_iff_iff]
    omega

theorem find?_of_find?_auditKept {n : Node} (canonical : KList.ok n.sec.audit = true) {i : Nat} {r : AudRec}
    (found : KList.find? n.auditKept i = some r) : KList.find? n.sec.audit i = some r := by
  rw [find?_auditKept canonical] at found
  exact (Option.ite_none_left_eq_some.1 found).2

theorem lt_audSeq_of_find? {n : Node} (chained : Chained n) {i : Nat} {r : AudRec} (found : KList.find? n.sec.audit i = some r) :
    i < n.sec.audSeq := by
  obtain ⟨-, below, -⟩ := chained
  exact below _ (KList.mem_of_find?_eq_some found)

/-- A record keeps the chain: it follows only the one before it, whose digest it carries, and nothing follows it. -/
theorem chained_audit {n : Node} (chained : Chained n) (a : AuditAct) (st : Nat) : Chained (n.audit a st) := by
  cases room : n.auditOk with
  | false => rwa [audit_of_no_room room]
  | true =>
    have ⟨canonical, below, linked⟩ := chained
    unfold Chained
    rw [audit_sec room]
    refine ⟨KList.ok_put _ _ _ (ok_auditKept canonical), fun p held => ?below, fun i r r' found follows => ?linked⟩
    case below =>
      rcases KList.mem_put _ _ _ _ held with rfl | old
      · exact Nat.lt_succ_self _
      · exact Nat.lt_succ_of_lt (below p (mem_of_mem_auditKept old))
    case linked =>
      rw [KList.find?_put] at found follows
      by_cases isNew : i = n.sec.audSeq
      · rw [if_neg (by omega)] at follows
        have behind : i + 1 < n.sec.audSeq := lt_audSeq_of_find? chained (find?_of_find?_auditKept canonical follows)
        omega
      · rw [if_neg isNew] at found
        have old := find?_of_find?_auditKept canonical found
        by_cases nextIsNew : i + 1 = n.sec.audSeq
        · rw [if_pos nextIsNew] at follows
          cases follows
          exact auditPrev_next nextIsNew old
        · rw [if_neg nextIsNew] at follows
          exact linked i r r' old (find?_of_find?_auditKept canonical follows)

theorem find?_audit_new {n : Node} (room : n.auditOk = true) (a : AuditAct) (st : Nat) :
    KList.find? (n.audit a st).sec.audit n.sec.audSeq = some (n.auditRec a st) := by
  rw [audit_sec room, KList.find?_put, if_pos rfl]

theorem find?_audit_old {n : Node} (room : n.auditOk = true) (chained : Chained n) (a : AuditAct) (st : Nat) {i : Nat} {r : AudRec}
    (stays : i + 65536 ≠ n.sec.audSeq) (found : KList.find? n.sec.audit i = some r) :
    KList.find? (n.audit a st).sec.audit i = some r := by
  have ⟨canonical, _, _⟩ := chained
  rw [audit_sec room, KList.find?_put, if_neg (lt_audSeq_of_find? chained found).ne, find?_auditKept canonical, if_neg stays, found]

/-! ## Privileged acts (14 R463) -/

theorem privileged_unavailable {n : Node} (full : n.auditOk = false) (a : AuditAct) (f : Node → Node) :
    n.privileged a 0 f = (0x0905, n) := by
  simp only [Node.privileged, full, Bool.not_false, if_true]

/-- An attempt that its own checks reject is recorded with their code. -/
theorem privileged_rejected {n : Node} (room : n.auditOk = true) {c : Nat} (rejected : c ≠ 0) (a : AuditAct) (f : Node → Node) :
    n.privileged a c f = (c, n.audit a c) := by
  simp only [Node.privileged, room, Bool.not_true, Bool.false_eq_true, if_false, if_neg rejected]

theorem exec_mboxCommit (src : Src) (v : Nat) (sigOk : Bool) (s : State) : exec (.mboxCommit src v sigOk) s = execMboxCommit src v sigOk s := rfl

/-- In Pewter mode a signed update by an installer is done where it cannot be recorded (15 R500). -/
theorem mailbox_commit_pewter_unrecorded {n : Node} {src : Src} {v : Nat} (commit : fld v 0 3 = 2) (pewter : n.dev.pewter = true)
    (installer : (n.roleOf src [.installer]).isSome = true) (full : n.auditOk = false) :
    n.mailbox src v true = (0, (n.putSlot (bitAt v 16)).mboxStatus 0) := by
  have holds : (n.roleOf src [.installer]).isNone = false := by rw [← Option.not_isSome, installer]; rfl
  simp [Node.mailbox, commit, pewter, holds, audit_of_no_room full]

/-- `MGT_MBOX_CTL`, the checks of 00 R556 passed. -/
theorem writeNamed_mboxCtl {n : Node} {src : Src} {v : Nat} {r : Option Role} {a : RegAt} (accepts : Accepts n src .mboxCtl 0 v r a)
    {sigOk : Bool} {m : Node} (does : n.mailbox src v sigOk = (0, m)) : n.writeNamed src .mboxCtl 0 v sigOk = m := by
  obtain ⟨found, whole, ⟨name, idx⟩, source, inside, kept, fits, role, writable, reserved, inRange, -⟩ := accepts
  refine writeNamed_passes n m src .mboxCtl 0 a v sigOk source found whole inside kept fits ?_
  simp [Node.writeOne, role, reserved, writable, name, idx, inRange, does]

/-- Settles O60: the chain is `chained_audit`, the places of records `find?_audit_new` and `find?_audit_old`, a log without room
`privileged_unavailable` and, in Pewter mode, `mailbox_commit_pewter_unrecorded`. -/
theorem auditChainHolds : Obligations.AuditChainHolds := by
  refine ⟨fun n a st chained => chained_audit chained a st, ?first, ?places, fun n => rfl, ?qspi, ?unavailable, ?pewter,
    fun n a f room => privileged_passes n a f room, fun n a c f room rejected => privileged_rejected room rejected a f⟩
  case first =>
    intro n a st room first
    exact ⟨n.auditRec a st, first ▸ find?_audit_new room a st, auditPrev_first first⟩
  case places =>
    intro n a st room chained
    exact ⟨by rw [audit_sec room], ⟨n.auditRec a st, find?_audit_new room a st, rfl, rfl, rfl⟩,
      fun i r stays found => find?_audit_old room chained a st stays found⟩
  case qspi =>
    intro n a st fails room
    rw [audit_auditUsed room, fails]
    rfl
  case unavailable => exact fun n a f full => privileged_unavailable full a f
  case pewter =>
    intro s src v r a accepts commit pewter installer full
    simp only [exec_mboxCommit, execMboxCommit, commit, beq_self_eq_true, if_true,
      writeNamed_mboxCtl accepts (mailbox_commit_pewter_unrecorded commit pewter installer full)]

end Machine
end Sys2Proof

/-! The log ring (16 R516-R518): the counts that every event moves, the record that takes it in, and when that is a held one, a new
one or none. -/

namespace Sys2Proof.Machine

/-! ## One event -/

/-- The record of an event, before it has a place (16 Table 16.5). -/
def Node.logRec (n : Node) (e : LogEv) : LogRec :=
  { time := n.now, seq := n.mgt.localSeq, code := e.code, flags := (if n.log.tsus then 2 else 0) + (if e.all then 4 else 0),
    unit := e.unit, tid := e.tid, node := n.dev.node, count := e.count, last := n.now, detail := slice e.detail 0 24 }

/-- Whether record `i` has the code and TID of an event. -/
def Log.alike (l : Log) (e : LogEv) (i : Nat) : Bool :=
  match KList.find? l.ring i with
  | some x => x.code == e.code && x.tid == e.tid
  | none => false

/-- The record that an event is coalesced with. -/
def Node.coalesceTo (n : Node) (e : LogEv) : Option Nat :=
  if (n.logPressure e.tid).1 then n.log.open.find? (n.log.alike e) else none

/-- The class counter and the first-fault capture of 16 R519 and R520. -/
def Log.counted (l : Log) (e : LogEv) (now : Nat) : Log :=
  let l := { l with cls := KList.put l.cls (e.code / 256) (KList.getD l.cls (e.code / 256) 0 + 1) }
  if 5 ≤ e.code / 256 ∧ e.code / 256 ≤ 9 then
    match l.ffInfo with
    | none => { l with ffInfo := some e, ffTime := now }
    | some _ => { l with later := min (2 ^ 32 - 1) (l.later + 1) }
  else l

/-- A record added to the one it is coalesced with, else dropped on a full ring, else appended. -/
def Log.place (l : Log) (r : LogRec) (now : Nat) (full : Bool) : Option Nat → Log
  | some i =>
    let x := KList.getD l.ring i r
    { l with ring := KList.put l.ring i { x with count := x.count + 1, last := now, flags := x.flags ||| 1 }, coal := l.coal + 1 }
  | none =>
    if full then { l with drop := l.drop + 1 }
    else { l with ring := KList.put (KList.del l.ring ((l.head + 2 ^ 32 - 20480) % 2 ^ 32)) l.head r, head := (l.head + 1) % 2 ^ 32 }

theorem counted_frame (l : Log) (e : LogEv) (now : Nat) :
    ∃ cls ffTime ffInfo later, l.counted e now = { l with cls := cls, ffTime := ffTime, ffInfo := ffInfo, later := later } := by
  simp only [Log.counted]
  split
  · split <;> exact ⟨_, _, _, _, rfl⟩
  · exact ⟨_, _, _, _, rfl⟩

/-- The node with an event counted and not yet placed. -/
def Node.counted (n : Node) (e : LogEv) : Node := { n with log := n.log.counted e n.now }

/-- The counts come first, then the record's placing, then the tenants' copies (17 R543). -/
theorem logEvent_log_eq_place_counted (n : Node) (e : LogEv) : ∃ tenant, (n.logEvent e).log =
    { (n.counted e).log.place ((n.counted e).logRec e) n.now ((n.counted e).logPressure e.tid).2 ((n.counted e).coalesceTo e)
      with tenant := tenant } := ⟨_, rfl⟩

/-- Beside the counts and the tenants' copies, an event changes the log by its record's placing alone. -/
theorem logEvent_log (n : Node) (e : LogEv) :
    ∃ cls ffTime ffInfo later tenant, (n.logEvent e).log =
      { Log.place { n.log with cls := cls, ffTime := ffTime, ffInfo := ffInfo, later := later }
          (n.logRec e) n.now (n.logPressure e.tid).2 (n.coalesceTo e) with tenant := tenant } := by
  obtain ⟨cls, ffTime, ffInfo, later, counts⟩ := counted_frame n.log e n.now
  obtain ⟨tenant, placed⟩ := logEvent_log_eq_place_counted n e
  refine ⟨cls, ffTime, ffInfo, later, tenant, placed.trans ?_⟩
  rw [Node.counted, counts]
  rfl

section Outcomes
variable {n : Node} {e : LogEv}

theorem logEvent_coalesces {i : Nat} {x : LogRec} (target : n.coalesceTo e = some i) (found : KList.find? n.log.ring i = some x) :
    (n.logEvent e).log.ring = KList.put n.log.ring i { x with count := x.count + 1, last := n.now, flags := x.flags ||| 1 }
    ∧ (n.logEvent e).log.coal = n.log.coal + 1 ∧ (n.logEvent e).log.drop = n.log.drop
    ∧ (n.logEvent e).log.head = n.log.head ∧ (n.logEvent e).log.tail = n.log.tail := by
  obtain ⟨_, _, _, _, _, logged⟩ := logEvent_log n e
  have held : KList.getD n.log.ring i (n.logRec e) = x := by simp only [KList.getD, found, Option.getD_some]
  rw [logged, target]
  simp only [Log.place, held, and_self]

theorem logEvent_appends (target : n.coalesceTo e = none) (room : (n.logPressure e.tid).2 = false) :
    (n.logEvent e).log.ring = KList.put (KList.del n.log.ring ((n.log.head + 2 ^ 32 - 20480) % 2 ^ 32)) n.log.head (n.logRec e)
    ∧ (n.logEvent e).log.head = (n.log.head + 1) % 2 ^ 32 ∧ (n.logEvent e).log.coal = n.log.coal
    ∧ (n.logEvent e).log.drop = n.log.drop ∧ (n.logEvent e).log.tail = n.log.tail := by
  obtain ⟨_, _, _, _, _, logged⟩ := logEvent_log n e
  rw [logged, target, room]
  simp only [Log.place, Bool.false_eq_true, if_false, and_self]

theorem logEvent_drops (target : n.coalesceTo e = none) (full : (n.logPressure e.tid).2 = true) :
    (n.logEvent e).log.ring = n.log.ring ∧ (n.logEvent e).log.head = n.log.head ∧ (n.logEvent e).log.drop = n.log.drop + 1
    ∧ (n.logEvent e).log.coal = n.log.coal ∧ (n.logEvent e).log.tail = n.log.tail := by
  obtain ⟨_, _, _, _, _, logged⟩ := logEvent_log n e
  rw [logged, target, full]
  simp only [Log.place, if_true, and_self]

end Outcomes

/-! ## The record that an event is coalesced with -/

/-- The number of the record that `k` newer ones follow. -/
def Log.number (l : Log) (k : Nat) : Nat := (l.head + 2 ^ 32 - 1 - k) % 2 ^ 32

theorem open_eq_map_number {l : Log} (bounded : l.unread ≤ 20480) : l.open = (List.range l.unread).map l.number := by
  rw [Log.open, Nat.min_eq_left bounded]
  rfl

theorem alike_iff {l : Log} {e : LogEv} {i : Nat} :
    l.alike e i = true ↔ ∃ x, KList.find? l.ring i = some x ∧ x.code = e.code ∧ x.tid = e.tid := by
  cases found : KList.find? l.ring i <;> simp [Log.alike, found]

theorem logPressure_shared {n : Node} (shared : n.fixedSlot = false) (tid : Nat) :
    n.logPressure tid = (decide (17920 ≤ n.log.unread), decide (20480 ≤ n.log.unread)) := by
  simp only [Node.logPressure, shared, Bool.false_eq_true, if_false]

section Search
variable {n : Node} {e : LogEv} (pressed : (n.logPressure e.tid).1 = true) (bounded : n.log.unread ≤ 20480)
include pressed bounded

theorem coalesceTo_newest {k : Nat} (unread : k < n.log.unread) (alike : n.log.alike e (n.log.number k) = true)
    (newest : ∀ j < k, ¬ n.log.alike e (n.log.number j) = true) : n.coalesceTo e = some (n.log.number k) := by
  have first : (List.range n.log.unread).find? (n.log.alike e ∘ n.log.number) = some k :=
    List.find?_range_eq_some.2 ⟨alike, List.mem_range.2 unread, fun j newer => by simpa using newest j newer⟩
  rw [Node.coalesceTo, if_pos pressed, open_eq_map_number bounded, List.find?_map, first, Option.map_some]

theorem coalesceTo_eq_none (unlike : ∀ k < n.log.unread, ¬ n.log.alike e (n.log.number k) = true) : n.coalesceTo e = none := by
  rw [Node.coalesceTo, if_pos pressed, open_eq_map_number bounded]
  simpa using unlike

end Search

/-- Settles O58: the newest record alike is found by `coalesceTo_newest` and changed as in `logEvent_coalesces`; where there is none
(`coalesceTo_eq_none`), the record goes as in `logEvent_appends` or `logEvent_drops`. -/
theorem fullLogRingCoalesces : Obligations.FullLogRingCoalesces := by
  intro n e shared _ _ _ nearlyFull bounded m num same
  have pressure := logPressure_shared shared e.tid
  have pressed : (n.logPressure e.tid).1 = true := by simpa [pressure] using nearlyFull
  have unlike (noneAlike : ∀ k < n.log.unread, ¬ same k) : n.coalesceTo e = none :=
    coalesceTo_eq_none pressed bounded fun k unread alike => noneAlike k unread (alike_iff.1 alike)
  refine ⟨?coalesces, ?appends, ?drops⟩
  case coalesces =>
    intro k x unread found code tid newest
    have target : n.coalesceTo e = some (num k) :=
      coalesceTo_newest pressed bounded unread (alike_iff.2 ⟨x, found, code, tid⟩) fun j newer alike => newest j newer (alike_iff.1 alike)
    obtain ⟨ring, coal, drop, head, tail⟩ := logEvent_coalesces target found
    refine ⟨?changed, fun i other => ?kept, coal, drop, head, tail⟩
    case changed => rw [ring, KList.find?_put, if_pos rfl]
    case kept => rw [ring, KList.find?_put, if_neg other]
  case appends =>
    intro noneAlike hasRoom
    have room : (n.logPressure e.tid).2 = false := by simpa [pressure] using hasRoom
    obtain ⟨ring, head, coal, drop, -⟩ := logEvent_appends (unlike noneAlike) room
    exact ⟨⟨n.logRec e, by rw [ring, KList.find?_put, if_pos rfl], rfl, rfl, rfl, rfl, rfl⟩, head, coal, drop⟩
  case drops =>
    intro noneAlike isFull
    have full : (n.logPressure e.tid).2 = true := by simp [pressure, isFull]
    obtain ⟨ring, head, drop, -, -⟩ := logEvent_drops (unlike noneAlike) full
    exact ⟨ring, head, drop⟩

end Sys2Proof.Machine

/-! Lists of bounded capacity (04 R103, R109, R112): the order of entries, one insertion into a sorted list, and a list's state as a
cut through all the candidates that it was offered, sorted. -/

namespace Sys2Proof.Machine

open Sys2Proof.Claims

/-! ## The order (04 R103) -/

theorem ahead_iff {a b : Entry} : ahead a b = true ↔ a.key < b.key ∨ (a.key = b.key ∧ a.id < b.id) := by
  simp [ahead]

theorem ahead_trans {a b c : Entry} (ab : ahead a b = true) (bc : ahead b c = true) : ahead a c = true := by
  simp only [ahead_iff] at *
  omega

theorem ahead_asymm {a b : Entry} (ab : ahead a b = true) : ahead b a = false := by
  rw [← Bool.not_eq_true]
  simp only [ahead_iff] at *
  omega

/-- What is not ahead of an entry is behind whatever is ahead of it. -/
theorem ahead_of_ahead_of_not_ahead {a b c : Entry} (ab : ahead a b = true) (cb : ahead c b = false) : ahead a c = true := by
  rw [← Bool.not_eq_true] at cb
  simp only [ahead_iff] at *
  omega

theorem key_id_eq_of_not_ahead {a b : Entry} (ab : ahead a b = false) (ba : ahead b a = false) : a.key = b.key ∧ a.id = b.id := by
  rw [← Bool.not_eq_true] at ab ba
  simp only [ahead_iff] at *
  omega

/-! ## One insertion -/

theorem insertEntry_cons_of_ahead {c x : Entry} (h : ahead c x = true) (l : List Entry) : insertEntry c (x :: l) = c :: x :: l := by
  simp only [insertEntry, h, if_true]

theorem insertEntry_cons_of_not_ahead {c x : Entry} (h : ahead c x = false) (l : List Entry) :
    insertEntry c (x :: l) = x :: insertEntry c l := by
  simp only [insertEntry, h, Bool.false_eq_true, if_false]

theorem insertEntry_perm (c : Entry) (l : List Entry) : (insertEntry c l).Perm (c :: l) := by
  induction l with
  | nil => exact .refl _
  | cons x t ih =>
    cases h : ahead c x with
    | true => rw [insertEntry_cons_of_ahead h]
    | false => rw [insertEntry_cons_of_not_ahead h]; exact (ih.cons x).trans (.swap c x t)

@[simp] theorem length_insertEntry (c : Entry) (l : List Entry) : (insertEntry c l).length = l.length + 1 :=
  (insertEntry_perm c l).length_eq

/-- An entry goes in before the first one that it is ahead of; what follows that one does not matter. -/
theorem insertEntry_append_of_ahead {c w : Entry} (h : ahead c w = true) (l r : List Entry) :
    insertEntry c (l ++ w :: r) = insertEntry c l ++ w :: r := by
  induction l with
  | nil => exact insertEntry_cons_of_ahead h r
  | cons x t ih =>
    cases hx : ahead c x with
    | true => rw [List.cons_append, insertEntry_cons_of_ahead hx, insertEntry_cons_of_ahead hx]; rfl
    | false => rw [List.cons_append, insertEntry_cons_of_not_ahead hx, insertEntry_cons_of_not_ahead hx, ih]; rfl

theorem insertEntry_append_of_not_ahead {c : Entry} {l : List Entry} (h : ∀ x ∈ l, ahead c x = false) (r : List Entry) :
    insertEntry c (l ++ r) = l ++ insertEntry c r := by
  induction l with
  | nil => rfl
  | cons x t ih =>
    rw [List.cons_append, insertEntry_cons_of_not_ahead (h x List.mem_cons_self), ih fun y hy => h y (List.mem_cons_of_mem _ hy)]
    rfl

/-- Two insertions where the one entry is ahead of the other. -/
theorem insertEntry_comm_of_ahead {a b : Entry} (h : ahead a b = true) (l : List Entry) :
    insertEntry a (insertEntry b l) = insertEntry b (insertEntry a l) := by
  have ba := ahead_asymm h
  induction l with
  | nil => simp [insertEntry, h, ba]
  | cons x t ih =>
    cases hb : ahead b x with
    | true => simp [insertEntry, hb, h, ba, ahead_trans h hb]
    | false => cases ha : ahead a x <;> simp [insertEntry, hb, ha, ba, ih]

/-- The order of two insertions does not matter, where entries that the order does not tell apart are one. -/
theorem insertEntry_comm {a b : Entry} (alike : a.key = b.key → a.id = b.id → a = b) (l : List Entry) :
    insertEntry a (insertEntry b l) = insertEntry b (insertEntry a l) := by
  cases ab : ahead a b with
  | true => exact insertEntry_comm_of_ahead ab l
  | false =>
    cases ba : ahead b a with
    | true => exact (insertEntry_comm_of_ahead ba l).symm
    | false =>
      obtain ⟨key, id⟩ := key_id_eq_of_not_ahead ab ba
      rw [alike key id]

/-! ## Sorted lists -/

/-- No entry is ahead of one before it. -/
def Sorted (l : List Entry) : Prop := l.Pairwise fun a b => ahead b a = false

theorem sorted_insertEntry {c : Entry} {l : List Entry} (h : Sorted l) : Sorted (insertEntry c l) := by
  induction l with
  | nil => exact List.pairwise_singleton ..
  | cons x t ih =>
    obtain ⟨first, rest⟩ := List.pairwise_cons.1 h
    cases hx : ahead c x with
    | true =>
      rw [insertEntry_cons_of_ahead hx]
      refine List.pairwise_cons.2 ⟨fun y hy => ?_, h⟩
      rcases List.mem_cons.1 hy with rfl | hy
      · exact ahead_asymm hx
      · exact ahead_asymm (ahead_of_ahead_of_not_ahead hx (first y hy))
    | false =>
      rw [insertEntry_cons_of_not_ahead hx]
      refine List.pairwise_cons.2 ⟨fun y hy => ?_, ih rest⟩
      rcases List.mem_cons.1 ((insertEntry_perm c t).mem_iff.1 hy) with rfl | hy
      · exact hx
      · exact first y hy

/-- The candidates in the order of 04 R103. -/
def sortEntries (l : List Entry) : List Entry := l.foldr insertEntry []

theorem sorted_sortEntries (l : List Entry) : Sorted (sortEntries l) := by
  induction l with
  | nil => exact List.Pairwise.nil
  | cons x t ih => exact sorted_insertEntry ih

theorem sortEntries_perm (l : List Entry) : (sortEntries l).Perm l := by
  induction l with
  | nil => exact .refl _
  | cons x t ih => exact (insertEntry_perm x _).trans (ih.cons x)

theorem sortEntries_eq_of_perm {l m : List Entry} (alike : Alike l) (perm : l.Perm m) : sortEntries l = sortEntries m :=
  perm.foldr_eq' (fun a ha b hb z => insertEntry_comm (alike b hb a ha) z) []

/-! ## A list's state as a cut through its candidates -/

/-- DROP_KEY of some dropped candidates. -/
def dropKeyOf (l : List Entry) : Nat := (l.map (·.key)).foldl min padKey

/-- The list that keeps the first `cap` of some sorted candidates. -/
def TopList.cut (cap : Nat) (s : List Entry) : TopList := ⟨cap, s.take cap, dropKeyOf (s.drop cap)⟩

theorem kept_eq_cut (cap : Nat) (l : List Entry) : kept cap l = .cut cap (sortEntries l) := rfl

/-! ### DROP_KEY -/

@[simp] theorem dropKeyOf_nil : dropKeyOf [] = padKey := rfl

@[simp] theorem dropKeyOf_cons (x : Entry) (l : List Entry) : dropKeyOf (x :: l) = min x.key (dropKeyOf l) := by
  rw [dropKeyOf, List.map_cons, List.foldl_cons, Nat.min_comm padKey, List.foldl_assoc]
  rfl

theorem dropKeyOf_le (l : List Entry) : dropKeyOf l ≤ padKey := by
  induction l with
  | nil => exact Nat.le_refl _
  | cons x t ih => rw [dropKeyOf_cons]; omega

theorem dropKeyOf_append (l m : List Entry) : dropKeyOf (l ++ m) = min (dropKeyOf l) (dropKeyOf m) := by
  induction l with
  | nil => exact (Nat.min_eq_right (dropKeyOf_le m)).symm
  | cons x t ih => rw [List.cons_append, dropKeyOf_cons, dropKeyOf_cons, ih, Nat.min_assoc]

theorem dropKeyOf_insertEntry (c : Entry) (l : List Entry) : dropKeyOf (insertEntry c l) = min c.key (dropKeyOf l) := by
  rw [← dropKeyOf_cons]
  exact ((insertEntry_perm c l).map _).foldl_eq _

/-! ### An offer (04 R109) -/

/-- A list with room takes a candidate. -/
theorem offer_of_room {l : TopList} (room : l.entries.length < l.cap) (c : Entry) :
    l.offer c = { l with entries := insertEntry c l.entries } := by
  simp only [TopList.offer, if_pos room]

/-- A full list takes a candidate that is ahead of its last entry, which it drops. -/
theorem offer_of_ahead {cap d : Nat} {q : List Entry} {w c : Entry} (full : cap ≤ (q ++ [w]).length) (better : ahead c w = true) :
    TopList.offer ⟨cap, q ++ [w], d⟩ c = ⟨cap, insertEntry c q, min d w.key⟩ := by
  simp only [TopList.offer, if_neg (Nat.not_lt.2 full), List.getLast?_concat, better, if_true, List.dropLast_concat]

/-- A full list drops any other. -/
theorem offer_of_not_ahead {l : TopList} (full : l.cap ≤ l.entries.length) {c : Entry} (worse : ∀ w ∈ l.entries, ahead c w = false) :
    l.offer c = { l with drop := min l.drop c.key } := by
  simp only [TopList.offer, if_neg (Nat.not_lt.2 full)]
  cases last : l.entries.getLast? with
  | none => rfl
  | some w => simp only [worse w (List.mem_of_getLast? last), Bool.false_eq_true, if_false]

theorem cut_append {cap : Nat} {p : List Entry} (full : p.length = cap) (r : List Entry) : TopList.cut cap (p ++ r) = ⟨cap, p, dropKeyOf r⟩ := by
  simp only [TopList.cut, List.take_left' full, List.drop_left' full]

/-- An entry that is ahead of none of a sorted list's last is ahead of none of the list. -/
theorem not_ahead_of_not_ahead_last {q : List Entry} {w c : Entry} (sorted : Sorted (q ++ [w])) (worse : ahead c w = false) :
    ∀ x ∈ q ++ [w], ahead c x = false := by
  intro x hx
  rcases List.mem_append.1 hx with hx | hx
  · obtain ⟨-, -, before⟩ := List.pairwise_append.1 sorted
    rw [← Bool.not_eq_true]
    intro better
    rw [ahead_of_ahead_of_not_ahead better (before x hx w List.mem_cons_self)] at worse
    cases worse
  · exact List.mem_singleton.1 hx ▸ worse

/-- An offer moves the cut on to the candidates with the new one among them. -/
theorem offer_cut {cap : Nat} {s : List Entry} (sorted : Sorted s) (c : Entry) : (TopList.cut cap s).offer c = .cut cap (insertEntry c s) := by
  rcases Nat.lt_or_ge s.length cap with room | full
  case inl =>
    have fits : (insertEntry c s).length ≤ cap := by rw [length_insertEntry]; omega
    have all : s.take cap = s := List.take_of_length_le room.le
    rw [offer_of_room (by simpa only [TopList.cut, all] using room)]
    simp only [TopList.cut, all, List.take_of_length_le fits, List.drop_of_length_le fits, List.drop_of_length_le room.le]
  case inr =>
    obtain ⟨p, r, rfl, length⟩ : ∃ p r, s = p ++ r ∧ p.length = cap := ⟨s.take cap, s.drop cap, (List.take_append_drop ..).symm, by simp [full]⟩
    obtain ⟨sortedP, -, -⟩ := List.pairwise_append.1 sorted
    rw [cut_append length]
    have dropped (worse : ∀ x ∈ p, ahead c x = false) : TopList.offer ⟨cap, p, dropKeyOf r⟩ c = .cut cap (insertEntry c (p ++ r)) := by
      rw [offer_of_not_ahead length.ge worse, insertEntry_append_of_not_ahead worse, cut_append length, dropKeyOf_insertEntry, Nat.min_comm]
    rcases List.eq_nil_or_concat' p with rfl | ⟨q, w, rfl⟩
    · exact dropped fun x hx => by cases hx
    · cases better : ahead c w with
      | false => exact dropped (not_ahead_of_not_ahead_last sortedP better)
      | true =>
        have grown : (insertEntry c q).length = cap := by simpa using length
        rw [offer_of_ahead length.ge better, List.append_assoc, List.singleton_append, insertEntry_append_of_ahead better, cut_append grown,
          dropKeyOf_cons, Nat.min_comm]

/-- However candidates arrive, a list is the cut through them. -/
theorem foldl_offer_eq_kept (cap : Nat) {l : List Entry} (alike : Alike l) : l.foldl TopList.offer (TopList.empty cap) = kept cap l := by
  induction l using List.reverseRecOn with
  | nil => simp [kept, TopList.empty]
  | append_singleton l c ih =>
    have before : Alike l := fun a ha b hb => alike a (List.mem_append_left _ ha) b (List.mem_append_left _ hb)
    rw [List.foldl_append, ih before, List.foldl_cons, List.foldl_nil, kept_eq_cut, offer_cut (sorted_sortEntries l), kept_eq_cut,
      sortEntries_eq_of_perm alike (List.perm_append_singleton c l)]
    rfl

theorem kept_eq_of_perm (cap : Nat) {l m : List Entry} (alike : Alike l) (perm : l.Perm m) : kept cap l = kept cap m := by
  rw [kept_eq_cut, kept_eq_cut, sortEntries_eq_of_perm alike perm]

theorem alike_of_subset {l m : List Entry} (alike : Alike l) (sub : m ⊆ l) : Alike m := fun a ha b hb => alike a (sub ha) b (sub hb)

/-- Settles O54: a list is the cut through what it was offered (`foldl_offer_eq_kept`), which the order of arrival does not change. -/
theorem topKKeepsTheBest : Obligations.TopKKeepsTheBest := by
  refine ⟨fun cap l alike => foldl_offer_eq_kept cap alike, fun cap l m alike perm => ?_⟩
  rw [foldl_offer_eq_kept cap alike, foldl_offer_eq_kept cap (alike_of_subset alike perm.symm.subset), kept_eq_of_perm cap alike perm]

/-! ## Merging (04 R112) -/

/-- Offers do not look at DROP_KEY: a lower one at the start is a lower one at the end. -/
theorem offer_min_drop (l : TopList) (d : Nat) (c : Entry) :
    ({ l with drop := min d l.drop } : TopList).offer c = { l.offer c with drop := min d (l.offer c).drop } := by
  simp only [TopList.offer]
  split
  · rfl
  · cases l.entries.getLast? with
    | none => simp only [Nat.min_assoc]
    | some w => cases better : ahead c w <;> simp [better, Nat.min_assoc]

theorem foldl_offer_min_drop (es : List Entry) (l : TopList) (d : Nat) :
    es.foldl TopList.offer { l with drop := min d l.drop } = { es.foldl TopList.offer l with drop := min d (es.foldl TopList.offer l).drop } := by
  induction es generalizing l with
  | nil => rfl
  | cons c es ih => rw [List.foldl_cons, List.foldl_cons, offer_min_drop, ih]

/-- What a part's list keeps, and what it drops. -/
def keptOf (cap : Nat) (p : List Entry) : List Entry := (sortEntries p).take cap
def droppedOf (cap : Nat) (p : List Entry) : List Entry := (sortEntries p).drop cap

/-- Where at least `cap` of some sorted entries are not behind an entry, none of the first `cap` is. -/
theorem not_ahead_of_mem_take {cap : Nat} {s : List Entry} {r : Entry} (sorted : Sorted s)
    (many : cap ≤ s.countP fun x => !ahead r x) {x : Entry} (hx : x ∈ s.take cap) : ahead r x = false := by
  rw [← Bool.not_eq_true]
  intro better
  obtain ⟨a, b, shape⟩ := List.append_of_mem hx
  have short : a.length < cap := by
    have := congrArg List.length shape
    simp at this
    omega
  rw [← List.take_append_drop cap s, shape, List.append_assoc, List.cons_append] at sorted many
  obtain ⟨-, tail, -⟩ := List.pairwise_append.1 sorted
  obtain ⟨first, -⟩ := List.pairwise_cons.1 tail
  have behind : (x :: (b ++ s.drop cap)).countP (fun x => !ahead r x) = 0 :=
    List.countP_eq_zero.2 fun y hy => by
      rcases List.mem_cons.1 hy with rfl | hy
      · simp [better]
      · simp [ahead_of_ahead_of_not_ahead better (first y hy)]
  have : a.countP (fun x => !ahead r x) ≤ a.length := List.countP_le_length
  rw [List.countP_append, behind] at many
  omega

/-- A candidate with `cap` others not behind it only counts for DROP_KEY. -/
theorem kept_cons {cap : Nat} {l : List Entry} {r : Entry} (many : cap ≤ l.countP fun x => !ahead r x) :
    kept cap (r :: l) = { kept cap l with drop := min r.key (kept cap l).drop } := by
  have sorted := sorted_sortEntries l
  rw [← (sortEntries_perm l).countP_eq] at many
  have full : ((sortEntries l).take cap).length = cap := List.length_take_of_le (many.trans List.countP_le_length)
  have step : sortEntries (r :: l) = (sortEntries l).take cap ++ insertEntry r ((sortEntries l).drop cap) := by
    rw [← insertEntry_append_of_not_ahead fun x hx => not_ahead_of_mem_take sorted many hx, List.take_append_drop]
    rfl
  rw [kept_eq_cut, step, cut_append full, dropKeyOf_insertEntry]
  rfl

theorem kept_append {cap : Nat} {l : List Entry} (rs : List Entry) (many : ∀ r ∈ rs, cap ≤ l.countP fun x => !ahead r x) :
    kept cap (rs ++ l) = { kept cap l with drop := min (dropKeyOf rs) (kept cap l).drop } := by
  induction rs with
  | nil => simp [kept_eq_cut, TopList.cut, Nat.min_eq_right (dropKeyOf_le _)]
  | cons r rs ih =>
    have more : cap ≤ (rs ++ l).countP fun x => !ahead r x := by
      rw [List.countP_append]
      exact (many r List.mem_cons_self).trans (Nat.le_add_left ..)
    rw [List.cons_append, kept_cons more, ih fun x hx => many x (List.mem_cons_of_mem _ hx), dropKeyOf_cons]
    simp only [Nat.min_assoc]

/-- A part's list keeps `cap` entries that are not behind one that it drops. -/
theorem le_countP_keptOf {cap : Nat} {p : List Entry} {r : Entry} (dropped : r ∈ droppedOf cap p) :
    cap ≤ (keptOf cap p).countP fun x => !ahead r x := by
  have sorted := sorted_sortEntries p
  rw [← List.take_append_drop cap (sortEntries p)] at sorted
  obtain ⟨-, -, before⟩ := List.pairwise_append.1 sorted
  have all : (keptOf cap p).countP (fun x => !ahead r x) = (keptOf cap p).length :=
    List.countP_eq_length.2 fun x hx => by simp [before x hx r dropped]
  have long : cap < (sortEntries p).length := by
    have := List.length_pos_of_mem dropped
    simp [droppedOf] at this
    omega
  rw [all, keptOf, List.length_take_of_le long.le]

/-- Candidates in parts are what the parts' lists drop and what they keep. -/
theorem flatten_perm_dropped_kept (cap : Nat) (parts : List (List Entry)) :
    parts.flatten.Perm (parts.flatMap (droppedOf cap) ++ parts.flatMap (keptOf cap)) := by
  induction parts with
  | nil => exact .refl _
  | cons p ps ih =>
    have one : p.Perm (droppedOf cap p ++ keptOf cap p) :=
      ((sortEntries_perm p).symm.trans (List.take_append_drop cap _ ▸ .refl _)).trans List.perm_append_comm
    simp only [List.flatten_cons, List.flatMap_cons, List.append_assoc]
    refine (one.append ih).trans ?_
    rw [List.append_assoc]
    exact (List.perm_append_left_iff _).2 (by rw [← List.append_assoc, ← List.append_assoc]; exact List.perm_append_comm.append_right _)

/-- DROP_KEY of the parts' lists together. -/
theorem foldl_min_drop (cap : Nat) (parts : List (List Entry)) (d : Nat) (le : d ≤ padKey) :
    parts.foldl (fun d p => min d (dropKeyOf (droppedOf cap p))) d = min d (dropKeyOf (parts.flatMap (droppedOf cap))) := by
  induction parts generalizing d with
  | nil => exact (Nat.min_eq_left le).symm
  | cons p ps ih => rw [List.foldl_cons, ih _ (by omega), List.flatMap_cons, dropKeyOf_append, Nat.min_assoc]

/-- Settles O55: what a part's list drops has `cap` better ones among what the lists keep, so in the whole it counts for DROP_KEY
alone (`kept_append`). -/
theorem mergingPartsIsMergingTheWhole : Obligations.MergingPartsIsMergingTheWhole := by
  intro cap parts alike
  have perm := flatten_perm_dropped_kept cap parts
  have alikeKept : Alike (parts.flatMap (keptOf cap)) := alike_of_subset alike fun x hx => perm.symm.subset (List.mem_append_right _ hx)
  have many : ∀ r ∈ parts.flatMap (droppedOf cap), cap ≤ (parts.flatMap (keptOf cap)).countP fun x => !ahead r x := by
    intro r hr
    obtain ⟨p, hp, hr⟩ := List.mem_flatMap.1 hr
    exact (le_countP_keptOf hr).trans (List.Sublist.countP_le (List.sublist_flatten_of_mem (List.mem_map_of_mem hp)))
  have lists : (parts.map fun p => ((p.foldl TopList.offer (TopList.empty cap)).entries, (p.foldl TopList.offer (TopList.empty cap)).drop))
      = parts.map fun p => (keptOf cap p, dropKeyOf (droppedOf cap p)) :=
    List.map_congr_left fun p hp => by
      rw [foldl_offer_eq_kept cap (alike_of_subset alike fun x hx => List.mem_flatten_of_mem hp hx)]
      rfl
  rw [lists, foldl_offer_eq_kept cap alike, kept_eq_of_perm cap alike perm, kept_append _ many, ← foldl_offer_eq_kept cap alikeKept,
    ← foldl_offer_min_drop, mergeLists, List.flatMap_map, List.foldl_map, foldl_min_drop cap parts padKey (Nat.le_refl _), Nat.min_comm padKey]
  rfl

end Sys2Proof.Machine

/-! How every command ends (00 R7, R556): whatever its guards find, a command answers a next state with the queue of waiting
commands as it was. Each rule says it of one way to branch; the case split over the commands is `ends_exec`. -/

namespace Sys2Proof.Machine

/-! ## Ways to branch -/

theorem ends_ite {s : State} {a b : Result} {c : Prop} [Decidable c] (yes : Ends s a) (no : Ends s b) : Ends s (if c then a else b) := by
  split
  · exact yes
  · exact no

/-! ## Instructions, by their form -/

section Instructions
variable (s : State) (th : Thr)

theorem ends_f1 (op fn : Nat) (f : F1) (legal : Bool) (g : Nat → Thread → Ctx → Eff) : Ends s (s.f1 th op fn f legal g) := ends_issue ..

theorem ends_f2 (op fn : Nat) (f : F2) (legal : Bool) (g : Nat → Thread → Ctx → Eff) : Ends s (s.f2 th op fn f legal g) := ends_issue ..

theorem ends_f3 (op fn : Nat) (f : F3) (legal : Bool) (regs consumed : List Dst) (posted : Bool) (size : Nat) (addr : Thread → W64)
    (g : Nat → Thread → Ctx → Nat → Eff) : Ends s (s.f3 th op fn f legal regs consumed posted size addr g) := ends_issue ..

theorem ends_f4 (op fn : Nat) (f : F4) (fl : Nat) (legal : Bool) (regs : List Nat) (g : Nat → Thread → Ctx → Eff) :
    Ends s (s.f4 th op fn f fl legal regs g) := ends_issue ..

theorem ends_f5 (fn : Nat) (f : F5) (legal : Bool) (srcs : List Dst) (g : Thread → W64) : Ends s (s.f5 th fn f legal srcs g) := ends_issue ..

theorem ends_sOp (op fn : Nat) (f : F1) (legal : Bool) (srcs consumed : List Dst) (g : Thread → W64) :
    Ends s (s.sOp th op fn f legal srcs consumed g) := ends_f1 ..

theorem ends_vOp (op fn : Nat) (f : F1) (legal : Bool) (srcs consumed : List Dst) (w n : Nat) (g : Thread → Nat → Nat) :
    Ends s (s.vOp th op fn f legal srcs consumed w n g) := ends_f1 ..

theorem ends_search1 (op fn : Nat) (f : F1) (legal : Bool) (regs : List Nat) (g : Nat → Thread → Ctx → Eff) :
    Ends s (s.search1 th op fn f legal regs g) := ends_f1 ..

theorem ends_alu (op fn : Nat) (f : F1) (g : W64 → W64 → W64) : Ends s (s.alu th op fn f g) := ends_sOp ..

theorem ends_alu1 (op fn : Nat) (f : F1) (g : W64 → W64) : Ends s (s.alu1 th op fn f g) := ends_sOp ..

theorem ends_fOp (fn : Nat) (f : F1) (g : Fmt → Nat → Nat → Nat) : Ends s (s.fOp th fn f g) := ends_sOp ..

theorem ends_vRedMinMax (fn : Nat) (f : F1) (mx : Bool) : Ends s (s.vRedMinMax th fn f mx) := ends_sOp ..

theorem ends_kOp (fn : Nat) (f : F1) (two : Bool) (g : W64 → W64 → W64) : Ends s (s.kOp th fn f two g) := ends_f1 ..

theorem ends_vAlu (fn : Nat) (f : F1) (ets : Nat → Bool) (g : Nat → Nat → Nat → Nat) : Ends s (s.vAlu th fn f ets g) := ends_vOp ..

theorem ends_vCmp (fn : Nat) (f : F1) (gi : Int → Int → Bool) (gf : Fmt → Nat → Nat → Bool) : Ends s (s.vCmp th fn f gi gf) := ends_f1 ..

theorem ends_aluImm (op fn : Nat) (f : F2) (legal : Bool) (g : W64 → W64 → W64) : Ends s (s.aluImm th op fn f legal g) := ends_f2 ..

theorem ends_branch (fn : Nat) (f : F2) (g : W64 → W64 → Bool) : Ends s (s.branch th fn f g) := ends_f2 ..

theorem ends_load (fn : Nat) (f : F3) (size : Nat) (vec : Bool) : Ends s (s.load th fn f size vec) := by
  unfold State.load
  exact ends_f3 ..

theorem ends_store (fn : Nat) (f : F3) (size : Nat) (vec : Bool) : Ends s (s.store th fn f size vec) := by
  unfold State.store
  exact ends_f3 ..

theorem ends_scan (fn : Nat) (f : F4) (fl : Nat) (g : Node → Nat → Thread → Ctx → ScanBlk → Eff) : Ends s (s.scan th fn f fl g) := ends_f4 ..

theorem ends_tab (kind : Nat) (f : F4) (fl : Nat) (legal : Bool) : Ends s (s.tab th kind f fl legal) := ends_f4 ..

theorem ends_syncOp (fn : Nat) (f : F1) (regs types : List Nat) (g : Nat → Thread → Nat → Sync → Eff) :
    Ends s (s.syncOp th fn f regs types g) := ends_search1 ..

theorem ends_execAmo (fn : BitVec 5) (f : F3) : Ends s (execAmo th fn f s) := by
  unfold execAmo
  exact ends_f3 ..

end Instructions

/-! ## Shared ways in, case by case: `settled` is a `next` too -/

section Shared
variable (s : State)

theorem ends_arrive (p : Packet) (f : Node → Node) : Ends s (s.arrive p f) := by
  fun_cases State.arrive <;> exact ends_next ..

theorem ends_respond (p : Packet) (ptype : Nat) (ok : Node → Nat → Access → Node) : Ends s (s.respond p ptype ok) := ends_arrive ..

theorem ends_pelRequest (q kind : Nat) (f : Node → Admitted → Nat × Node) : Ends s (s.pelRequest q kind f) := ends_runM ..

theorem ends_reqTimeout (key : Nat) (posted : Bool) : Ends s (s.reqTimeout key posted) := by
  fun_cases State.reqTimeout <;> exact ends_next ..

theorem ends_endOf (id : Nat) (kinds : List Nat) (res : TierRes) (serve : Node → Access → Node) : Ends s (s.endOf id kinds res serve) := by
  fun_cases State.endOf <;> exact ends_next ..

theorem ends_tabItem (ctx op : Nat) : Ends s (s.tabItem ctx op) := by
  fun_cases State.tabItem <;> exact ends_next ..

theorem ends_wordStep (q op : Nat) (p : Admitted → Bool) : Ends s (s.wordStep q op p) := by
  fun_cases State.wordStep <;> exact ends_next ..

theorem ends_decision (kind : DecisionKind) (f : Held → Node → Node) : Ends s (s.decision kind f) := by
  fun_cases State.decision <;> exact ends_next ..

theorem ends_spdm (c : Chan) (need : SpdmConn → Bool) (f : Node → Node) : Ends s (s.spdm c need f) := by
  fun_cases State.spdm <;> exact ends_next ..

theorem ends_inSession (i : Nat) (est : Bool) (f : Node → Session → Node) : Ends s (s.inSession i est f) := by
  fun_cases State.inSession <;> exact ends_next ..

theorem ends_vendor (i : Nat) (kind : Session → Bool) (f : Node → Session → Nat × Node) : Ends s (s.vendor i kind f) := by
  fun_cases State.vendor <;> exact ends_next ..

theorem ends_runReset (level : Nat) (tile : Option Nat) (f : Node → ResetRun → Node) : Ends s (s.runReset level tile f) := by
  fun_cases State.runReset <;> exact ends_next ..

end Shared

/-! ## Commands that look something up, case by case -/

section Commands
variable (s : State)

theorem ends_execQuery (q : Fin 8192) : Ends s (execQuery q s) := by
  fun_cases execQuery <;> exact ends_next ..

theorem ends_execMergeSessionReserve : Ends s (execMergeSessionReserve s) := by
  fun_cases execMergeSessionReserve <;> exact ends_next ..

theorem ends_execAppend (ctx : Nat) : Ends s (execAppend ctx s) := by
  fun_cases execAppend <;> exact ends_next ..

theorem ends_execJournalStage : Ends s (execJournalStage s) := by
  fun_cases execJournalStage <;> exact ends_next ..

theorem ends_execSealClose (sh : ShardId) : Ends s (execSealClose sh s) := by
  fun_cases execSealClose <;> exact ends_next ..

theorem ends_execSealCommit (sh : ShardId) (persisted : Bool) : Ends s (execSealCommit sh persisted s) := by
  fun_cases execSealCommit <;> exact ends_next ..

theorem ends_execCompactionStart (sh : ShardId) (part : Nat) : Ends s (execCompactionStart sh part s) := by
  fun_cases execCompactionStart <;> exact ends_next ..

theorem ends_execCompactionSeal (sh : ShardId) (part : Nat) : Ends s (execCompactionSeal sh part s) := by
  fun_cases execCompactionSeal <;> exact ends_next ..

theorem ends_execThrottleRelease : Ends s (execThrottleRelease s) := by
  fun_cases execThrottleRelease <;> exact ends_next ..

theorem ends_execTopkBlockGrant (hub : Fin 32) : Ends s (execTopkBlockGrant hub s) := by
  fun_cases execTopkBlockGrant <;> exact ends_next ..

theorem ends_execNodeMerge (ctx : Nat) : Ends s (execNodeMerge ctx s) := by
  fun_cases execNodeMerge <;> exact ends_next ..

theorem ends_execMergeSessionClose (qtag : Nat) : Ends s (execMergeSessionClose qtag s) := by
  fun_cases execMergeSessionClose <;> exact ends_next ..

theorem ends_execMergeSessionTimeout (qtag : Nat) : Ends s (execMergeSessionTimeout qtag s) := by
  fun_cases execMergeSessionTimeout <;> exact ends_next ..

theorem ends_execHeldStreamTimeout (qtag : Nat) : Ends s (execHeldStreamTimeout qtag s) := by
  fun_cases execHeldStreamTimeout <;> exact ends_next ..

theorem ends_execMoveStop (move code : Nat) : Ends s (execMoveStop move code s) := by
  fun_cases execMoveStop <;> exact ends_next ..

theorem ends_execPortRetry (port : Fin 16) : Ends s (execPortRetry port s) := by
  fun_cases execPortRetry <;> exact ends_next ..

theorem ends_execSpdmHeartbeatTimeout (session : Nat) : Ends s (execSpdmHeartbeatTimeout session s) := by
  fun_cases execSpdmHeartbeatTimeout <;> exact ends_next ..

theorem ends_execDebugTokenExpiry : Ends s (execDebugTokenExpiry s) := by
  fun_cases execDebugTokenExpiry <;> exact ends_next ..

theorem ends_execStartTimeout : Ends s (execStartTimeout s) := by
  fun_cases execStartTimeout <;> exact ends_next ..

theorem ends_execSnapshotLatch : Ends s (execSnapshotLatch s) := by
  fun_cases execSnapshotLatch <;> exact ends_next ..

theorem ends_execSnapshotComplete (bank : Fin 2) : Ends s (execSnapshotComplete bank s) := by
  fun_cases execSnapshotComplete <;> exact ends_next ..

theorem ends_execShardPinTimeout (ctx : Nat) : Ends s (execShardPinTimeout ctx s) := by
  fun_cases execShardPinTimeout <;> exact ends_next ..

theorem ends_execCassetteBatchDone (tile : Fin 8) : Ends s (execCassetteBatchDone tile s) := by
  fun_cases execCassetteBatchDone <;> exact ends_next ..

theorem ends_execFlashReadDone (unit codeword : Nat) (res : ReadOutcome) : Ends s (execFlashReadDone unit codeword res s) := by
  fun_cases execFlashReadDone <;> exact ends_next ..

theorem ends_execContextDeadline (ctx : Nat) : Ends s (execContextDeadline ctx s) := by
  fun_cases execContextDeadline <;> exact ends_next ..

theorem ends_execWriteBack : Ends s (execWriteBack s) := by
  fun_cases execWriteBack <;> exact ends_next ..

theorem ends_execSlcFold (die : Fin 256) (idle : Bool) : Ends s (execSlcFold die idle s) := by
  fun_cases execSlcFold <;> exact ends_next ..

theorem ends_execReplayTimeout (port : Fin 16) : Ends s (execReplayTimeout port s) := by
  fun_cases execReplayTimeout <;> exact ends_next ..

theorem ends_execStoreBandwidthGrant (client : Fin 1024) : Ends s (execStoreBandwidthGrant client s) := by
  fun_cases execStoreBandwidthGrant <;> exact ends_next ..

theorem ends_execCxlReadDeadline (id : Nat) : Ends s (execCxlReadDeadline id s) := by
  fun_cases execCxlReadDeadline <;> exact ends_next ..

theorem ends_execRegionUnmapComplete (owner region : Nat) : Ends s (execRegionUnmapComplete owner region s) := by
  fun_cases execRegionUnmapComplete <;> exact ends_next ..

theorem ends_execDrainTimeout (sh : ShardId) : Ends s (execDrainTimeout sh s) := by
  fun_cases execDrainTimeout <;> exact ends_next ..

theorem ends_execChunkCommit (move : Nat) : Ends s (execChunkCommit move s) := by
  fun_cases execChunkCommit <;> exact ends_next ..

theorem ends_execEccError (e : EccErr) : Ends s (execEccError e s) := by
  fun_cases execEccError <;> exact ends_next ..

theorem ends_execWearLevelMove (die : Fin 256) : Ends s (execWearLevelMove die s) := by
  fun_cases execWearLevelMove <;> exact ends_next ..

theorem ends_execPwrAckTimer (src : Nat) : Ends s (execPwrAckTimer src s) := by
  fun_cases execPwrAckTimer <;> exact ends_next ..

theorem ends_execAbsentDecision (node : Nat) : Ends s (execAbsentDecision node s) := by
  fun_cases execAbsentDecision
  · exact ends_decision ..
  · exact ends_next ..
  · exact ends_next ..

theorem ends_execDescriptorFetch (q : Fin 8192) (slots : List Bytes) (res : DmaRes) : Ends s (execDescriptorFetch q slots res s) := by
  fun_cases execDescriptorFetch <;> exact ends_next ..

theorem ends_execTenantDestroyComplete (tid : Fin 1024) : Ends s (execTenantDestroyComplete tid s) := by
  fun_cases execTenantDestroyComplete <;> exact ends_next ..

theorem ends_execResetComplete (level : Nat) (tile : Fin 8) (lost : List (Nat × Nat)) : Ends s (execResetComplete level tile lost s) := by
  fun_cases execResetComplete <;> exact ends_next ..

theorem ends_execNodeStart (info : StartInfo) : Ends s (execNodeStart info s) := by
  fun_cases execNodeStart <;> exact ends_next ..

theorem ends_execPollForPlatformEventMessage : Ends s (execPollForPlatformEventMessage s) := by
  fun_cases execPollForPlatformEventMessage <;> exact ends_next ..

theorem ends_execSealAreaFold : Ends s (execSealAreaFold s) := by
  fun_cases execSealAreaFold <;> exact ends_next ..

end Commands

/-! ## Every command -/

theorem ends_exec (c : Instr) (s : State) : Ends s (exec c s) := by
  cases c
  all_goals dsimp only [exec]
  case ptest | kmovS2k | fence | fenceRemote | nop | endThread | yield | snapArm => exact ends_f1 ..
  case jal | jalr | srd | swr => exact ends_f2 ..
  case lutBuild | filtLd | topkInit | topkPush | topkMerge | topkEmit | casShift | casRun | free => exact ends_f4 ..
  case li | liu => exact ends_f5 ..
  case sel | fsqrt | fcvt | kmovK2s | kpopc | vext | vredAdd => exact ends_sOp ..
  case add | sub | and | or | xor | shl | shr | sra | slt | sltu | min | max | minu | maxu | mul | mulh | mulhu | div | divu | rem | remu =>
    exact ends_alu ..
  case popc | clz | ctz => exact ends_alu1 ..
  case fadd | fsub | fmul | fdiv | fmin | fmax | feq | flt | fle => exact ends_fOp ..
  case vredMin | vredMax => exact ends_vRedMinMax ..
  case kand | kor | kxor | knot => exact ends_kOp ..
  case vpopc | vdotp | vmov | vbcast | vperm | vcvt => exact ends_vOp ..
  case vadd | vsub | vmul | vmin | vmax | vand | vor | vxor | vshl | vshr | vsra => exact ends_vAlu ..
  case vcmpEq | vcmpNe | vcmpLt | vcmpLe => exact ends_vCmp ..
  case addi | andi | ori | xori | shli | shri | srai | slti | sltiu => exact ends_aluImm ..
  case beq | bne | blt | bge | bltu | bgeu => exact ends_branch ..
  case ldB | ldBu | ldH | ldHu | ldW | ldWu | ldD | ldV => exact ends_load ..
  case stB | stH | stW | stD | stV => exact ends_store ..
  case scanPq4 | scanPq8 | scanEx => exact ends_scan ..
  case tabGather | tabPool | tabUpdate | tabReplace => exact ends_tab ..
  case sideAppend | genSeal | genPin | genUnpin | argmax | tsRead | qPop | qPush | qCommit => exact ends_search1 ..
  case semWait | semPost | barArrive | evtSet | evtWait => exact ends_syncOp ..
  case indexCreate | indexDrop | mergePlan | modelLoad | modelUnload | regionMap | regionUnmap | regionFlag | windowCreate | windowRemove |
      jobStart | jobFault | jobStop | shardPair | replSet | routeSet | syncCreate | syncDestroy | syncSignal =>
    exact ends_runM ..
  case pelRequestJoin | pelRequestFunction | pelRequestLeave | pelRequestSwapOut => exact ends_pelRequest ..
  case rd | wr | pwr | pwrAck | amoPacket | faultNote => exact ends_arrive ..
  case rdRsp | wrRsp | amoRsp => exact ends_respond ..
  case getVersion | getCapabilities | negotiateAlgorithms | getDigests | getCertificate | challenge | getMeasurements | keyExchange | getCsr |
      chunkSend | chunkGet =>
    exact ends_spdm ..
  case finish | spdmHeartbeat | keyUpdate | endSession | setCertificate => exact ends_inSession ..
  case setTenantKey | setConsent | regRead | regWrite | debugToken | makerToken => exact ends_vendor ..
  case nodeFailedDecision | joinDecision | jobFaultDecision | functionDecision => exact ends_decision ..
  case resetL3 | resetL2 | resetL1 | resetL0 => exact ends_runReset ..
  case tabGatherItem | tabPoolItem | tabUpdateItem | tabReplaceItem => exact ends_tabItem ..
  case lockAcquire | lockRelease | storeAmo => exact ends_wordStep ..
  case loadComplete | storeComplete => exact ends_endOf ..
  case targetTimeout | postedWriteTimeout => exact ends_reqTimeout ..
  case mergeStream | cassetteWindow | replicaRowApply | clientStatRead | stoCliBwWrite | derailleurEpoch | capacityDemotion | quotaWrite | tbCfgWrite
      | replicaWriteApply | replicaLagExceeded | mapPageWriteback | zqCalibration | pfFreeze | ackTimer | spare | width | rekeyStart | lcert |
      portLight | portTrain | portStepTimeout | sync | followUp | delayReq | bucketRefill | admShpCfgWrite | admClsCfgWrite | fixedSlotEntry |
      fixedSlotExit | tenantCreate | bypass | idcode | samplePreload | extest | jtagSystemDebug | jtagMakerTest | pmbusStatusPoll | pmbusTelemetryPoll
      | railFault | hubFreewheel | pllRelock | powerOn | brownOut | nodeRstN | managementWatchdog | tileWatchdog | lockstepMismatch | resetRequest |
      resetFuseProgram | strapOverrideWrite | mboxWrite | mboxCommit | mboxClear | mboxReset | mgtTimeSet | logTailWrite | firstFaultClear |
      suspectReportRelease | poisonedTlp | identifyMemoryDevice | getSupportedLogs | getLog | getEventRecords | clearEventRecords | getHealthInfo |
      setEndpointId | getPdr | getSensorReading | getStateSensorReadings | registerRead | unsupportedRequest | flashServiceSlot | timeHoldEnd =>
    exact ends_next ..
  case registerWrite | pinReleaseMessage | cassetteBatchStart | waitTimeout | rowUpdateApply | rowReplaceApply | rowGatherRead | leaseLapse |
      stoCliIdWrite | flashProgramDone | dieRetire | laserPowerSample | codewordReceive | dataFlit | ackFlit | idleFlit | laneErrorWindow |
      laneSignalLoss | rekeyFail | suspect | joinRequest | jobFaultRequest | functionRequest | leaveRequest | swapOutRequest | shardStream | doorbell
      | queueFlush | ringDmaTimeout | qsyQcfgWrite | tenantDestroy | perstN | pcieHotReset | pcieLinkDown | snapshotArm | functionLevelReset |
      vfEnableClear =>
    exact ends_settled ..
  case tilePowerEstimate | patrolRead | pfSenseTrip | pfPowerGate | journalSave | journalSaveComplete | busUndervoltage | busRecovery | laneSwitch |
      neigh | portKey | portNeigh | portUp | timeExchange | heartbeatSend | beaconSend | gateOpen | gateClose | setAnchor | pllPowerDown |
      throttleWithdraw | throttleReturn | gpioFallingEdge | pcieLinkUp =>
    exact ends_ite (ends_next ..) (ends_next ..)
  case itemAdmit | itemDispatch | modelLoadDone | cxlMemRead | cxlMemWrite | peerWindowAccess | heartbeatMiss | vote | decide | beacon | fenceTimeout
      | nodeReady | snapshotPortArm =>
    exact ends_ite (ends_next ..) (ends_settled ..)
  case spokeKat | heartbeat | cassetteKat => exact ends_ite (ends_next ..) (ends_ite (ends_next ..) (ends_settled ..))
  case rowOwnerRecompute => exact ends_ite (ends_settled ..) (ends_next ..)
  case garbageCollection => exact ends_ite (ends_next ..) (ends_ite (ends_settled ..) (ends_next ..))
  case blockRefresh => exact ends_ite (ends_next ..) (ends_ite (ends_settled ..) (ends_settled ..))
  case rekey => exact ends_ite (ends_next ..) (ends_ite (ends_ite (ends_next ..) (ends_next ..)) (ends_ite (ends_next ..) (ends_next ..)))
  case delayResp | jtagTenantDebug | thermalSample => exact ends_ite (ends_next ..) (ends_ite (ends_next ..) (ends_next ..))
  case keyParityError => exact ends_ite (ends_next ..) (ends_ite (ends_next ..) (ends_ite (ends_next ..) (ends_next ..)))
  case clockLoss => exact ends_ite (ends_settled ..) (ends_ite (ends_settled ..) (ends_ite (ends_next ..) (ends_next ..)))
  case query => exact ends_execQuery ..
  case mergeSessionReserve => exact ends_execMergeSessionReserve ..
  case append => exact ends_execAppend ..
  case journalStage => exact ends_execJournalStage ..
  case sealClose => exact ends_execSealClose ..
  case sealCommit => exact ends_execSealCommit ..
  case compactionStart => exact ends_execCompactionStart ..
  case compactionSeal => exact ends_execCompactionSeal ..
  case topkBlockGrant => exact ends_execTopkBlockGrant ..
  case nodeMerge => exact ends_execNodeMerge ..
  case mergeSessionClose => exact ends_execMergeSessionClose ..
  case mergeSessionTimeout => exact ends_execMergeSessionTimeout ..
  case heldStreamTimeout => exact ends_execHeldStreamTimeout ..
  case shardPinTimeout => exact ends_execShardPinTimeout ..
  case cassetteBatchDone => exact ends_execCassetteBatchDone ..
  case amo => exact ends_execAmo ..
  case contextDeadline => exact ends_execContextDeadline ..
  case storeBandwidthGrant => exact ends_execStoreBandwidthGrant ..
  case cxlReadDeadline => exact ends_execCxlReadDeadline ..
  case regionUnmapComplete => exact ends_execRegionUnmapComplete ..
  case chunkCommit => exact ends_execChunkCommit ..
  case moveStop => exact ends_execMoveStop ..
  case eccError => exact ends_execEccError ..
  case flashReadDone => exact ends_execFlashReadDone ..
  case writeBack => exact ends_execWriteBack ..
  case slcFold => exact ends_execSlcFold ..
  case wearLevelMove => exact ends_execWearLevelMove ..
  case replayTimeout => exact ends_execReplayTimeout ..
  case portRetry => exact ends_execPortRetry ..
  case pwrAckTimer => exact ends_execPwrAckTimer ..
  case absentDecision => exact ends_execAbsentDecision ..
  case drainTimeout => exact ends_execDrainTimeout ..
  case descriptorFetch => exact ends_execDescriptorFetch ..
  case tenantDestroyComplete => exact ends_execTenantDestroyComplete ..
  case spdmHeartbeatTimeout => exact ends_execSpdmHeartbeatTimeout ..
  case debugTokenExpiry => exact ends_execDebugTokenExpiry ..
  case throttleRelease => exact ends_execThrottleRelease ..
  case resetComplete => exact ends_execResetComplete ..
  case nodeStart => exact ends_execNodeStart ..
  case startTimeout => exact ends_execStartTimeout ..
  case snapshotLatch => exact ends_execSnapshotLatch ..
  case snapshotComplete => exact ends_execSnapshotComplete ..
  case pollForPlatformEventMessage => exact ends_execPollForPlatformEventMessage ..
  case sealAreaFold => exact ends_execSealAreaFold ..
  -- What is left is SEAL, whose name is a keyword.
  exact ends_runM ..

/-- Settles O45: every command ends (`ends_exec`). -/
theorem everyCommandCompletes : Obligations.EveryCommandCompletes := fun c s => (ends_exec c s).next

/-! ## Steps -/

theorem state_ok_iff (s : State) : s.ok = true ↔ memOk s.node.mem.bytes = true ∧ memOk s.node.flash.media = true := by
  simp [State.ok]

/-- A nanosecond on an empty queue leaves the memories. -/
theorem tick_ok (s : State) : s.tick.ok = s.ok := rfl

/-- Settles O46: a tick leaves both maps, and a command ends with canonical ones. -/
theorem stepKeepsByteMaps : Obligations.StepKeepsByteMaps := by
  intro s t canonical stepped
  unfold step at stepped
  split at stepped
  case h_1 =>
    cases stepped
    rwa [tick_ok]
  case h_2 c rest _ =>
    obtain ⟨n, ended, mem, media⟩ := (ends_exec c { s with pending := rest }).next
    rw [ended] at stepped
    cases stepped
    exact (state_ok_iff _).2 ⟨mem, media⟩

end Sys2Proof.Machine

/-! Byte maps, the memory of an owner, and the registers of a thread: what a read gives after a write (09; 06 Table 6.1). -/

namespace Sys2Proof

/-! ## Keyed lists -/

theorem KList.find?_cons_of_lt {α : Type} {k j : Nat} {v : α} {t : KList α} (behind : k < j) : KList.find? ((k, v) :: t) j = KList.find? t j := by
  simp only [KList.find?]
  rw [if_neg (by omega), if_neg (by omega)]

/-- An entry before all others goes to the front. -/
theorem KList.put_of_okFrom {α : Type} {k : Nat} {t : KList α} (before : KList.okFrom (some k) t = true) (v : α) :
    KList.put t k v = (k, v) :: t := by
  cases t with
  | nil => rfl
  | cons p t =>
    obtain ⟨j, w⟩ := p
    simp only [KList.okFrom, Bool.and_eq_true, decide_eq_true_eq] at before
    simp only [KList.put]
    rw [if_neg (by omega), if_pos before.1]

namespace Machine

open Sys2Proof.Claims

/-! ## Canonical byte maps -/

theorem memOk_cons {k : Nat} {b : Byte} {t : List Host.Cell} (canonical : memOk ((k, b) :: t) = true) :
    b ≠ 0 ∧ KList.okFrom (some k) t = true ∧ memOk t = true := by
  obtain ⟨rising, set⟩ := (memOk_iff _).1 canonical
  have front : KList.okFrom (some k) t = true := rising
  exact ⟨set (k, b) List.mem_cons_self, front,
    (memOk_iff _).2 ⟨KList.ok_of_okFrom t k front, fun c hc => set c (List.mem_cons_of_mem _ hc)⟩⟩

theorem cellGet_cons_self (k : Nat) (b : Byte) (t : List Host.Cell) : cellGet ((k, b) :: t) k = b := by
  simp [cellGet, KList.getD, KList.find?]

theorem cellGet_head_ne_zero {k : Nat} {b : Byte} {t : List Host.Cell} (canonical : memOk ((k, b) :: t) = true) : cellGet ((k, b) :: t) k ≠ 0 := by
  obtain ⟨set, -, -⟩ := memOk_cons canonical
  rwa [cellGet_cons_self]

/-- Where the keys rise, the others read as in the rest. -/
theorem cellGet_cons_of_ne {k j : Nat} (other : j ≠ k) (b : Byte) {t : List Host.Cell} (before : KList.okFrom (some k) t = true) :
    cellGet ((k, b) :: t) j = cellGet t j := by
  rcases Nat.lt_or_gt_of_ne other with front | behind
  · have none : KList.find? t j = none := KList.find?_below t k j before (Nat.le_of_lt front)
    simp [cellGet, KList.getD, KList.find?, other, front, none]
  · simp only [cellGet, KList.getD, KList.find?_cons_of_lt behind]

theorem cellGet_canonCells {l : List Host.Cell} (rising : KList.ok l = true) (j : Nat) : cellGet (canonCells l) j = cellGet l j := by
  induction l with
  | nil => rfl
  | cons c t ih =>
    obtain ⟨k, b⟩ := c
    have before : KList.okFrom (some k) t = true := rising
    have canonical : KList.ok (canonCells t) = true := ((memOk_iff _).1 (canonCells_memOk t)).1
    rw [canonCells, cellGet_cellPut _ _ _ _ canonical, ih (KList.ok_of_okFrom t k before)]
    split
    · next here => rw [here, cellGet_cons_self]
    · next other => rw [cellGet_cons_of_ne other b before]

theorem canonCells_of_memOk {l : List Host.Cell} (canonical : memOk l = true) : canonCells l = l := by
  induction l with
  | nil => rfl
  | cons c t ih =>
    obtain ⟨set, before, rest⟩ := memOk_cons canonical
    rw [canonCells, ih rest, cellPut, if_neg set, KList.put_of_okFrom before]

/-- The first key of a canonical map is not behind that of one which reads the same. -/
theorem le_of_cellGet_eq {j k : Nat} {a b : Byte} {t u : List Host.Cell} (left : memOk ((k, b) :: t) = true) (right : memOk ((j, a) :: u) = true)
    (same : ∀ i, cellGet ((k, b) :: t) i = cellGet ((j, a) :: u) i) : k ≤ j := by
  by_contra behind
  obtain ⟨set, -, -⟩ := memOk_cons right
  obtain ⟨-, before, -⟩ := memOk_cons left
  have unread : cellGet ((k, b) :: t) j = 0 := by
    rw [cellGet_cons_of_ne (by omega) b before]
    simp [cellGet, KList.getD, KList.find?_below t k j before (by omega)]
  rw [same, cellGet_cons_self] at unread
  exact set unread

theorem memOk_ext {l m : List Host.Cell} (left : memOk l = true) (right : memOk m = true) (same : ∀ k, cellGet l k = cellGet m k) : l = m := by
  induction l generalizing m with
  | nil =>
    cases m with
    | nil => rfl
    | cons c u => exact absurd (same c.1).symm (cellGet_head_ne_zero right)
  | cons c t ih =>
    obtain ⟨k, b⟩ := c
    cases m with
    | nil => exact absurd (same k) (cellGet_head_ne_zero left)
    | cons d u =>
      obtain ⟨j, a⟩ := d
      obtain rfl : k = j := Nat.le_antisymm (le_of_cellGet_eq left right same) (le_of_cellGet_eq right left fun i => (same i).symm)
      obtain rfl : b = a := by simpa only [cellGet_cons_self] using same k
      obtain ⟨-, beforeT, restT⟩ := memOk_cons left
      obtain ⟨-, beforeU, restU⟩ := memOk_cons right
      rw [ih restT restU fun i => ?_]
      by_cases here : i = k
      · simp only [here, cellGet, KList.getD, KList.find?_below _ k k beforeT (Nat.le_refl k), KList.find?_below _ k k beforeU (Nat.le_refl k)]
      · rw [← cellGet_cons_of_ne here b beforeT, same, cellGet_cons_of_ne here b beforeU]

/-- Settles O49: the form reads as the map (`cellGet_canonCells`), is its own form, and what reads alike is equal (`memOk_ext`). -/
theorem canonicalBytesReadTheSame : Obligations.CanonicalBytesReadTheSame :=
  ⟨fun _ k rising => cellGet_canonCells rising k, fun _ canonical => canonCells_of_memOk canonical,
    fun _ _ left right same => memOk_ext left right same⟩

/-! ## Memory of an owner (09, 14) -/

theorem cellRead_congr {l m : List Host.Cell} {k n : Nat} (same : ∀ i < n, cellGet l (k + i) = cellGet m (k + i)) : cellRead l k n = cellRead m k n :=
  List.map_congr_left fun i hi => same i (List.mem_range.1 hi)

/-- What was written reads back. -/
theorem cellRead_cellWrite {l : List Host.Cell} (rising : KList.ok l = true) (k : Nat) (b : Bytes) : cellRead (cellWrite l k b) k b.length = b := by
  refine List.ext_getElem (by simp [cellRead]) fun i _ hi => ?_
  simp [cellRead, cellGet_cellWrite l k (k + i) b rising, hi]

/-- A stretch apart from what is written reads as before. -/
theorem cellRead_cellWrite_apart {l : List Host.Cell} (rising : KList.ok l = true) {k c n : Nat} {b : Bytes} (apart : c + n ≤ k ∨ k + b.length ≤ c) :
    cellRead (cellWrite l k b) c n = cellRead l c n :=
  cellRead_congr fun i hi => by rw [cellGet_cellWrite l k (c + i) b rising, if_neg (by omega)]

/-- Settles O50: owners' addresses lie 2 ^ 48 apart, so every other range is apart from what is written (`cellRead_cellWrite_apart`). -/
theorem memoryOfOneOwner : Obligations.MemoryOfOneOwner := by
  intro n o a b canonical fits
  have rising : KList.ok n.mem.bytes = true := ((memOk_iff _).1 canonical).1
  refine ⟨cellRead_cellWrite rising _ b, fun c k fitsC apart => ?same, fun p c k other fitsC => ?others, n.write_memOk o a b canonical⟩
  case same =>
    refine cellRead_cellWrite_apart rising ?_
    simp only [memKey]
    omega
  case others =>
    refine cellRead_cellWrite_apart rising ?_
    simp only [memKey]
    rcases Nat.lt_or_gt_of_ne other with below | above <;> omega

/-! ## Registers of a thread (06 Table 6.1) -/

theorem Thread.getS_setS (t : Thread) (d r : Nat) (v : W64) (p : Bool) :
    (t.setS d v p).getS r = if r = 0 then 0 else if r = d then v else t.getS r := by
  unfold Thread.getS Thread.setS
  split
  · rfl
  · split
    · next zero hd => rw [if_neg (by omega)]
    · exact KList.getD_put ..

theorem contains_setPoison (l : List Nat) (d r : Nat) (p : Bool) :
    (if p then d :: l.filter (· != d) else l.filter (· != d)).contains r = if r = d then p else l.contains r := by
  cases p <;> by_cases here : r = d <;> simp [here]

theorem Thread.poisoned_setS (t : Thread) (d r : Nat) (v : W64) (p : Bool) :
    (t.setS d v p).poisoned (.s r) = if d ≠ 0 ∧ r = d then p else t.poisoned (.s r) := by
  by_cases zero : d = 0
  · simp [Thread.setS, zero]
  · rw [Thread.setS, if_neg zero]
    simp only [Thread.poisoned, contains_setPoison, ne_eq, zero, not_false_eq_true, true_and]

theorem Thread.getV_setV (t : Thread) (d r : Nat) (v : V512) (p : Bool) : (t.setV d v p).getV r = if r = d then v.toNat else t.getV r := by
  simp only [Thread.getV, Thread.setV, KList.getD_put]
  split <;> rfl

theorem Thread.poisoned_setV (t : Thread) (d r : Nat) (v : V512) (p : Bool) :
    (t.setV d v p).poisoned (.v r) = if r = d then p else t.poisoned (.v r) := by
  simp only [Thread.setV, Thread.poisoned, contains_setPoison]

theorem Thread.getK_setK (t : Thread) (d r v : Nat) :
    (t.setK d v).getK r = if r = 0 then 2 ^ 64 - 1 else if r = d then v % 2 ^ 64 else t.getK r := by
  unfold Thread.getK Thread.setK
  split
  · rfl
  · split
    · next zero hd => rw [if_neg (by omega)]
    · simp only [KList.getD_put]
      split <;> simp

/-- Settles O51: each file reads back by its own lemma, and a write to one leaves the others' fields. -/
theorem registersReadBack : Obligations.RegistersReadBack := by
  refine ⟨Thread.getS_setS, Thread.poisoned_setS, Thread.getV_setV, Thread.poisoned_setV, Thread.getK_setK, ?s, ?v, ?k⟩
  case s =>
    intro t d r v p
    simp only [Thread.getV, Thread.getK, Thread.setS_v, Thread.setS_k, Thread.setS_pc, and_self]
  case v =>
    intro t d r v p
    simp only [Thread.getS, Thread.getK, Thread.setV_s, Thread.setV_k, Thread.setV_pc, and_self]
  case k =>
    intro t d r v
    simp only [Thread.getS, Thread.getV, Thread.setK_s, Thread.setK_v, Thread.setK_pc, and_self]

end Machine
end Sys2Proof

/-! The bound on unread log records (16 R516, R518), and what the end of a command leaves of the node. -/

namespace Sys2Proof.Machine

open Sys2Proof.Claims

/-! ## The log ring -/

/-- A ring with 20,480 unread records is full in either mode (14 Table 14.10). -/
theorem logPressure_of_full {n : Node} (full : 20480 ≤ n.log.unread) (tid : Nat) : (n.logPressure tid).2 = true := by
  unfold Node.logPressure
  split <;> simp [full]

/-- The record that an event is coalesced with is held. -/
theorem exists_of_coalesceTo {n : Node} {e : LogEv} {i : Nat} (target : n.coalesceTo e = some i) : ∃ x, KList.find? n.log.ring i = some x := by
  unfold Node.coalesceTo at target
  split at target
  · obtain ⟨x, found, -⟩ := alike_iff.1 (List.find?_some target)
    exact ⟨x, found⟩
  · cases target

/-- Settles O57: an event is coalesced or dropped, which leaves both ends of the ring, or appended, which needs room. -/
theorem logRingStaysBounded : Obligations.LogRingStaysBounded := by
  intro n e headFits tailFits bounded
  cases target : n.coalesceTo e with
  | some i =>
    obtain ⟨x, found⟩ := exists_of_coalesceTo target
    obtain ⟨-, coal, drop, head, tail⟩ := logEvent_coalesces target found
    refine ⟨by rwa [head], tail, by rwa [Log.unread, head, tail], fun _ => ⟨head, by omega⟩⟩
  | none =>
    cases pressure : (n.logPressure e.tid).2 with
    | true =>
      obtain ⟨-, head, drop, coal, tail⟩ := logEvent_drops target pressure
      refine ⟨by rwa [head], tail, by rwa [Log.unread, head, tail], fun _ => ⟨head, by omega⟩⟩
    | false =>
      obtain ⟨-, head, coal, drop, tail⟩ := logEvent_appends target pressure
      have room : n.log.unread < 20480 := by
        by_contra full
        rw [logPressure_of_full (Nat.not_lt.1 full)] at pressure
        cases pressure
      refine ⟨by omega, tail, ?_, fun full => by omega⟩
      simp only [Log.unread, head, tail] at *
      omega

/-! ## The end of a command -/

theorem tidy_of_canonical {n : Node} (mem : memOk n.mem.bytes = true) (media : memOk n.flash.media = true) : n.tidy = n := by
  simp only [Node.tidy, canonCells_of_memOk mem, canonCells_of_memOk media]

/-- Where the engines have nothing for another node's ports, nothing is sent. -/
theorem sendOutbox_of_empty {n : Node} (outbox : n.fabric.outbox = []) (ports : n.fabric.portOut = []) : n.sendOutbox = n := by
  obtain ⟨fuses, qspi, dev, mgt, power, mbox, log, snap, sec, hif, qsy, adm, index, spokes, sel, cas, store, mem, flash, links, fabric⟩ := n
  obtain ⟨⟩ := fabric
  simp only at outbox ports
  subst outbox ports
  rfl

theorem foldl_servePop_of_none {l : List Nat} {n : Node} (still : ∀ k ∈ l, n.servePop k = n) : l.foldl Node.servePop n = n := by
  induction l with
  | nil => rfl
  | cons k t ih => rw [List.foldl_cons, still k List.mem_cons_self, ih fun j hj => still j (List.mem_cons_of_mem _ hj)]

theorem servePop_of_no_item {n : Node} {k : Nat}
    (empty : ∀ t q d b l, n.thread k = some t → t.wait = some (.pop q d b l) → n.popSlots q = 0) : n.servePop k = n := by
  unfold Node.servePop
  split
  · next t bound =>
    split
    · next q d b l waits => rw [if_pos (empty t q d b l bound waits)]
    · rfl
  · rfl

theorem servePop_of_item {n : Node} {k : Nat} {t : Thread} {q d b : Nat} {l : Option Nat} (bound : n.thread k = some t)
    (waits : t.wait = some (.pop q d b l)) (item : n.popSlots q ≠ 0) (fits : d + 128 * n.popSlots q ≤ 4096 * t.lsize) :
    n.servePop k = n.popInto k t q d t.waitRd := by
  simp only [Node.servePop, bound, waits, if_neg item, if_neg (Nat.not_lt.2 fits)]

/-- Objects of other kinds keep their waiters, and those without waiters are not looked at. -/
theorem serveSyncs_of_quiet {n : Node} (quiet : ∀ p ∈ n.qsy.syncs, p.2.type = 0 ∨ p.2.type = 3 → p.2.waiters = []) : n.serveSyncs = n := by
  have still (l : List (Nat × Sync)) (none : ∀ p ∈ l, ¬ (p.2.type = 0 ∨ p.2.type = 3)) : l.foldl (fun s p => s.serveSync p.1 p.2) n = n := by
    induction l with
    | nil => rfl
    | cons p t ih =>
      have here : n.serveSync p.1 p.2 = n := by simpa [Node.serveSync] using fun h => absurd h (none p List.mem_cons_self)
      rw [List.foldl_cons, here, ih fun j hj => none j (List.mem_cons_of_mem _ hj)]
  refine still _ fun p hp kind => ?_
  obtain ⟨listed, waiting⟩ := List.mem_filter.1 hp
  simp [quiet p listed kind] at waiting

theorem wakeWaiters_fabric (n : Node) (l : List Nat) : (n.wakeWaiters l).fabric = n.fabric := by
  induction l generalizing n with
  | nil => rfl
  | cons k t ih =>
    unfold Node.wakeWaiters at ih ⊢
    rw [List.foldl_cons, ih]
    split
    · split <;> rfl
    · rfl

theorem settleSem_fabric (n : Node) (i : Nat) (x : Sync) (v : Nat) : (n.settleSem i x v).fabric = n.fabric := wakeWaiters_fabric _ _

/-- Settles O48: each of the three stages of `settle` leaves the node where it has nothing to serve. -/
theorem settledKeepsTheNode : Obligations.SettledKeepsTheNode := by
  refine ⟨fun s n => rfl, fun n => tidy_of_canonical, ?still, ?pop, ?sync⟩
  case still =>
    intro n empty ⟨quiet, outbox, ports⟩
    rw [Node.settle, foldl_servePop_of_none fun k hk => servePop_of_no_item (empty k hk), serveSyncs_of_quiet quiet,
      sendOutbox_of_empty outbox ports]
  case pop =>
    intro n k t q d b l one bound waits item fits ⟨quiet, outbox, ports⟩
    have quiet' : ∀ p ∈ (n.popInto k t q d t.waitRd).qsy.syncs, p.2.type = 0 ∨ p.2.type = 3 → p.2.waiters = [] := quiet
    have outbox' : (n.popInto k t q d t.waitRd).fabric.outbox = [] := outbox
    have ports' : (n.popInto k t q d t.waitRd).fabric.portOut = [] := ports
    rw [Node.settle, one, List.foldl_cons, List.foldl_nil, servePop_of_item bound waits item fits, serveSyncs_of_quiet quiet',
      sendOutbox_of_empty outbox' ports']
  case sync =>
    intro n i x none outbox ports one kind
    have served : n.serveSyncs = n.settleSem i x x.value := by
      have counts : (x.type == 0 || x.type == 3) = true := by simpa using kind
      simp only [Node.serveSyncs, one, List.foldl_cons, List.foldl_nil, Node.serveSync, counts, if_true]
    rw [Node.settle, none, List.foldl_nil, served, sendOutbox_of_empty] <;> rwa [settleSem_fabric]

end Sys2Proof.Machine

/-! ## Instructions that do not issue (06 R164, R173, R184, R188)

Every instruction of formats F1 and F2 is one call of `State.f1` or `State.f2`, most of them through a wrapper
(`State.alu`, `State.vOp` …). `IsF1` and `IsF2` say so for the tables of the statement; what stops an instruction is then a
fact about `State.issue`. -/

namespace Sys2Proof.Machine
open Sys2Proof.Claims

/-- The instruction issues as the F1 word `encF1 op fn` and faults on a reserved bit. -/
def IsF1 (c : Thr → F1 → Instr) (op fn : Nat) : Prop :=
  ∀ th f, ∃ (legal : Bool) (g : State → Nat → Thread → Ctx → Eff), ∀ s, exec (c th f) s = s.f1 th op fn f legal (g s)

/-- The instruction issues as the F2 word `encF2 op fn` and faults on a reserved bit. -/
def IsF2 (c : Thr → F2 → Instr) (op fn : Nat) : Prop :=
  ∀ th f, ∃ (legal : Bool) (g : State → Nat → Thread → Ctx → Eff), ∀ s, exec (c th f) s = s.f2 th op fn f legal (g s)

section
variable {c : Thr → F1 → Instr} {op fn : Nat}

theorem isF1_f1 {legal : F1 → Bool} {g : F1 → State → Nat → Thread → Ctx → Eff}
    (h : ∀ th f s, exec (c th f) s = s.f1 th op fn f (legal f) (g f s)) : IsF1 c op fn := fun th f => ⟨_, _, h th f⟩

theorem isF1_sOp {legal : F1 → Bool} {srcs consumed : F1 → List Dst} {g : F1 → Thread → W64}
    (h : ∀ th f s, exec (c th f) s = s.sOp th op fn f (legal f) (srcs f) (consumed f) (g f)) : IsF1 c op fn :=
  fun th f => ⟨_, _, h th f⟩

theorem isF1_alu {g : W64 → W64 → W64} (h : ∀ th f s, exec (c th f) s = s.alu th op fn f g) : IsF1 c op fn :=
  isF1_sOp h

theorem isF1_alu1 {g : W64 → W64} (h : ∀ th f s, exec (c th f) s = s.alu1 th op fn f g) : IsF1 c op fn :=
  isF1_sOp h

theorem isF1_fOp {g : Fmt → Nat → Nat → Nat} (h : ∀ th f s, exec (c th f) s = s.fOp th fn f g) : IsF1 c 3 fn :=
  isF1_sOp h

theorem isF1_kOp {two : Bool} {g : W64 → W64 → W64} (h : ∀ th f s, exec (c th f) s = s.kOp th fn f two g) : IsF1 c 4 fn :=
  isF1_f1 h

theorem isF1_vOp {legal : F1 → Bool} {srcs consumed : F1 → List Dst} {w n : F1 → Nat} {g : F1 → Thread → Nat → Nat}
    (h : ∀ th f s, exec (c th f) s = s.vOp th op fn f (legal f) (srcs f) (consumed f) (w f) (n f) (g f)) : IsF1 c op fn :=
  fun th f => ⟨_, _, h th f⟩

theorem isF1_vAlu {ets : Nat → Bool} {g : Nat → Nat → Nat → Nat} (h : ∀ th f s, exec (c th f) s = s.vAlu th fn f ets g) : IsF1 c 8 fn :=
  isF1_vOp h

theorem isF1_vCmp {gi : Int → Int → Bool} {gf : Fmt → Nat → Nat → Bool} (h : ∀ th f s, exec (c th f) s = s.vCmp th fn f gi gf) :
    IsF1 c 9 fn := isF1_f1 h

theorem isF1_vRedMinMax {mx : Bool} (h : ∀ th f s, exec (c th f) s = s.vRedMinMax th fn f mx) : IsF1 c 10 fn := isF1_sOp h

end

theorem coreF1_isF1 : ∀ p ∈ coreF1, IsF1 p.1 p.2.1 p.2.2 := by
  unfold coreF1
  simp only [List.forall_mem_append, List.forall_mem_cons, List.not_mem_nil, false_implies, implies_true, and_true, and_assoc]
  and_intros
  iterate 14 exact isF1_alu fun _ _ _ => by dsimp only [exec]; exact rfl
  exact isF1_sOp fun _ _ _ => by dsimp only [exec]; exact rfl
  iterate 3 exact isF1_alu1 fun _ _ _ => by dsimp only [exec]; exact rfl
  exact isF1_f1 fun _ _ _ => by dsimp only [exec]; exact rfl
  iterate 7 exact isF1_alu fun _ _ _ => by dsimp only [exec]; exact rfl
  iterate 4 exact isF1_fOp fun _ _ _ => by dsimp only [exec]; exact rfl
  exact isF1_sOp fun _ _ _ => by dsimp only [exec]; exact rfl
  iterate 5 exact isF1_fOp fun _ _ _ => by dsimp only [exec]; exact rfl
  exact isF1_sOp fun _ _ _ => by dsimp only [exec]; exact rfl
  iterate 4 exact isF1_kOp fun _ _ _ => by dsimp only [exec]; exact rfl
  exact isF1_f1 fun _ _ _ => by dsimp only [exec]; exact rfl
  iterate 2 exact isF1_sOp fun _ _ _ => by dsimp only [exec]; exact rfl
  iterate 11 exact isF1_vAlu fun _ _ _ => by dsimp only [exec]; exact rfl
  iterate 2 exact isF1_vOp fun _ _ _ => by dsimp only [exec]; exact rfl
  iterate 4 exact isF1_vCmp fun _ _ _ => by dsimp only [exec]; exact rfl
  iterate 2 exact isF1_vOp fun _ _ _ => by dsimp only [exec]; exact rfl
  exact isF1_sOp fun _ _ _ => by dsimp only [exec]; exact rfl
  iterate 2 exact isF1_vOp fun _ _ _ => by dsimp only [exec]; exact rfl
  exact isF1_sOp fun _ _ _ => by dsimp only [exec]; exact rfl
  iterate 2 exact isF1_vRedMinMax fun _ _ _ => by dsimp only [exec]; exact rfl
  iterate 5 exact isF1_f1 fun _ _ _ => by dsimp only [exec]; exact rfl


theorem isF2_f2 {c : Thr → F2 → Instr} {op fn : Nat} {legal : F2 → Bool} {g : F2 → State → Nat → Thread → Ctx → Eff}
    (h : ∀ th f s, exec (c th f) s = s.f2 th op fn f (legal f) (g f s)) : IsF2 c op fn := fun th f => ⟨_, _, h th f⟩

theorem isF2_aluImm {c : Thr → F2 → Instr} {op fn : Nat} {legal : F2 → Bool} {g : W64 → W64 → W64}
    (h : ∀ th f s, exec (c th f) s = s.aluImm th op fn f (legal f) g) : IsF2 c op fn := isF2_f2 h

theorem isF2_branch {c : Thr → F2 → Instr} {fn : Nat} {g : W64 → W64 → Bool}
    (h : ∀ th f s, exec (c th f) s = s.branch th fn f g) : IsF2 c 0x21 fn := isF2_f2 h

theorem coreF2_isF2 : ∀ p ∈ coreF2, IsF2 p.1 p.2.1 p.2.2 := by
  unfold coreF2
  simp only [List.forall_mem_append, List.forall_mem_cons, List.not_mem_nil, false_implies, implies_true, and_true, and_assoc]
  and_intros
  iterate 9 exact isF2_aluImm fun _ _ _ => by dsimp only [exec]; exact rfl
  iterate 6 exact isF2_branch fun _ _ _ => by dsimp only [exec]; exact rfl
  iterate 4 exact isF2_f2 fun _ _ _ => by dsimp only [exec]; exact rfl

/-- An instruction that is one call of `State.issue` stops as `Stopped` says, where its effect faults on a reserved bit. -/
theorem stopped_of_issue {c : Instr} {th : Thr} {w : W64} {reserved : Bool} {g : State → Nat → Thread → Ctx → Eff}
    (h : ∀ s, exec c s = s.issue th w (g s)) (hr : reserved = true → ∀ s n t x, g s n t x = .fault 0x0160 0) : Stopped c th w reserved := by
  intro s
  rw [h s]
  refine ⟨issue_free s th w _, fun t x ht hx => ⟨issue_held s th w _ t x ht hx, issue_outside s th w _ t x ht hx,
    issue_reserved s th w _ t x ht hx, issue_other s th w _ t x ht hx, fun hc hl hh ha hw he => ?_⟩⟩
  exact issue_fault ⟨ht, hx, hc, hl, hh, ha, hw⟩ _ _ _ (hr he s _ t x)

theorem stopped_of_isF1 {c : Thr → F1 → Instr} {op fn : Nat} (h : IsF1 c op fn) (th : Thr) (f : F1) :
    Stopped (c th f) th (encF1 op fn f) (f.rsv != 0) := by
  obtain ⟨legal, g, hg⟩ := h th f
  exact stopped_of_issue hg fun hr s n t x => by simp only [hr, Bool.true_or, if_true]

theorem stopped_of_isF2 {c : Thr → F2 → Instr} {op fn : Nat} (h : IsF2 c op fn) (th : Thr) (f : F2) :
    Stopped (c th f) th (encF2 op fn f) (f.rsv != 0) := by
  obtain ⟨legal, g, hg⟩ := h th f
  exact stopped_of_issue hg fun hr s n t x => by simp only [hr, Bool.true_or, if_true]

/-- The integer instructions of two sources. -/
theorem coreF1_isAlu : ∀ p ∈ coreF1, p.2.1 ≤ 2 → p.2 ≠ (1, 14) → ¬ (p.2.1 = 1 ∧ 15 ≤ p.2.2) →
    ∃ g, ∀ th f s, exec (p.1 th f) s = s.alu th p.2.1 p.2.2 f g := by
  unfold coreF1
  simp only [List.forall_mem_append, List.forall_mem_cons, List.not_mem_nil, false_implies, implies_true, and_true, and_assoc,
    ne_eq, Prod.mk.injEq, Nat.reduceLeDiff, Nat.reduceEqDiff, and_self, and_false, not_false_eq_true, not_true_eq_false, forall_const]
  and_intros
  iterate 21 exact ⟨_, fun _ _ _ => by dsimp only [exec]; exact rfl⟩

theorem alu_stalls {s : State} {th : Thr} {op fn : Nat} {f : F1} {t : Thread} {x : Ctx} (g : W64 → W64 → W64) (h0 : f.rsv = 0)
    (h : Issues s th (encF1 op fn f) t x) (hL : ¬ Landed s th [sDst f.rd.toNat, .s f.ra.toNat, .s f.rb.toNat]) :
    s.alu th op fn f g = s.next s.node := by
  unfold State.alu State.sOp
  rw [f1_legal _ _ _ _ _ _ _ h0 rfl]
  exact issue_stall h _ (regOp_stall _ _ _ _ _ _ hL)

/-- Settles O53: each instruction of the tables is one call of `State.f1` or `State.f2`, and those of two integer sources of
`State.alu`. -/
theorem instructionsThatDoNotIssue : Obligations.InstructionsThatDoNotIssue := by
  refine ⟨fun p hp => stopped_of_isF1 (coreF1_isF1 p hp), fun p hp => stopped_of_isF2 (coreF2_isF2 p hp), ?_⟩
  intro p hp hop hsel hone s th f t x h0 h hL
  obtain ⟨g, hg⟩ := coreF1_isAlu p hp hop hsel hone
  rw [hg, alu_stalls g h0 h hL]
end Sys2Proof.Machine

/-! ## Integer and immediate instructions (06 Tables 6.8 and 6.9)

Each instruction is a wrapper of `Laws/Thread` applied to the operation that the model gives it; what is left is that this operation
and the stated one agree on all words. -/

namespace Sys2Proof.Machine
open Sys2Proof.Claims

theorem bitAt_eq_testBit (v i : Nat) : bitAt v i = v.testBit i := by
  rw [bitAt, fld, Nat.testBit_eq_decide_div_mod_eq, Nat.shiftRight_eq_div_pow, pow_one, beq_eq_decide]

theorem popcount_eq_countP (w v : Nat) : popcount w v = (List.range w).countP (bitAt v) := by
  induction w generalizing v with
  | zero => rfl
  | succ w ih =>
    have hbit : (bitAt v ∘ Nat.succ) = bitAt (v / 2) := by
      funext i; simp [bitAt_eq_testBit, Nat.testBit_succ]
    have hlow : v % 2 = if bitAt v 0 then 1 else 0 := by
      rcases Nat.mod_two_eq_zero_or_one v with h | h <;> simp [bitAt_eq_testBit, Nat.testBit_zero, h]
    rw [popcount, ih, List.range_succ_eq_map, List.countP_cons, List.countP_map, hbit, hlow, Nat.add_comm]


/-! ### The operations on words -/

theorem word_add (a b : W64) : a + b = BitVec.ofNat 64 (a.toNat + b.toNat) :=
  BitVec.eq_of_toNat_eq (by rw [BitVec.toNat_add, BitVec.toNat_ofNat])

theorem word_sub (a b : W64) : a - b = BitVec.ofInt 64 (a.toInt - b.toInt) := by
  rw [Int.sub_eq_add_neg, BitVec.ofInt_add, BitVec.ofInt_neg, BitVec.ofInt_toInt, BitVec.ofInt_toInt, BitVec.sub_eq_add_neg]

theorem word_mul (a b : W64) : a * b = BitVec.ofNat 64 (a.toNat * b.toNat) :=
  BitVec.eq_of_toNat_eq (by rw [BitVec.toNat_mul, BitVec.toNat_ofNat])

theorem word_shl (a : W64) (n : Nat) : a <<< n = BitVec.ofNat 64 (a.toNat * 2 ^ n) := by
  apply BitVec.eq_of_toNat_eq
  simp [Nat.shiftLeft_eq]

theorem word_shr (a : W64) (n : Nat) : a >>> n = BitVec.ofNat 64 (a.toNat / 2 ^ n) := by
  apply BitVec.eq_of_toNat_eq
  have h := (Nat.div_le_self a.toNat (2 ^ n)).trans_lt a.isLt
  rw [BitVec.toNat_ushiftRight, Nat.shiftRight_eq_div_pow, BitVec.toNat_ofNat, Nat.mod_eq_of_lt h]

theorem word_sra (a : W64) (n : Nat) : a.sshiftRight n = BitVec.ofInt 64 (a.toInt / 2 ^ n) := by
  rw [BitVec.sshiftRight_eq, Int.shiftRight_eq_div_pow, Nat.cast_pow, Nat.cast_ofNat]

theorem word_slt (a b : W64) : w1 (a.slt b) = if a.toInt < b.toInt then 1 else 0 := by simp [w1, BitVec.slt_eq_decide]

theorem word_sltu (a b : W64) : w1 (a.ult b) = if a.toNat < b.toNat then 1 else 0 := by simp [w1, BitVec.ult_eq_decide]

theorem word_min (a b : W64) : (if b.slt a then b else a) = BitVec.ofInt 64 (min a.toInt b.toInt) := by
  rw [BitVec.slt_eq_decide]
  rcases lt_or_ge b.toInt a.toInt with h | h
  · rw [min_eq_right h.le, BitVec.ofInt_toInt]; simp [h]
  · rw [min_eq_left h, BitVec.ofInt_toInt]; simp [not_lt.mpr h]

theorem word_max (a b : W64) : (if a.slt b then b else a) = BitVec.ofInt 64 (max a.toInt b.toInt) := by
  rw [BitVec.slt_eq_decide]
  rcases lt_or_ge a.toInt b.toInt with h | h
  · rw [max_eq_right h.le, BitVec.ofInt_toInt]; simp [h]
  · rw [max_eq_left h, BitVec.ofInt_toInt]; simp [not_lt.mpr h]

theorem word_minu (a b : W64) : (if b.ult a then b else a) = BitVec.ofNat 64 (min a.toNat b.toNat) := by
  rw [BitVec.ult_eq_decide]
  rcases lt_or_ge b.toNat a.toNat with h | h
  · rw [min_eq_right h.le]; simp [h]
  · rw [min_eq_left h]; simp [not_lt.mpr h]

theorem word_maxu (a b : W64) : (if a.ult b then b else a) = BitVec.ofNat 64 (max a.toNat b.toNat) := by
  rw [BitVec.ult_eq_decide]
  rcases lt_or_ge a.toNat b.toNat with h | h
  · rw [max_eq_right h.le]; simp [h]
  · rw [max_eq_left h]; simp [not_lt.mpr h]

theorem divS_eq (a b : W64) : divS a b = if b = 0 then BitVec.ofInt 64 (-1) else BitVec.ofInt 64 (a.toInt.tdiv b.toInt) := rfl

theorem divU_eq (a b : W64) : divU a b = if b = 0 then BitVec.ofInt 64 (-1) else BitVec.ofNat 64 (a.toNat / b.toNat) := by
  unfold divU
  split
  · rfl
  · have h := (Nat.div_le_self a.toNat b.toNat).trans_lt a.isLt
    exact BitVec.eq_of_toNat_eq (by rw [BitVec.toNat_udiv, BitVec.toNat_ofNat, Nat.mod_eq_of_lt h])

theorem word_rem (a b : W64) : (if b = 0 then a else a - divS a b * b) = if b = 0 then a else BitVec.ofInt 64 (a.toInt.tmod b.toInt) := by
  split
  · rfl
  next hb =>
  rw [divS_eq, if_neg hb, Int.tmod_def, Int.sub_eq_add_neg, BitVec.ofInt_add, BitVec.ofInt_neg, BitVec.ofInt_mul, BitVec.ofInt_toInt,
    BitVec.ofInt_toInt, BitVec.mul_comm, ← BitVec.sub_eq_add_neg]

theorem word_remu (a b : W64) : (if b = 0 then a else a - divU a b * b) = if b = 0 then a else BitVec.ofNat 64 (a.toNat % b.toNat) := by
  split
  · rfl
  next hb =>
  have hq : BitVec.ofNat 64 (a.toNat / b.toNat) * b = BitVec.ofNat 64 (b.toNat * (a.toNat / b.toNat)) := by
    rw [BitVec.ofNat_mul, BitVec.ofNat_toNat, BitVec.setWidth_eq, BitVec.mul_comm]
  have ha : BitVec.ofNat 64 (a.toNat % b.toNat) + BitVec.ofNat 64 (b.toNat * (a.toNat / b.toNat)) = a := by
    rw [← BitVec.ofNat_add, Nat.mod_add_div, BitVec.ofNat_toNat, BitVec.setWidth_eq]
  rw [divU_eq, if_neg hb, hq, sub_eq_iff_eq_add, ha]

theorem word_popcount (a : W64) : BitVec.ofNat 64 (popcount 64 a.toNat) = BitVec.ofNat 64 ((List.range 64).countP fun i => a.getLsbD i) := by
  rw [popcount_eq_countP]
  exact congrArg _ (List.countP_congr fun i _ => by rw [bitAt_eq_testBit, BitVec.getLsbD])

/-- CLZ: the bits from the top down to the highest one. -/
theorem clz64_spec (v : W64) : clz64 v.toNat ≤ 64 ∧ (∀ i, 64 - clz64 v.toNat ≤ i → v.getLsbD i = false)
    ∧ (clz64 v.toNat < 64 → v.getLsbD (63 - clz64 v.toNat) = true) := by
  unfold clz64
  split
  next h => simp [BitVec.eq_of_toNat_eq (h.trans (BitVec.toNat_zero (w := 64)).symm)]
  next h =>
    have hlog : Nat.log2 v.toNat < 64 := (Nat.log2_lt h).mpr v.isLt
    refine ⟨by omega, fun i hi => Nat.testBit_eq_false_of_lt (Nat.lt_log2_self.trans_le (Nat.pow_le_pow_right two_pos (by omega))), fun _ => ?_⟩
    rw [show 63 - (63 - Nat.log2 v.toNat) = Nat.log2 v.toNat by omega]
    exact Nat.testBit_log2 h

/-- CTZ: the bits from the bottom up to the lowest one. -/
theorem ctz64_spec (v : W64) : ctz64 v.toNat ≤ 64 ∧ (∀ i, i < ctz64 v.toNat → v.getLsbD i = false)
    ∧ (ctz64 v.toNat < 64 → v.getLsbD (ctz64 v.toNat) = true) := by
  have hbit (i : Nat) : bitAt v.toNat i = v.getLsbD i := bitAt_eq_testBit _ _
  unfold ctz64
  cases h : (List.range 64).find? (bitAt v.toNat) with
  | none =>
    rw [List.find?_range_eq_none] at h
    simpa [hbit] using h
  | some n =>
    obtain ⟨hn, hmem, hlow⟩ := List.find?_range_eq_some.mp h
    rw [hbit] at hn
    simp only [hbit, Bool.not_eq_eq_eq_not, Bool.not_true] at hlow
    exact ⟨(List.mem_range.mp hmem).le, hlow, fun _ => hn⟩

/-! ### The instructions -/

theorem binary_of {c : Thr → F1 → Instr} {op fn : Nat} {g g' : W64 → W64 → W64}
    (h : ∀ th f s, exec (c th f) s = s.alu th op fn f g') (hg : ∀ a b, g' a b = g a b) : Binary c op fn g := by
  intro s th f t x h0 _ hi hL _
  rw [h, alu_done g' h0 hi hL, hg]

theorem unary_of {c : Thr → F1 → Instr} {op fn : Nat} {g g' : W64 → W64}
    (h : ∀ th f s, exec (c th f) s = s.alu1 th op fn f g') (hg : ∀ a, g' a = g a) : Unary c op fn g := by
  intro s th f t x h0 _ hi hL _
  rw [h, alu1_done g' h0 hi hL, hg]

theorem immediate_of {c : Thr → F2 → Instr} {fn : Nat} {legal : F2 → Bool} {g : W64 → Int → W64} (g' : W64 → W64 → W64)
    (h : ∀ th f s, exec (c th f) s = s.aluImm th 0x20 fn f (legal f) g')
    (hg : ∀ a f, legal f = true → g' a (f.imm.signExtend 64) = g a f.imm.toInt) : Immediate c fn legal g := by
  intro s th f t x h0 hl hi hL
  rw [h, aluImm_done g' h0 hl hi hL, hg _ f hl]

/-- One scalar source and a result that is `g` of it. -/
theorem alu1_becomes {s : State} {th : Thr} {op fn : Nat} {f : F1} {t : Thread} {x : Ctx} (g : W64 → W64) (h0 : f.rsv = 0)
    (h : Issues s th (encF1 op fn f) t x) (hL : Landed s th [sDst f.rd.toNat, .s f.ra.toNat]) :
    s.alu1 th op fn f g = becomes s th (t.setS f.rd.toNat (g (t.getS f.ra.toNat)) (t.poisoned (.s f.ra.toNat))).step := by
  rw [alu1_done g h0 h hL, List.any_cons, List.any_nil, Bool.or_false]

theorem scalarF1_of {c : Thr → F1 → Instr} {op fn : Nat} {legal : F1 → Bool} {srcs consumed : F1 → List Dst} {g g' : F1 → Thread → W64}
    (h : ∀ th f s, exec (c th f) s = s.sOp th op fn f (legal f) (srcs f) (consumed f) (g' f))
    (hg : ∀ f t, legal f = true → g' f t = g f t) : ScalarF1 c op fn legal srcs consumed g := by
  intro s th f t x h0 hl hi hL hC
  rw [h, sOp_done (g' f) h0 hl hi hL hC, hg f t hl]

/-- PTEST: the poison of its source, itself clean. -/
theorem ptest_becomes {s : State} {th : Thr} {f : F1} {t : Thread} {x : Ctx} (r : Dst) (h0 : f.rsv = 0)
    (hl : (f.et == 0 || (f.et == 1 && decide (f.ra.toNat < 32))) = true) (hr : (if f.et == 0 then Dst.s f.ra.toNat else .v f.ra.toNat) = r)
    (h : Issues s th (encF1 0x01 18 f) t x) (hL : Landed s th [sDst f.rd.toNat, r]) :
    exec (.ptest th f) s = becomes s th (t.setS f.rd.toNat (if t.poisoned r then 1 else 0) false).step := by
  change execPtest th f s = _
  unfold execPtest
  rw [f1_legal _ _ _ _ _ _ _ h0 hl, hr]
  exact issue_done h _ _ (regOp_of hL (by simp [Clean]))

/-- Settles O1: the operation of each instruction agrees with the stated one on all words. -/
theorem integerInstructionResults : Obligations.IntegerInstructionResults := by
  refine ⟨binary_of ?_ word_add, binary_of ?_ word_sub, binary_of ?_ fun _ _ => rfl, binary_of ?_ fun _ _ => rfl, binary_of ?_ fun _ _ => rfl,
    binary_of ?_ fun a _ => word_shl a _, binary_of ?_ fun a _ => word_shr a _, binary_of ?_ fun a _ => word_sra a _,
    binary_of ?_ word_slt, binary_of ?_ word_sltu, binary_of ?_ word_min, binary_of ?_ word_max, binary_of ?_ word_minu,
    binary_of ?_ word_maxu, ?sel, ?popc, ?clz, ?ctz, ?ptestS, ?ptestV, binary_of ?_ word_mul, binary_of ?_ fun _ _ => rfl,
    binary_of ?_ fun _ _ => rfl, binary_of ?_ divS_eq, binary_of ?_ divU_eq, binary_of ?_ word_rem, binary_of ?_ word_remu⟩
  case sel => exact scalarF1_of (fun _ _ _ => by dsimp only [exec]; exact rfl) fun f t _ => (ite_not ..).symm
  case popc => exact unary_of (fun _ _ _ => by dsimp only [exec]; exact rfl) word_popcount
  case clz =>
    intro s th f t x h0 hi hL
    obtain ⟨hle, hzero, hone⟩ := clz64_spec (t.getS f.ra.toNat)
    exact ⟨_, hle, hzero, hone, alu1_becomes (fun a => BitVec.ofNat 64 (clz64 a.toNat)) h0 hi hL⟩
  case ctz =>
    intro s th f t x h0 hi hL
    obtain ⟨hle, hzero, hone⟩ := ctz64_spec (t.getS f.ra.toNat)
    exact ⟨_, hle, hzero, hone, alu1_becomes (fun a => BitVec.ofNat 64 (ctz64 a.toNat)) h0 hi hL⟩
  case ptestS => exact fun s th f t x h0 he hi hL => ptest_becomes _ h0 (by simp [he]) (by simp [he]) hi hL
  case ptestV => exact fun s th f t x h0 he ha hi hL => ptest_becomes _ h0 (by simp [he, ha]) (by simp [he]) hi hL
  all_goals exact fun _ _ _ => by dsimp only [exec]; exact rfl

/-! ### The immediate forms -/

theorem f5_done {s : State} {th : Thr} {fn : Nat} {f : F5} {legal : Bool} {srcs : List Dst} {t : Thread} {x : Ctx} (g : Thread → W64)
    (hl : legal = true) (h : Issues s th (encF5 0x70 fn f) t x) (hL : Landed s th (sDst f.rd.toNat :: srcs)) :
    s.f5 th fn f legal srcs g = becomes s th (t.setS f.rd.toNat (g t) (srcs.any t.poisoned)).step := by
  unfold State.f5
  exact issue_done h _ _ (by simp only [hl, Bool.not_true, Bool.false_eq_true, if_false]; exact regOp_of hL (by simp [Clean]))

/-- A shift count below 64 reads the same signed and unsigned. -/
theorem shiftCount {i : BitVec 32} (h : i.toNat < 64) : (i.signExtend 64).toNat % 64 = i.toInt.toNat := by
  have hi : i.toInt = i.toNat := by rw [BitVec.toInt_eq_toNat_cond]; simp; omega
  have h64 : (i.signExtend 64).toNat = i.toNat := by
    rw [BitVec.signExtend, BitVec.toNat_ofInt, hi]; omega
  rw [h64, hi, Int.toNat_natCast, Nat.mod_eq_of_lt h]

/-- Settles O2: the operation of each instruction agrees with the stated one on all words and legal immediates. -/
theorem immediateInstructionResults : Obligations.ImmediateInstructionResults := by
  refine ⟨immediate_of (· + ·) ?_ fun a f _ => ?addi, immediate_of (· &&& ·) ?_ fun _ _ _ => rfl, immediate_of (· ||| ·) ?_ fun _ _ _ => rfl,
    immediate_of (· ^^^ ·) ?_ fun _ _ _ => rfl, immediate_of (fun a i => a <<< (i.toNat % 64)) ?_ fun a f hf => ?shli,
    immediate_of (fun a i => a >>> (i.toNat % 64)) ?_ fun a f hf => ?shri,
    immediate_of (fun a i => a.sshiftRight (i.toNat % 64)) ?_ fun a f hf => ?srai,
    immediate_of (fun a i => w1 (a.slt i)) ?_ fun a f _ => ?slti, immediate_of (fun a i => w1 (a.ult i)) ?_ fun a f _ => word_sltu _ _, ?li, ?liu⟩
  case addi =>
    change a + BitVec.ofInt 64 f.imm.toInt = _
    rw [BitVec.ofInt_add, BitVec.ofInt_toInt]
  case shli => exact (word_shl _ _).trans (by rw [shiftCount (of_decide_eq_true hf)])
  case shri => exact (word_shr _ _).trans (by rw [shiftCount (of_decide_eq_true hf)])
  case srai => exact (word_sra _ _).trans (by rw [shiftCount (of_decide_eq_true hf)])
  case slti => exact (word_slt _ _).trans (by rw [BitVec.toInt_signExtend_of_le (by decide)])
  case li => exact fun s th f t x hi hL => f5_done (fun _ => f.imm.signExtend 64) rfl hi hL
  case liu =>
    intro s th f t x hf hi hL
    have hval : (t.getS f.rd.toNat).toNat % 2 ^ 48 + put f.imm.toNat 48 16 = f.imm.toNat * 2 ^ 48 + (t.getS f.rd.toNat).toNat % 2 ^ 48 := by
      rw [put, Nat.mod_eq_of_lt (b := 2 ^ 16) hf, Nat.shiftLeft_eq, Nat.add_comm]
    have hpoison : t.poisoned (.s f.rd.toNat) = [Dst.s f.rd.toNat].any t.poisoned := by simp
    rw [← hval, hpoison]
    exact f5_done (fun t => BitVec.ofNat 64 ((t.getS f.rd.toNat).toNat % 2 ^ 48 + put f.imm.toNat 48 16)) (by simpa using hf) hi hL
  all_goals exact fun _ _ _ => by dsimp only [exec]; exact rfl

end Sys2Proof.Machine

/-! ## Floating-point and mask instructions (06 Tables 6.8 and 6.9) -/

namespace Sys2Proof.Machine
open Sys2Proof.Claims

/-- An instruction of `State.fOp` works in F32 or F64, on the low bits of its sources. -/
theorem floating_of {c : Thr → F1 → Instr} {fn : Nat} {g g' : Fmt → Nat → Nat → Nat} (h : ∀ th f s, exec (c th f) s = s.fOp th fn f g')
    (hg : ∀ m a b, g' m a b = g m a b) : Floating c fn g := by
  refine scalarF1_of (fun th f s => (h th f s).trans rfl) fun f t hl => ?_
  simp only [Bool.or_eq_true, beq_iff_eq] at hl
  rcases hl with he | he
  · simp [he, etFmt, etBits, hg]
  · simp [he, etFmt, etBits, hg, Nat.mod_eq_of_lt (BitVec.isLt _)]

theorem b2n_eq_ite (b : Bool) : b2n b = if b then 1 else 0 := rfl

/-- Settles O3: each instruction's function of format and bits is the stated one. -/
theorem floatingInstructionResults : Obligations.FloatingInstructionResults := by
  refine ⟨floating_of ?_ fun _ _ _ => rfl, floating_of ?_ fun _ _ _ => rfl, floating_of ?_ fun _ _ _ => rfl, floating_of ?_ fun _ _ _ => rfl,
    ?sqrt, floating_of ?_ fun _ _ _ => rfl, floating_of ?_ fun _ _ _ => rfl, floating_of ?_ fun m a b => b2n_eq_ite (fEq m a b),
    floating_of ?_ fun m a b => b2n_eq_ite (fLt m a b), floating_of ?_ fun m a b => b2n_eq_ite (fLt m a b || fEq m a b), ?fcvt⟩
  case sqrt =>
    refine scalarF1_of (fun _ _ _ => by dsimp only [exec]; exact rfl) fun f t hl => ?_
    simp only [Bool.or_eq_true, beq_iff_eq] at hl
    rcases hl with he | he
    · simp [he, etFmt, etBits, show Fmt.f32.width = 32 from rfl, fSqrt]
    · simp [he, etFmt, etBits, show Fmt.f64.width = 64 from rfl, fSqrt]
  case fcvt => exact scalarF1_of (fun _ _ _ => by dsimp only [exec]; exact rfl) fun _ _ _ => rfl
  all_goals exact fun _ _ _ => by dsimp only [exec]; exact rfl

/-! ### Masks -/

theorem Thread.getK_lt (t : Thread) (n : Nat) : t.getK n < 2 ^ 64 := by
  unfold Thread.getK
  split
  · decide
  · exact BitVec.isLt _

/-- An operation over mask registers that agrees on words with the stated one on numbers. -/
theorem maskOp_of {c : Thr → F1 → Instr} {fn : Nat} {two : Bool} (g' : W64 → W64 → W64) {g : Nat → Nat → Nat}
    (h : ∀ th f s, exec (c th f) s = s.kOp th fn f two g')
    (hg : ∀ a b, a < 2 ^ 64 → b < 2 ^ 64 → (g' (BitVec.ofNat 64 a) (BitVec.ofNat 64 b)).toNat = g a b) : MaskOp c fn two g := by
  intro s th f t x h0 hd ha hb hi
  rw [h, ← hg _ _ (t.getK_lt _) (t.getK_lt _)]
  unfold State.kOp
  rw [f1_legal _ _ _ _ _ _ _ h0 (by cases two <;> simp_all)]
  exact issue_done hi _ _ (regOp_of (by simp [Landed]) (by simp [Clean]))

/-- Settles O4: the operation of each instruction agrees with the stated one on all masks. -/
theorem maskInstructionResults : Obligations.MaskInstructionResults := by
  refine ⟨maskOp_of (· &&& ·) ?_ fun a b ha hb => ?and, maskOp_of (· ||| ·) ?_ fun a b ha hb => ?or,
    maskOp_of (· ^^^ ·) ?_ fun a b ha hb => ?xor, maskOp_of (fun a _ => ~~~a) ?_ fun a _ ha _ => ?not,
    ?s2k, ?k2s, ?kpopc, fun t v => ⟨rfl, rfl⟩⟩
  case s2k =>
    intro s th f t x h0 hd hi hL hC
    dsimp only [exec, execKmovS2k]
    rw [f1_legal _ _ _ _ _ _ _ h0 (decide_eq_true hd)]
    exact issue_done hi _ _ (regOp_of hL hC)
  case k2s => exact scalarF1_of (fun _ _ _ => by dsimp only [exec]; exact rfl) fun _ _ _ => rfl
  case kpopc => exact scalarF1_of (fun _ _ _ => by dsimp only [exec]; exact rfl) fun f t _ => by rw [popcount_eq_countP]
  case and => rw [BitVec.toNat_and, BitVec.toNat_ofNat, BitVec.toNat_ofNat, ← Nat.and_mod_two_pow]
  case or => rw [BitVec.toNat_or, BitVec.toNat_ofNat, BitVec.toNat_ofNat, ← Nat.or_mod_two_pow]
  case xor => rw [BitVec.toNat_xor, BitVec.toNat_ofNat, BitVec.toNat_ofNat, ← Nat.xor_mod_two_pow]
  case not => rw [BitVec.toNat_not, BitVec.toNat_ofNat]
  all_goals exact fun _ _ _ => by dsimp only [exec]; exact rfl

end Sys2Proof.Machine

/-! ## Vector instructions (06 R170, Tables 6.8 and 6.9)

A register is the sum of its lanes, each put at its place; the lanes do not overlap, so each reads back. -/

namespace Sys2Proof.Machine
open Sys2Proof.Claims

/-! ### Fields placed side by side -/

theorem sumN_append (l m : List Nat) : sumN (l ++ m) = sumN l + sumN m := by
  have h (m : List Nat) (a : Nat) : m.foldl (· + ·) a = a + m.foldl (· + ·) 0 := by
    induction m generalizing a with
    | nil => simp
    | cons b m ih => rw [List.foldl_cons, ih, List.foldl_cons, ih (0 + b)]; omega
  rw [sumN, List.foldl_append, h]
  rfl

/-- The fields below the n-th place. -/
def sideBySide (w n : Nat) (g : Nat → Nat) : Nat := sumN ((List.range n).map fun i => put (g i) (i * w) w)

theorem sideBySide_succ (w n : Nat) (g : Nat → Nat) :
    sideBySide w (n + 1) g = sideBySide w n g + 2 ^ (n * w) * (g n % 2 ^ w) := by
  rw [sideBySide, List.range_succ, List.map_append, sumN_append, ← sideBySide]
  simp [sumN, put, Nat.shiftLeft_eq, Nat.mul_comm]

theorem sideBySide_lt (w n : Nat) (g : Nat → Nat) : sideBySide w n g < 2 ^ (n * w) := by
  induction n with
  | zero => simp [sideBySide, sumN]
  | succ n ih =>
    have hg : g n % 2 ^ w + 1 ≤ 2 ^ w := Nat.mod_lt _ (Nat.two_pow_pos w)
    rw [sideBySide_succ, Nat.succ_mul, Nat.pow_add]
    nlinarith [Nat.mul_le_mul_left (2 ^ (n * w)) hg]

/-- Each field reads back. -/
theorem fld_sideBySide (w n : Nat) (g : Nat → Nat) {i : Nat} (hi : i < n) : fld (sideBySide w n g) (i * w) w = g i % 2 ^ w := by
  induction n with
  | zero => omega
  | succ n ih =>
    rw [sideBySide_succ, fld, Nat.shiftRight_eq_div_pow]
    rcases Nat.lt_succ_iff_lt_or_eq.mp hi with h | rfl
    · have hsplit : 2 ^ (n * w) = 2 ^ (i * w) * (2 ^ w * 2 ^ ((n - i - 1) * w)) := by
        rw [← Nat.pow_add, ← Nat.pow_add]; congr 1
        obtain ⟨k, rfl⟩ := Nat.exists_eq_add_of_lt h
        rw [show i + k + 1 - i - 1 = k by omega]; ring
      rw [hsplit, Nat.mul_assoc, Nat.add_mul_div_left _ _ (Nat.two_pow_pos _), Nat.mul_assoc, Nat.add_mul_mod_self_left,
        ← Nat.shiftRight_eq_div_pow]
      exact ih h
    · rw [Nat.add_mul_div_left _ _ (Nat.two_pow_pos _), Nat.div_eq_of_lt (sideBySide_lt w i g), Nat.zero_add, Nat.mod_mod]

theorem fld_packLanes {w n : Nat} (g : Nat → Nat) (hw : n * w = 512) {i : Nat} (hi : i < n) : fld (packLanes w n g).toNat (i * w) w = g i % 2 ^ w := by
  rw [packLanes, ← sideBySide, BitVec.toNat_ofNat, Nat.mod_eq_of_lt (hw ▸ sideBySide_lt w n g), fld_sideBySide w n g hi]

/-- The width of an element type divides the register. -/
theorem etBits_cases (et : Nat) : etBits et = 8 ∨ etBits et = 16 ∨ etBits et = 32 ∨ etBits et = 64 := by
  unfold etBits
  split <;> simp

theorem etLanes_mul_etBits (et : Nat) : etLanes et * etBits et = 512 := by
  unfold etLanes
  rcases etBits_cases et with h | h | h | h <;> simp [h]

/-! ### Lane by lane -/

/-- An instruction of `State.vOp` over the lanes of an element type. -/
theorem lanes_of {c : Thr → F1 → Instr} {op fn : Nat} {legal legal' : F1 → Bool} {srcs consumed : F1 → List Dst} {dt : F1 → Nat}
    {g g' : F1 → Thread → Nat → Nat}
    (h : ∀ th f s, exec (c th f) s = s.vOp th op fn f (legal' f) (srcs f) (consumed f) (etBits (dt f)) (etLanes (dt f)) (g' f))
    (hl : ∀ f, legal f = true → legal' f = true)
    (hg : ∀ f t i, legal f = true → i < etLanes (dt f) → g' f t i % 2 ^ etBits (dt f) = g f t i % 2 ^ etBits (dt f)) :
    Lanes c op fn legal srcs consumed dt g := by
  intro s th f t x h0 hlegal hd hi hL hC
  refine ⟨packLanes (etBits (dt f)) (etLanes (dt f)) fun i => if bitAt (t.getK f.k.toNat) i then g' f t i
    else if f.mz == 0 then lane (etBits (dt f)) (t.getV f.rd.toNat) i else 0, ?_, fun i hlt => ?_⟩
  · rw [h, vOp_done (g' f) h0 (hl f hlegal) hd hi hL hC, ← etLanes]
    congr 3
    split
    next hm => rw [hm, List.any_cons, Bool.true_and, Bool.or_comm]
    next hm => rw [Bool.eq_false_iff.mpr hm, Bool.false_and, Bool.or_false]
  · rw [fld_packLanes _ (etLanes_mul_etBits _) hlt]
    split
    · exact hg f t i hlegal hlt
    · have hmz : f.mz = 0 ∨ f.mz = 1 := by have := f.mz.isLt; bv_omega
      rcases hmz with hz | hz <;> simp [hz, lane, fld]

/-- The same over two vectors and the element type of the instruction. -/
theorem laneWise_of {c : Thr → F1 → Instr} {fn : Nat} {ets : Nat → Bool} {g g' : Nat → Nat → Nat → Nat}
    (h : ∀ th f s, exec (c th f) s = s.vAlu th fn f ets g')
    (hg : ∀ et a b, ets et = true → g' et a b % 2 ^ etBits et = g et a b % 2 ^ etBits et) : LaneWise c fn ets g :=
  lanes_of (fun th f s => (h th f s).trans rfl) (fun _ hl => hl) fun f t i hl _ => hg _ _ _ (by simp_all)

theorem ofSigned_eq (w : Nat) (i : Int) : (ofSigned w i : Int) = i % 2 ^ w := by
  rw [ofSigned, BitVec.toNat_ofInt, Int.toNat_of_nonneg (Int.emod_nonneg _ (by positivity))]; simp

/-- A lane as a number of its type is the lane modulo its width. -/
theorem etVal_modEq (et v : Nat) : etVal et v ≡ v [ZMOD 2 ^ etBits et] := by
  unfold etVal
  split
  · rw [toSigned, BitVec.toInt_eq_toNat_bmod, BitVec.toNat_ofNat]
    exact (Int.bmod_emod ..).trans (by simp)
  · push_cast
    exact Int.mod_modEq ..

/-- A result over the integers is known by its residue. -/
theorem ofSigned_mod_eq {w : Nat} {i : Int} {n : Nat} (h : i ≡ n [ZMOD 2 ^ w]) : ofSigned w i % 2 ^ w = n % 2 ^ w := by
  have : ((ofSigned w i % 2 ^ w : Nat) : Int) = (n % 2 ^ w : Nat) := by
    push_cast
    rw [ofSigned_eq, Int.emod_emod, h.eq]
  exact_mod_cast this

/-- Integer lanes take the operation modulo their width; floating lanes that of their format. -/
theorem laneArith_mod (op : Nat) (gi : Int → Int → Int) (gf : Fmt → Nat → Nat → Nat) (et a b r : Nat)
    (h : gi (etVal et a) (etVal et b) ≡ r [ZMOD 2 ^ etBits et]) : laneArith op gi gf et a b % 2 ^ etBits et
      = (if et ≤ 7 then r else fResult (etFmt et) op a b (gf (etFmt et) a b)) % 2 ^ etBits et := by
  unfold laneArith etInt
  by_cases he : et ≤ 7
  · simpa [he] using ofSigned_mod_eq h
  · simp [he]

theorem laneMinMax_eq (mx : Bool) (et a b : Nat) : laneMinMax mx et a b = if et ≤ 7 then
    ofSigned (etBits et) (if mx then max (etVal et a) (etVal et b) else min (etVal et a) (etVal et b)) else fMinMax (etFmt et) mx a b := by
  simp [laneMinMax, etInt]

theorem sum_range_eq_foldl (n : Nat) (g : Nat → Int) : (List.range n).foldl (fun a b => a + g b) 0 = ((List.range n).map g).sum := by
  rw [← List.foldl_map, List.sum_eq_foldl]

theorem laneAdd_mod (et a b : Nat) : laneArith 10 (· + ·) fAdd et a b % 2 ^ etBits et
    = (if et ≤ 7 then a + b else fResult (etFmt et) 10 a b (fAdd (etFmt et) a b)) % 2 ^ etBits et :=
  laneArith_mod _ _ _ _ _ _ _ (((etVal_modEq et a).add (etVal_modEq et b)).trans (by push_cast; rfl))

theorem laneSub_mod (et a b : Nat) : laneArith 11 (· - ·) fSub et a b % 2 ^ etBits et
    = (if et ≤ 7 then ofSigned (etBits et) ((a : Int) - b) else fResult (etFmt et) 11 a b (fSub (etFmt et) a b)) % 2 ^ etBits et :=
  laneArith_mod _ _ _ _ _ _ _ (((etVal_modEq et a).sub (etVal_modEq et b)).trans (by rw [ofSigned_eq]; exact (Int.mod_modEq ..).symm))

theorem laneMul_mod (et a b : Nat) : laneArith 12 (· * ·) fMul et a b % 2 ^ etBits et
    = (if et ≤ 7 then a * b else fResult (etFmt et) 12 a b (fMul (etFmt et) a b)) % 2 ^ etBits et :=
  laneArith_mod _ _ _ _ _ _ _ (((etVal_modEq et a).mul (etVal_modEq et b)).trans (by push_cast; rfl))

theorem laneSra_eq (et a b : Nat) : ofSigned (etBits et) (toSigned (etBits et) a >>> (b % etBits et))
    = ofSigned (etBits et) (toSigned (etBits et) a / 2 ^ (b % etBits et)) := by
  rw [Int.shiftRight_eq_div_pow, Nat.cast_pow, Nat.cast_ofNat]

/-- Settles O5: lane by lane the operation of each instruction agrees with the stated one modulo the width. -/
theorem vectorArithmeticResults : Obligations.VectorArithmeticResults := by
  refine ⟨laneWise_of ?_ fun et a b _ => laneAdd_mod et a b, laneWise_of ?_ fun et a b _ => laneSub_mod et a b,
    laneWise_of ?_ fun et a b _ => laneMul_mod et a b, laneWise_of ?_ fun et a b _ => congrArg (· % _) (laneMinMax_eq false et a b),
    laneWise_of ?_ fun et a b _ => congrArg (· % _) (laneMinMax_eq true et a b), laneWise_of ?_ fun _ _ _ _ => rfl,
    laneWise_of ?_ fun _ _ _ _ => rfl, laneWise_of ?_ fun _ _ _ _ => rfl,
    laneWise_of ?_ fun et a b _ => congrArg (· % _) (Nat.shiftLeft_eq a _), laneWise_of ?_ fun et a b _ => congrArg (· % _) (Nat.shiftRight_eq_div_pow a _),
    laneWise_of ?_ fun et a b _ => congrArg (· % _) (laneSra_eq et a b), ?popc, ?dotp⟩
  case popc =>
    exact lanes_of (fun _ _ _ => by dsimp only [exec]; exact rfl) (fun _ hl => hl) fun f t i _ _ => by rw [popcount_eq_countP]
  case dotp =>
    exact lanes_of (fun _ _ _ => by dsimp only [exec]; exact rfl) (fun _ hl => hl) fun f t i _ _ => by rw [sum_range_eq_foldl]
  all_goals exact fun _ _ _ => by dsimp only [exec]; exact rfl

end Sys2Proof.Machine

/-! ## Vector compares, moves, conversions and reductions (06 Tables 6.8 and 6.9) -/

namespace Sys2Proof.Machine
open Sys2Proof.Claims

/-! ### Compares -/

theorem bitAt_sideBySide (n : Nat) (g : Nat → Bool) (i : Nat) :
    bitAt (sideBySide 1 n fun j => b2n (g j)) i = (decide (i < n) && g i) := by
  by_cases hi : i < n
  · have h := fld_sideBySide 1 n (fun j => b2n (g j)) hi
    rw [Nat.mul_one] at h
    rw [bitAt, h]
    cases g i <;> simp [hi, b2n]
  · have hlt : sideBySide 1 n (fun j => b2n (g j)) < 2 ^ i :=
      (sideBySide_lt 1 n _).trans_le (Nat.pow_le_pow_right two_pos (by omega))
    rw [bitAt_eq_testBit, Nat.testBit_eq_false_of_lt hlt]
    simp [hi]

theorem compares_of {c : Thr → F1 → Instr} {fn : Nat} {gi : Int → Int → Bool} {gf gf' : Fmt → Nat → Nat → Bool}
    (h : ∀ th f s, exec (c th f) s = s.vCmp th fn f gi gf') (hg : ∀ m a b, gf' m a b = gf m a b) : Compares c fn gi gf := by
  intro s th f t x h0 het hd ha hb hi hL
  refine ⟨_, ?_, fun i => bitAt_sideBySide _ _ i |>.trans (Bool.and_assoc ..).symm⟩
  rw [h]
  unfold State.vCmp
  rw [f1_legal _ _ _ _ _ _ _ h0 (by simp [anyEt, *])]
  refine (issue_done hi _ _ (regOp_of hL (by simp [Clean]))).trans ?_
  simp only [becomes, sideBySide, Nat.mul_one, etInt, decide_eq_true_eq, hg]

/-! ### Trees -/

theorem sum_zipWith_add {l m : List Int} (h : l.length = m.length) : (List.zipWith (· + ·) l m).sum = l.sum + m.sum := by
  induction l generalizing m with
  | nil => rw [List.length_eq_zero_iff.mp h.symm]; rfl
  | cons a l ih =>
    cases m with
    | nil => simp at h
    | cons b m => rw [List.zipWith_cons_cons, List.sum_cons, ih (by simpa using h), List.sum_cons, List.sum_cons]; ring

/-- A tree over a power of two of values combines the halves. -/
theorem treeBy_halves {α : Type} (g : α → α → α) (n k : Nat) (l : List α) (hl : l.length = 2 ^ (k + 1)) :
    treeBy g (n + 1) l = treeBy g n (List.zipWith g (l.take (2 ^ k)) (l.drop (2 ^ k))) ∧ (l.take (2 ^ k)).length = 2 ^ k
      ∧ (l.drop (2 ^ k)).length = 2 ^ k := by
  have hhalf : l.length / 2 = 2 ^ k := by rw [hl, Nat.pow_succ, Nat.mul_div_cancel _ two_pos]
  refine ⟨by rw [treeBy, hhalf, if_neg (Nat.two_pow_pos k).ne'], ?_, ?_⟩
  · simp [hl, Nat.pow_succ]
  · simp only [List.length_drop, hl, Nat.pow_succ]; omega

theorem treeBy_singleton {α : Type} (g : α → α → α) (n : Nat) (a : α) : treeBy g n [a] = [a] := by
  cases n <;> simp [treeBy]

/-- A tree of sums is the sum. -/
theorem treeBy_add {n k : Nat} {l : List Int} (hl : l.length = 2 ^ k) (hk : k ≤ n) : treeBy (· + ·) n l = [l.sum] := by
  induction k generalizing n l with
  | zero =>
    obtain ⟨a, rfl⟩ := List.length_eq_one_iff.mp hl
    rw [treeBy_singleton, List.sum_singleton]
  | succ k ih =>
    obtain ⟨n, rfl⟩ := Nat.exists_eq_succ_of_ne_zero (by omega : n ≠ 0)
    obtain ⟨htree, hleft, hright⟩ := treeBy_halves (· + ·) n k l hl
    rw [htree, ih (by simp only [List.length_zipWith, hleft, hright, min_self]) (by omega), sum_zipWith_add (hleft.trans hright.symm),
      List.sum_take_add_sum_drop]

/-- `g` selects one of two values, one that `R` puts before both. -/
structure Selects {α : Type} (g : α → α → α) (R : α → α → Prop) : Prop where
  sel : ∀ a b, g a b = a ∨ g a b = b
  left : ∀ a b, R (g a b) a
  right : ∀ a b, R (g a b) b
  trans : ∀ a b c, R a b → R b c → R a c
  refl : ∀ a, R a a

theorem Selects.mem_of_mem_zipWith {α : Type} {g : α → α → α} {R : α → α → Prop} (hg : Selects g R) {l m : List α} {x : α}
    (hx : x ∈ List.zipWith g l m) : x ∈ l ∨ x ∈ m := by
  obtain ⟨i, hi, rfl⟩ := List.getElem_of_mem hx
  rw [List.getElem_zipWith]
  obtain ⟨hl, hm⟩ := lt_min_iff.mp (List.length_zipWith ▸ hi)
  rcases hg.sel l[i] m[i] with h | h <;> rw [h]
  · exact .inl (List.getElem_mem _)
  · exact .inr (List.getElem_mem _)

theorem Selects.exists_zipWith_left {α : Type} {g : α → α → α} {R : α → α → Prop} (hg : Selects g R) {l m : List α} (h : l.length = m.length)
    {y : α} (hy : y ∈ l) : ∃ z ∈ List.zipWith g l m, R z y := by
  obtain ⟨i, hi, rfl⟩ := List.getElem_of_mem hy
  have hz : i < (List.zipWith g l m).length := by rw [List.length_zipWith]; omega
  exact ⟨_, List.getElem_mem hz, by rw [List.getElem_zipWith]; exact hg.left _ _⟩

theorem Selects.exists_zipWith_right {α : Type} {g : α → α → α} {R : α → α → Prop} (hg : Selects g R) {l m : List α} (h : l.length = m.length)
    {y : α} (hy : y ∈ m) : ∃ z ∈ List.zipWith g l m, R z y := by
  obtain ⟨i, hi, rfl⟩ := List.getElem_of_mem hy
  have hz : i < (List.zipWith g l m).length := by rw [List.length_zipWith]; omega
  exact ⟨_, List.getElem_mem hz, by rw [List.getElem_zipWith]; exact hg.right _ _⟩

/-- A tree of selections is one of the values, and it is before all of them. -/
theorem Selects.treeBy {α : Type} {g : α → α → α} {R : α → α → Prop} (hg : Selects g R) {n k : Nat} {l : List α}
    (hlen : l.length = 2 ^ k) (hk : k ≤ n) : ∃ x, treeBy g n l = [x] ∧ x ∈ l ∧ ∀ y ∈ l, R x y := by
  induction k generalizing n l with
  | zero =>
    obtain ⟨a, rfl⟩ := List.length_eq_one_iff.mp hlen
    exact ⟨a, treeBy_singleton g n a, by simp, by simpa using hg.refl a⟩
  | succ k ih =>
    obtain ⟨n, rfl⟩ := Nat.exists_eq_succ_of_ne_zero (by omega : n ≠ 0)
    obtain ⟨htree, hleft, hright⟩ := treeBy_halves g n k l hlen
    have heq := hleft.trans hright.symm
    obtain ⟨x, hx, hmem, hall⟩ := ih (n := n) (l := List.zipWith g (l.take (2 ^ k)) (l.drop (2 ^ k)))
      (by simp only [List.length_zipWith, hleft, hright, min_self]) (by omega)
    refine ⟨x, htree.trans hx, ?_, fun y hy => ?_⟩
    · exact (hg.mem_of_mem_zipWith hmem).elim List.mem_of_mem_take List.mem_of_mem_drop
    · rw [← List.take_append_drop (2 ^ k) l, List.mem_append] at hy
      obtain ⟨z, hz, hzy⟩ := hy.elim (hg.exists_zipWith_left heq) (hg.exists_zipWith_right heq)
      exact hg.trans _ _ _ (hall z hz) hzy

theorem selects_min : Selects (min : Int → Int → Int) (· ≤ ·) := ⟨min_choice, min_le_left, min_le_right, fun _ _ _ => le_trans, le_refl⟩

theorem selects_max : Selects (max : Int → Int → Int) (· ≥ ·) := ⟨max_choice, le_max_left, le_max_right, fun _ _ _ => ge_trans, le_refl⟩

/-! ### Reductions -/

/-- The lanes of an element type are a power of two, at most 64. -/
theorem etLanes_pow (et : Nat) : ∃ k ≤ 6, etLanes et = 2 ^ k := by
  unfold etLanes
  rcases etBits_cases et with h | h | h | h <;> rw [h]
  exacts [⟨6, by decide, rfl⟩, ⟨5, by decide, rfl⟩, ⟨4, by decide, rfl⟩, ⟨3, by decide, rfl⟩]

theorem treeBy_add_lanes (et : Nat) (g : Nat → Int) :
    (treeBy (· + ·) 6 ((List.range (etLanes et)).map g)).headD 0 = ((List.range (etLanes et)).map g).sum := by
  obtain ⟨k, hk, hl⟩ := etLanes_pow et
  rw [treeBy_add (k := k) (by simp [hl]) hk, List.headD_cons]

/-- A reduction by selection over the governed lanes: `idle` stands for the others, and it is before no value. -/
theorem treeBy_governed {g : Int → Int → Int} {R : Int → Int → Prop} (hg : Selects g R) (et : Nat) (p : Nat → Bool) (v : Nat → Int) (idle : Int) :
    let r := (treeBy g 6 ((List.range (etLanes et)).map fun i => if p i then v i else idle)).headD 0
    (∀ i < etLanes et, p i → R r (v i)) ∧ (r = idle ∨ ∃ i < etLanes et, p i ∧ r = v i) := by
  obtain ⟨k, hk, hl⟩ := etLanes_pow et
  obtain ⟨x, hx, hmem, hall⟩ := hg.treeBy (n := 6) (k := k) (l := (List.range (etLanes et)).map fun i => if p i then v i else idle) (by simp [hl]) hk
  rw [hx, List.headD_cons]
  obtain ⟨i, hi, hxi⟩ := List.mem_map.mp hmem
  refine ⟨fun i hi hp => ?_, ?_⟩
  · have := hall _ (List.mem_map_of_mem (List.mem_range.mpr hi))
    simpa only [hp, if_true] using this
  · by_cases hp : p i
    · exact .inr ⟨i, List.mem_range.mp hi, hp, by simpa [hp] using hxi.symm⟩
    · exact .inl (by simpa [hp] using hxi.symm)

/-- Part `p` of the source has a lane for every lane of the result. -/
theorem part_lt {ls ld p i : Nat} (hp : p < ls / ld) (hi : i < ld) : p * ld + i < ls := by
  have h1 : (p + 1) * ld ≤ ls / ld * ld := Nat.mul_le_mul_right ld hp
  have h2 := Nat.div_mul_le_self ls ld
  rw [Nat.succ_mul] at h1
  omega

theorem vRedMinMax_done {s : State} {th : Thr} {fn : Nat} {f : F1} {t : Thread} {x : Ctx} (mx : Bool) {v : W64} (h0 : f.rsv = 0) (he : f.et.toNat ≤ 11)
    (ha : f.ra.toNat < 32) (hi : Issues s th (encF1 0x0A fn f) t x) (hL : Landed s th [sDst f.rd.toNat, .v f.ra.toNat])
    (hv : v = if etInt f.et.toNat then
        BitVec.ofInt 64 ((treeBy (fun a b => if mx then max a b else min a b) 6 ((List.range (etLanes f.et.toNat)).map fun i =>
          if bitAt (t.getK f.k.toNat) i then etVal f.et.toNat (lane (etBits f.et.toNat) (t.getV f.ra.toNat) i)
          else if mx then etMin f.et.toNat else etMax f.et.toNat)).headD 0)
      else BitVec.ofNat 64 ((treeBy (fMinMax (etFmt (redEt f.et.toNat)) mx) 6 ((List.range (etLanes f.et.toNat)).map fun i =>
          if bitAt (t.getK f.k.toNat) i then
            fConv (etFmt f.et.toNat) (etFmt (redEt f.et.toNat)) (lane (etBits f.et.toNat) (t.getV f.ra.toNat) i)
          else (etFmt (redEt f.et.toNat)).infBits + (if mx then (etFmt (redEt f.et.toNat)).signBit else 0))).headD 0)) :
    s.vRedMinMax th fn f mx = becomes s th (t.setS f.rd.toNat v (t.poisoned (.v f.ra.toNat))).step := by
  unfold State.vRedMinMax
  rw [sOp_done _ h0 (by simp [anyEt, he, ha]) hi hL (by simp [Clean]), hv, List.any_cons, List.any_nil, Bool.or_false]

/-- Settles O6: compares pack their bits, lanes read back, and a reduction is a tree over the governed lanes. -/
theorem vectorMoveAndReduceResults : Obligations.VectorMoveAndReduceResults := by
  refine ⟨compares_of ?_ fun _ _ _ => rfl, compares_of ?_ fun _ _ _ => rfl, compares_of ?_ fun _ _ _ => rfl, compares_of ?_ fun _ _ _ => rfl,
    lanes_of ?_ (fun _ hl => hl) fun _ _ _ _ _ => rfl, lanes_of ?_ (fun _ hl => hl) fun _ _ _ _ _ => Nat.mod_mod _ _, scalarF1_of ?_ fun _ _ _ => rfl,
    lanes_of ?_ (fun _ hl => hl) fun _ _ _ _ _ => rfl, ?cvt, ?redAdd, ?redMin, ?redMax, ?redFloat⟩
  case cvt =>
    refine lanes_of (fun _ _ _ => by dsimp only [exec]; exact rfl) (fun f hl => ?_) fun f t i hl hi => ?_
    · simpa [anyEt, and_assoc] using hl
    · by_cases hle : etLanes (f.rc.toNat % 16) ≤ etLanes f.et.toNat
      · simp only [hle, if_true, Bool.and_eq_true, decide_eq_true_eq] at hl
        simp only [hle, if_true, part_lt hl.2 hi]
      · simp only [hle, if_false]
  case redAdd =>
    refine scalarF1_of (fun _ _ _ => by dsimp only [exec]; exact rfl) fun f t _ => ?_
    simp only [treeBy_add_lanes, etInt, decide_eq_true_eq]
  case redMin =>
    intro s th f t x h0 he ha hi hL
    refine ⟨_, vRedMinMax_done false h0 (by omega) ha hi hL ?_, treeBy_governed selects_min _ _ _ _⟩
    simp [etInt, he]
  case redMax =>
    intro s th f t x h0 he ha hi hL
    refine ⟨_, vRedMinMax_done true h0 (by omega) ha hi hL ?_, treeBy_governed selects_max _ _ _ _⟩
    simp [etInt, he]
  case redFloat =>
    intro s th f t x mx h0 h8 he ha hi hL
    have hint : etInt f.et.toNat = false := by simp [etInt]; omega
    cases mx
    · exact vRedMinMax_done false h0 he ha hi hL (by rw [hint]; rfl)
    · exact vRedMinMax_done true h0 he ha hi hL (by rw [hint]; rfl)
  all_goals exact fun _ _ _ => by dsimp only [exec]; exact rfl

end Sys2Proof.Machine

/-! ## Branches, jumps, special registers, fences and END (06 R171, R183, R192, R193) -/

namespace Sys2Proof.Machine
open Sys2Proof.Claims

theorem any_pending_of_landed {s : State} {th : Thr} {l : List Dst} (h : Landed s th l) : l.any (s.node.pendingReg (thrNo th)) = false :=
  List.any_eq_false.mpr fun r hr => by rw [h r hr]; exact Bool.false_ne_true

theorem any_poisoned_of_clean {t : Thread} {l : List Dst} (h : Clean t l) : l.any t.poisoned = false :=
  List.any_eq_false.mpr fun r hr => by rw [h r hr]; exact Bool.false_ne_true

theorem f1_done {s : State} {th : Thr} {op fn : Nat} {f : F1} {legal : Bool} {g : Nat → Thread → Ctx → Eff} {t : Thread} {x : Ctx} {m : Node}
    (h0 : f.rsv = 0) (hl : legal = true) (hi : Issues s th (encF1 op fn f) t x) (hg : g (thrNo th) t x = .done m) :
    s.f1 th op fn f legal g = s.settled m := by
  rw [f1_legal _ _ _ _ _ _ _ h0 hl, issue_done hi _ _ hg]

theorem f2_done {s : State} {th : Thr} {op fn : Nat} {f : F2} {legal : Bool} {g : Nat → Thread → Ctx → Eff} {t : Thread} {x : Ctx} {m : Node}
    (h0 : f.rsv = 0) (hl : legal = true) (hi : Issues s th (encF2 op fn f) t x) (hg : g (thrNo th) t x = .done m) :
    s.f2 th op fn f legal g = s.settled m := by
  rw [f2_legal _ _ _ _ _ _ _ h0 hl, issue_done hi _ _ hg]

/-! ### Branches and jumps -/

theorem jumpTo_eq (pc : Nat) (imm : BitVec 32) : jumpTo pc imm = (((pc : Int) + imm.toInt) % 32768).toNat := by
  rw [jumpTo, ofSigned, BitVec.toNat_ofInt]
  rfl

/-- The target of JALR is the sum of the register and the immediate, modulo the 15 bits of the PC. -/
theorem jalr_target (a : W64) (imm : BitVec 32) : (a + imm.signExtend 64).toNat % 32768 = ((a.toInt + imm.toInt) % 32768).toNat := by
  have hsum : a + imm.signExtend 64 = BitVec.ofInt 64 (a.toInt + imm.toInt) := by
    rw [BitVec.ofInt_add, BitVec.ofInt_toInt]; rfl
  rw [hsum, BitVec.toNat_ofInt]
  omega

theorem branches_of {c : Thr → F2 → Instr} {fn : Nat} {g : W64 → W64 → Prop} (g' : W64 → W64 → Bool)
    (h : ∀ th f s, exec (c th f) s = s.branch th fn f g') (hg : ∀ a b, g' a b = true ↔ g a b) : Branches c fn g := by
  intro s th f t x h0 hi hL hC
  have hexec : exec (c th f) s = becomes s th { t with
      pc := if g' (t.getS f.ra.toNat) (t.getS f.rd.toNat) then jumpTo t.pc f.imm else t.nextPc } :=
    (h th f s).trans (f2_done h0 rfl hi (by
      simp only [any_pending_of_landed hL, any_poisoned_of_clean hC, Bool.false_eq_true, if_false]))
  rw [hexec, ← hg, ← jumpTo_eq]
  exact ⟨fun hb => by rw [if_pos hb], fun hb => by rw [if_neg hb, Thread.nextPc]⟩

/-- Settles O7: the comparisons are those of the words' values, and the targets those of the 15-bit PC. -/
theorem controlInstructionResults : Obligations.ControlInstructionResults := by
  refine ⟨branches_of (· == ·) ?_ fun a b => beq_iff_eq, branches_of (· != ·) ?_ fun a b => bne_iff_ne,
    branches_of (fun a b => a.slt b) ?_ fun a b => by simp [BitVec.slt_eq_decide],
    branches_of (fun a b => !a.slt b) ?_ fun a b => by simp [BitVec.slt_eq_decide],
    branches_of (fun a b => a.ult b) ?_ fun a b => by simp [BitVec.ult_eq_decide],
    branches_of (fun a b => !a.ult b) ?_ fun a b => by simp [BitVec.ult_eq_decide], ?jal, ?jalr, ?srd, ?lstat, ?job, ?nop, ?yield⟩
  case jal =>
    intro s th f t x h0 hi hL
    dsimp only [exec, execJal]
    rw [← jumpTo_eq]
    exact f2_done h0 rfl hi (by simp only [hL _ List.mem_cons_self, Bool.false_eq_true, if_false, Thread.nextPc])
  case jalr =>
    intro s th f t x h0 hi hL hC
    dsimp only [exec, execJalr]
    rw [← jalr_target]
    exact f2_done h0 rfl hi (by
      simp only [any_pending_of_landed hL, hC _ List.mem_cons_self, Bool.false_eq_true, if_false, Thread.nextPc])
  case srd =>
    intro s th f t x h0 himm hi hL
    dsimp only [exec, execSrd]
    exact f2_done h0 (decide_eq_true himm) hi (regOp_of hL (by simp [Clean]))
  case lstat =>
    intro s th f t x h0 himm hi hL hC
    dsimp only [exec, execSwr]
    exact f2_done h0 (decide_eq_true (by omega)) hi (by simp [himm, hL _ List.mem_cons_self, hC _ List.mem_cons_self])
  case job =>
    intro s th f t x h0 himm hx hg hi hL hC
    dsimp only [exec, execSwr]
    exact f2_done h0 (decide_eq_true (by omega)) hi (by
      simp [himm, hx, hg, hL _ List.mem_cons_self, hC _ List.mem_cons_self, bitAt_eq_testBit, BitVec.getLsbD])
  case nop => exact fun s th f t x h0 hi => by dsimp only [exec, execNop]; exact f1_done h0 rfl hi rfl
  case yield => exact fun s th f t x h0 hi => by dsimp only [exec, execYield]; exact f1_done h0 rfl hi rfl
  all_goals exact fun _ _ _ => by dsimp only [exec]; exact rfl

/-! ### Fences and END -/

/-- Settles O8: nothing that the instruction waits for is outstanding. -/
theorem fencesAndEndComplete : Obligations.FencesAndEndComplete := by
  refine ⟨?fence, ?remote, ?ends⟩
  case fence =>
    intro s th f t x h0 hm hi hacc
    dsimp only [exec, execFence]
    refine f1_done h0 (by simpa using hm) hi (if_neg ?_)
    rw [List.any_eq_true]
    rintro ⟨p, hp, hwait⟩
    rw [Bool.and_eq_true, beq_iff_eq] at hwait
    obtain ⟨hthr, hwait⟩ := hwait
    obtain ⟨hload, hother⟩ := hacc p hp hthr
    have hbit (i : Nat) (hi : i < 4) : bitAt (f.rc.toNat % 16) i = f.rc.getLsbD i := by
      rw [bitAt_eq_testBit, show 16 = 2 ^ 4 from rfl, Nat.testBit_mod_two_pow, BitVec.getLsbD]; simp [hi]
    rw [hbit 3 (by decide), hbit 2 (by decide)] at hwait
    simp only [Bool.or_eq_true, Bool.and_eq_true, beq_iff_eq, Bool.not_eq_eq_eq_not, Bool.not_true] at hwait
    tauto
  case remote =>
    intro s th f t x j jb h0 hj hjb hg hi hL
    dsimp only [exec, execFenceRemote]
    have hp := hL _ List.mem_cons_self
    refine ⟨fun hu => ?_, fun i l hu => ?_⟩
    · exact f1_done h0 rfl hi (by simp [hj, hp, hg, Node.reportPosted, hjb, hu])
    · exact f1_done h0 rfl hi (by simp [hj, hp, hg, Node.reportPosted, hjb, hu])
  case ends =>
    intro s th f t x h0 hi hacc
    dsimp only [exec, execEndThread]
    exact f1_done h0 rfl hi (if_neg (by simpa using hacc))
end Sys2Proof.Machine

/-! ## Loads, stores and AMO (06 Table 6.10, R178-R191) -/

namespace Sys2Proof.Machine
open Sys2Proof.Claims

/-- An F3 instruction whose fields are legal, whose registers are there and whose address passes is its effect. -/
theorem f3_of {s : State} {th : Thr} {op fn : Nat} {f : F3} {legal : Bool} {regs consumed : List Dst} {posted : Bool} {size : Nat}
    {addr : Thread → W64} (g : Nat → Thread → Ctx → Nat → Eff) {t : Thread} {x : Ctx} (hl : legal = true)
    (hA : Addressed s th op fn f t x regs consumed posted (addr t).toNat size) {m : Node} (hg : g (thrNo th) t x (addr t).toNat = .done m) :
    s.f3 th op fn f legal regs consumed posted size addr g = s.settled m := by
  obtain ⟨hi, hL, hC, hcode⟩ := hA
  unfold State.f3
  refine issue_done hi _ _ ?_
  simp only [hl, any_pending_of_landed hL, any_poisoned_of_clean hC, hcode, Bool.not_true, Bool.false_eq_true, if_false]
  exact hg

theorem setDst_sDst (t : Thread) (n fn mask : Nat) (b : Bytes) : t.setDst (sDst n) fn mask false b = t.setS n (loadBits fn b) := by
  unfold sDst
  split
  next h => simp [h, Thread.setDst, Thread.setS]
  next h => rfl

theorem loads_of {c : Thr → F3 → Instr} {fn size : Nat} {vec : Bool} (h : ∀ th f s, exec (c th f) s = s.load th fn f size vec)
    (hv : vec = true → size = 64) : Loads c fn size vec := by
  intro s th f t x
  dsimp only
  intro hsc hlegal hA
  have hl : (f.sc != 3 && (if vec then decide (f.rd.toNat < 32) else f.k == 0)) = true := by cases vec <;> simp_all
  have hof {g : Nat → Thread → Ctx → Nat → Eff} {m : Node} := f3_of (addr := fun t => t.addrF3 f) (g := g) (m := m) hl hA
  rw [h]
  dsimp only [State.load]
  refine ⟨fun hsp => hof ?_, fun hsp hroom => hof ?_⟩
  · rw [if_pos (beq_iff_eq.mpr hsp)]
    cases vec
    · rw [if_neg Bool.false_ne_true, setDst_sDst, if_neg Bool.false_ne_true]
    · obtain rfl := hv rfl
      rfl
  · simp [hsp, hroom]

theorem stores_of {c : Thr → F3 → Instr} {fn size : Nat} {vec : Bool} (h : ∀ th f s, exec (c th f) s = s.store th fn f size vec) :
    Stores c fn size vec := by
  intro s th f t x
  dsimp only
  intro hsc hlegal hA
  have hl : (f.sc != 3 && (if vec then decide (f.rd.toNat < 32) else f.k == 0)) = true := by cases vec <;> simp_all
  have hof {g : Nat → Thread → Ctx → Nat → Eff} {m : Node} := f3_of (addr := fun t => t.addrF3 f) (g := g) (m := m) hl hA
  rw [h]
  dsimp only [State.store]
  refine ⟨fun hsp => hof ?_, fun hsp hroom => hof ?_⟩
  · rw [if_pos (beq_iff_eq.mpr hsp)]; rfl
  · simp [hsp, hroom, allBytes]

/-- Settles O9: an access of local memory takes effect at once, a unified one is issued. -/
theorem loadStoreInstructionResults : Obligations.LoadStoreInstructionResults := by
  refine ⟨loads_of ?_ (by decide), loads_of ?_ (by decide), loads_of ?_ (by decide), loads_of ?_ (by decide), loads_of ?_ (by decide),
    loads_of ?_ (by decide), loads_of ?_ (by decide), loads_of ?_ fun _ => rfl, stores_of ?_, stores_of ?_, stores_of ?_, stores_of ?_, stores_of ?_, ?amo⟩
  case amo =>
    intro s th fn f t x
    dsimp only
    intro hsc hk hA
    have hl : (f.sc == 0 && amoOk fn.toNat) = true := by have := fn.isLt; simp [hsc, amoOk, hk]; omega
    have hof {g : Nat → Thread → Ctx → Nat → Eff} {m : Node} :=
      f3_of (addr := fun t => t.getS f.ra.toNat + f.disp.signExtend 64) (g := g) (m := m) hl hA
    dsimp only [exec, execAmo]
    simp only [beq_iff_eq]
    refine ⟨fun hsp => hof ?_, fun hsp hroom => hof ?_⟩
    · rw [if_pos hsp]
    · simp only [hsp, hroom, allBytes, Bool.not_true, Bool.false_eq_true, if_false, show ¬ (1 : BitVec 1) = 0 by decide]
  all_goals exact fun _ _ _ => by dsimp only [exec]; exact rfl

end Sys2Proof.Machine

/-! ## Outstanding accesses of a served region (06 R177, R181; 09 R274, R281, R292) -/

namespace Sys2Proof.Machine
open Sys2Proof.Claims

/-! ### What counting an access leaves -/

/-- Two nodes with the same threads, accesses, bytes and replicas. -/
structure SameAccesses (n m : Node) : Prop where
  spokes : m.spokes = n.spokes
  bytes : m.mem.bytes = n.mem.bytes
  peloton : m.peloton = n.peloton

theorem SameAccesses.rfl {n : Node} : SameAccesses n n := ⟨Eq.refl _, Eq.refl _, Eq.refl _⟩

theorem SameAccesses.trans {n m k : Node} (h : SameAccesses n m) (h' : SameAccesses m k) : SameAccesses n k :=
  ⟨h'.spokes.trans h.spokes, h'.bytes.trans h.bytes, h'.peloton.trans h.peloton⟩

theorem sameAccesses_stall (n : Node) (owner cause : Nat) : SameAccesses n (n.stall owner cause) := by
  unfold Node.stall
  split
  · exact ⟨Eq.refl _, Eq.refl _, Eq.refl _⟩
  · exact .rfl

theorem sameAccesses_stallCause (n : Node) (owner addr : Nat) : SameAccesses n (n.stallCause owner addr) := by
  unfold Node.stallCause
  repeat' split
  all_goals solve | exact .rfl | exact sameAccesses_stall ..

theorem sameAccesses_countStall (n : Node) (owner addr issued : Nat) : SameAccesses n (n.countStall owner addr issued) := by
  unfold Node.countStall
  split
  · exact sameAccesses_stallCause ..
  · exact .rfl

theorem sameAccesses_touchRegion (n : Node) (owner addr tile : Nat) : SameAccesses n (n.touchRegion owner addr tile) := by
  unfold Node.touchRegion
  split
  · exact .rfl
  · exact ⟨Eq.refl _, Eq.refl _, Eq.refl _⟩

theorem sameAccesses_served (n : Node) (owner addr issued tile : Nat) : SameAccesses n (n.served owner addr issued tile) :=
  (sameAccesses_countStall ..).trans (sameAccesses_touchRegion ..)

/-- A load of a region that is not replicated reads the bytes. -/
theorem readServed_of_notReplicated {n : Node} {owner addr : Nat} (size : Nat) (h : n.replOf owner (regionOf addr) = none) :
    n.readServed owner addr size = (n.read owner addr size, n) := by
  unfold Node.readServed
  rw [h]
  split <;> simp_all

/-! ### Accesses that reach their end -/

theorem endOf_served {s : State} {id : Nat} {kinds : List Nat} {serve : Node → Access → Node} {a : Access} (ha : s.node.acc id = some a)
    (hb : a.begun = true) (hk : kinds.contains a.kind = true) (hr : s.node.accReady a = true) (hd : s.node.dataUp = true) (hm : s.node.remoteOf a = none) :
    s.endOf id kinds .ok serve = s.settled (serve s.node a) := by
  simp only [State.endOf, ha, hb, hk, hr, hd, hm, Bool.not_true, Bool.false_or, Bool.false_eq_true, if_false, Option.isSome_none]

theorem localOf_own {n : Node} {a : Access} (h : bitAt a.addr 63 = false) : n.localOf a = .ok (a.owner, a.addr) := by
  rw [Node.localOf, if_neg (by rw [h]; exact Bool.false_ne_true)]

/-- Settles O10. -/
theorem outstandingAccessesComplete : Obligations.OutstandingAccessesComplete := by
  refine ⟨?load, ?store, ?amo, ?deadline⟩
  case load =>
    intro s id a t ha hb hk hr hd hl hm hc hrep ht
    dsimp only [exec, execLoadComplete]
    have hsame := sameAccesses_served s.node a.owner a.addr a.issued (tileOfThr a.thr)
    rw [endOf_served ha hb (by simp [hk]) hr hd hm]
    have hrep' : (s.node.served a.owner a.addr a.issued (tileOfThr a.thr)).replOf a.owner (regionOf a.addr) = none := by
      rw [Node.replOf, hsame.peloton]; exact hrep
    have hread : (s.node.served a.owner a.addr a.issued (tileOfThr a.thr)).read a.owner a.addr a.size = s.node.read a.owner a.addr a.size := by
      rw [Node.read, hsame.bytes]; rfl
    have ht' : ((s.node.served a.owner a.addr a.issued (tileOfThr a.thr)).endAccess id).thread a.thr = some t := by
      rw [← ht, Node.thread, Node.thread, ← hsame.spokes]; rfl
    simp [Node.serveLoad, localOf_own hl, hc, readServed_of_notReplicated a.size hrep', hread, Node.giveAccess, ht', hk]
  case store =>
    intro s id a ha hb hk hr hd hl hm hc hroom
    dsimp only [exec, execStoreComplete]
    rw [endOf_served ha hb (by simp [hk]) hr hd hm]
    simp [Node.serveStore, localOf_own hl, hk, hc, hroom]
  case amo =>
    intro s id a ha hb hk hr hd hl hm hc hroom
    dsimp only [exec, execStoreComplete]
    rw [endOf_served ha hb (by simp [hk]) hr hd hm]
    simp [Node.serveStore, localOf_own hl, hk, hc, hroom, Node.amoAt, allBytes]
  case deadline =>
    intro s c d hdl hle hd
    dsimp only [exec, execContextDeadline]
    simp only [hdl, hle, hd, decide_true, Bool.and_true, if_true]

end Sys2Proof.Machine

/-! ## Queues, synchronisation and time as threads use them (07 R230-R237, 13 R419) -/

namespace Sys2Proof.Machine
open Sys2Proof.Claims

theorem KList.put_put {α : Type} (l : KList α) (n : Nat) (x y : α) : KList.put (KList.put l n x) n y = KList.put l n y := by
  induction l with
  | nil => simp [KList.put]
  | cons p l ih =>
    obtain ⟨k, v⟩ := p
    by_cases h1 : n = k
    · simp [KList.put, h1]
    · by_cases h2 : n < k
      · simp [KList.put, h1, h2]
      · simp [KList.put, h1, h2, ih]

/-- An F1 instruction of 07 that is ready has the effect that its step gives. -/
theorem search1_done {s : State} {th : Thr} {op fn : Nat} {f : F1} {legal : Bool} {rs : List (BitVec 6)} {t : Thread} {x : Ctx}
    {g : Nat → Thread → Ctx → Eff} {m : Node} (hR : Ready1 s th op fn f rs t x) (hl : legal = true) (hg : g (thrNo th) t x = .done m) :
    s.search1 th op fn f legal (rs.map BitVec.toNat) g = s.settled m := by
  obtain ⟨h0, hk, hm, hi, hL, hC⟩ := hR
  rw [search1_of g h0 hk hm hl hi (by rw [List.map_map]; exact hL) (by rw [List.map_map]; exact hC), hg]

theorem retCode_zero (n : Node) (k : Nat) (t : Thread) (rd : Nat) : n.retCode k t rd 0 = .done (n.setThread k (t.retire rd 0 0)) := rfl

/-- An instruction on an object of its type that its context may use. -/
theorem syncOp_done {s : State} {th : Thr} {fn : Nat} {f : F1} {rs : List (BitVec 6)} {types : List Nat} {g : Nat → Thread → Nat → Sync → Eff}
    {t : Thread} {x : Ctx} {y : Sync} {m : Node} (hR : Ready1 s th 0x15 fn f (f.ra :: rs) t x) (he : f.et = 0) (hi : t.reg f.ra < 4096)
    (hy : s.node.sync (t.reg f.ra) = some y) (hu : y.usable x.owner = true) (ht : types.contains y.type = true)
    (hg : g (thrNo th) t (t.reg f.ra) y = .done m) : s.syncOp th fn f (rs.map BitVec.toNat) types g = s.settled m := by
  unfold State.syncOp
  refine search1_done (rs := f.ra :: rs) hR (by simp [he]) ?_
  simp only [hy, hi, hu, ht, hg, decide_true, Bool.and_true, if_true]

/-! ### Queues -/

theorem ringWrite_queue (n : Node) (q fuel : Nat) (b : Bytes) (c k : Nat) : (n.ringWrite q c b fuel).queue k = n.queue k := by
  induction fuel generalizing n c b with
  | zero => cases b <;> rfl
  | succ fuel ih =>
    cases b with
    | nil => rfl
    | cons a b => exact ih ..

/-- Settles O11: what each instruction checks holds, and its effect is the stated one. -/
theorem queueInstructionResults : Obligations.QueueInstructionResults := by
  refine ⟨?pop, ?push, ?commit⟩
  case pop =>
    intro s th f t x
    dsimp only
    intro hR he hu hk ha hle
    dsimp only [exec, execQPop]
    refine search1_done (rs := [f.ra, f.rb, f.rc]) hR (by simp [he]) ?_
    have hcode : t.localCode (t.reg f.rb) (128 * s.node.popSlots (t.reg f.ra % 8192)) 64 = 0 := by
      simp [Thread.localCode, ha, hle]
    simp only [hcode, Eff.check, hu, hk.ne', if_true, Bool.not_true, Bool.false_eq_true, if_false, ne_eq, not_false_eq_true]
    rfl
  case push =>
    intro s th f t x
    dsimp only
    intro hR he hq hu h1 h16 hle hcap hroom
    dsimp only [exec, execQPush]
    refine search1_done (rs := [f.ra, f.rb, f.rc]) hR (by simp [he]) ?_
    have hcode : t.localCode (t.reg f.rb) (128 * min (t.reg f.rc) 16) 1 = 0 := by
      rw [min_eq_left h16]
      simp [Thread.localCode, hle, Nat.mod_one]
    simp only [hcode, Eff.check, hu, hcap, if_true, Bool.not_true, Bool.or_false, bne_self_eq_false, Bool.false_eq_true, if_false,
      show ¬ 8192 ≤ t.reg f.ra by omega, show ¬ t.reg f.rc < 1 by omega, show ¬ 16 < t.reg f.rc by omega, decide_false, Nat.not_lt.mpr hroom]
    rfl
  case commit =>
    intro s th f t x p
    dsimp only
    intro hR he hq hu hcap hp hthr
    refine ⟨?_, ?_⟩
    · simp [Node.commitPush, ringWrite_queue, Queue.dropPushes]
    dsimp only [exec, execQCommit]
    refine search1_done (rs := [f.ra]) hR (by simp [he]) ?_
    simp [hq, hu, hcap, hp, hthr, earlierPush, retCode_zero]

/-! ### Synchronisation -/

/-- A thread that waited retires as if it had not. -/
theorem retire_waiting (t : Thread) (w : Option Wait) (k rd : Nat) (v : W64) (code : Nat) :
    Thread.retire { t with wait := w, waitRd := k } rd v code = t.retire rd v code := by
  unfold Thread.retire Thread.setS
  split <;> rfl

theorem setThread_setThread (n : Node) (k : Nat) (t t' : Thread) : (n.setThread k t).setThread k t' = n.setThread k t' := by
  simp only [Node.setThread, KList.put_put]

/-- A thread that is held and at once woken has gone on. -/
theorem wake_held (n : Node) (i k : Nat) (t : Thread) (y : Sync) (rd : Nat) (w : Wait) :
    ((n.hold k t rd w).setSync i y).wakeWaiters [k] = (n.setSync i y).setThread k (t.retire rd 0 0) := by
  have h : ((n.hold k t rd w).setSync i y).thread k = some { t with wait := some w, waitRd := rd } := by simp [Node.hold]
  simp only [Node.wakeWaiters, List.foldl_cons, List.foldl_nil, h, Option.isSome_some, if_true, retire_waiting]
  exact setThread_setThread (n.setSync i y) k _ _

/-- A thread that does not wait has no limit. -/
theorem checkLimit_retired (n : Node) (k : Nat) (t : Thread) (rd : Nat) (v : W64) (code : Nat) :
    (n.setThread k (t.retire rd v code)).checkLimit k = n.setThread k (t.retire rd v code) := by
  simp [Node.checkLimit, Thread.retire]

/-- The only waiter is served where the value suffices. -/
theorem settleSem_held (n : Node) (i k c : Nat) (t : Thread) (y : Sync) (rd : Nat) (l : Option Nat) (h : c ≤ y.value) (hw : y.waiters = []) :
    (n.hold k t rd (.sem i c l)).settleSem i { y with waiters := y.waiters ++ [k] } y.value
      = (n.setSync i { y with value := if y.type == 0 then y.value - c else y.value }).setThread k (t.retire rd 0 0) := by
  have hneed : (n.hold k t rd (.sem i c l)).semNeed (y.type == 0) k = some (c, y.type == 0) := by simp [Node.semNeed, Node.hold]
  simp only [Node.settleSem, hw, List.nil_append, serveSem, hneed, h, if_true]
  rw [wake_held, ← hw]

/-- Settles O12: a thread whose wait is satisfied is held and at once woken, which leaves it as if it had gone on. -/
theorem synchronisationInstructionResults : Obligations.SynchronisationInstructionResults := by
  refine ⟨?semWait, ?semPost, ?bar, ?evtSet, ?evtWait, ?ts, ?snap, ?timeout⟩
  case semWait =>
    intro s th f t x y
    dsimp only
    intro hR he hi hy hu hw
    dsimp only [exec, execSemWait]
    refine ⟨fun ht h1 h32 hc => ?_, fun ht hc => ?_⟩
    · refine syncOp_done (rs := [f.rb, f.rc]) hR he hi hy hu (by simp [ht]) ?_
      rw [if_neg (by simp only [semCount, h1, h32]; simp), settleSem_held _ _ _ _ _ _ _ _ hc hw, checkLimit_retired, ht]
      rfl
    · refine syncOp_done (rs := [f.rb, f.rc]) hR he hi hy hu (by simp [ht]) ?_
      rw [if_neg (by simp [ht]), settleSem_held _ _ _ _ _ _ _ _ hc hw, checkLimit_retired, if_neg (by simp [ht])]
  case semPost =>
    intro s th f t x y
    dsimp only
    intro hR he hi hy hu hw hv
    dsimp only [exec, execSemPost]
    refine syncOp_done (rs := [f.rb]) hR he hi hy hu (by rcases hv with h | h <;> simp [h]) ?_
    have hok : y.postOk (t.reg f.rb) = true := by
      rcases hv with ⟨ht, h1, h32⟩ | ht
      · simp [Sync.postOk, semCount, h1]; omega
      · simp [Sync.postOk, ht]
    simp [hok, Node.settleSem, hw, serveSem, Node.wakeWaiters, retCode_zero]
  case bar =>
    intro s th f t x y
    dsimp only
    intro hR he hi hy hu ht
    dsimp only [exec, execBarArrive]
    refine ⟨fun hp => ?_, fun hp => ?_⟩
    · exact syncOp_done (rs := [f.rc]) hR he hi hy hu (by simp [ht]) (if_pos hp)
    · exact syncOp_done (rs := [f.rc]) hR he hi hy hu (by simp [ht]) (if_neg (by omega))
  case evtSet =>
    intro s th f t x y
    dsimp only
    intro hR he hi hy hu ht
    dsimp only [exec, execEvtSet]
    have hbit : bitAt (t.reg f.rb) 0 = (t.getS f.rb.toNat).getLsbD 0 := bitAt_eq_testBit ..
    refine ⟨fun hb => ?_, fun hb => ?_⟩
    · refine syncOp_done (rs := [f.rb]) hR he hi hy hu (by simp [ht]) ?_
      rw [hbit, hb]; rfl
    · refine syncOp_done (rs := [f.rb]) hR he hi hy hu (by simp [ht]) ?_
      rw [hbit, hb]; rfl
  case evtWait =>
    intro s th f t x y hR he hi hy hu ht hv
    dsimp only [exec, execEvtWait]
    exact syncOp_done (rs := [f.rc]) hR he hi hy hu (by simp [ht]) (if_pos (by simp [hv]))
  case ts =>
    intro s th f t x hR he
    dsimp only [exec, execTsRead]
    exact search1_done (rs := []) hR (by simp [he]) rfl
  case snap =>
    intro s th f t x
    dsimp only
    intro hR he hx hv hc
    dsimp only [exec, execSnapArm]
    obtain ⟨h0, hk, hm, hi, hL, hC⟩ := hR
    refine f1_done h0 (by simp [he, hk, hm]) hi ?_
    rw [if_neg (by simp [hx]), consumes_of (regs := [f.ra.toNat, f.rb.toNat]) (hL _ List.mem_cons_self)
      (fun r hr => hL r (List.mem_cons_of_mem _ hr)) hC, if_neg (by omega), hc]
    rfl
  case timeout =>
    intro s th t i l y hd ht hw hl hy hty
    dsimp only [exec, execWaitTimeout]
    simp [hd, Node.checkLimit, ht, hw, Wait.limit, hl, Node.timeoutWait, Wait.object, Node.failWait, hy, hty]

end Sys2Proof.Machine

/-! ## The scans (07 R209-R213, 03 R93-R95) -/

namespace Sys2Proof.Machine
open Sys2Proof.Claims

/-- An F4 instruction that is ready has the effect that its step gives. -/
theorem f4_done {s : State} {th : Thr} {op fn fl : Nat} {f : F4} {legal : Bool} {rs : List (BitVec 6)} {t : Thread} {x : Ctx}
    {g : Nat → Thread → Ctx → Eff} {m : Node} (hR : Ready4 s th op fn f fl rs t x) (hl : legal = true) (hg : g (thrNo th) t x = .done m) :
    s.f4 th op fn f fl legal (rs.map BitVec.toNat) g = s.settled m := by
  obtain ⟨hk, hf, hi, hL, hC⟩ := hR
  rw [f4_of g hk hf hl hi (by rw [List.map_map]; exact hL) (by rw [List.map_map]; exact hC), hg]

theorem check_zero (a : Nat) (k : Eff) : Eff.check 0 a k = k := rfl

theorem await_false (k : Eff) : Eff.await false k = k := rfl

/-- A scan whose checks pass is the scan of its form. -/
theorem scan_done {s : State} {th : Thr} {fn fl form : Nat} {f : F4} {t : Thread} {x : Ctx} {out : Bool} {m : Node}
    {g : Node → Nat → Thread → Ctx → ScanBlk → Eff} (hfn : fn < 2 → form = 0) (h : ScanReady s th fn fl form f t x out)
    (hg : g s.node (thrNo th) t x (readScanBlk (t.localRead f.imm.toNat 64)) = .done m) : s.scan th fn f fl g = s.settled m := by
  obtain ⟨hR, hform, hout, hblk, hcode, hq, h0, h1⟩ := h
  have hloff : (if fn < 2 then t.localCode (readScanBlk (t.localRead f.imm.toNat 64)).loff
      (if fn = 0 then 16 * (readScanBlk (t.localRead f.imm.toNat 64)).m else 256 * min (readScanBlk (t.localRead f.imm.toNat 64)).m 128) 64 else 0) = 0 := by
    split
    · split
      · exact h0 ‹_›
      · exact h1 (by omega)
    · rfl
  refine f4_done (rs := [f.ra, f.rb, f.rc]) hR rfl ?_
  have hfm : (decide (fn < 2) && form != 0) = false := by
    by_cases h : fn < 2
    · simp [hfn h]
    · simp [h]
  simp only [hform, hout, hblk, hcode, hq, hloff, hfm, check_zero, Bool.false_eq_true, if_false]
  exact hg

/-- A scan that ends well leaves its list and its counts. -/
theorem endScan_counted (n : Node) (k : Nat) (t : Thread) (x : Ctx) (l : Nat) (y : HubList) (g : Gather) (a : Nat) :
    n.endScan k t x (some (l, y)) (0, g) a = .done ((counted n x l y g).setThread k (t.retire 0 0 0)) := rfl

theorem endScan_addNan (n : Node) (k : Nat) (t : Thread) (x : Ctx) (g : Gather) (a : Nat) :
    n.endScan k t x none (0, g) a = .done ((addNan n x g.nan).setThread k (t.retire 0 0 0)) := rfl

theorem any_eq_false_of_forall {α : Type} {l : List α} {p : α → Bool} (h : ∀ a ∈ l, p a = false) : l.any p = false :=
  List.any_eq_false.mpr fun a ha => by rw [h a ha]; exact Bool.false_ne_true

/-! ### Segments -/

theorem scansSegment_of {c : Thr → F4 → Instr} {fn fl flags : Nat} {vf : ScanBlk → Nat} {g : F4 → Node → Nat → Thread → Ctx → ScanBlk → Eff}
    (h : ∀ th f s, exec (c th f) s = s.scan th fn f fl (g f))
    (hg : ∀ f n k t x b, fld f.fl.toNat 6 2 = 0 → g f n k t x b = n.scanSegment k t x f b (vf b) flags) : ScansSegment c fn fl flags vf := by
  intro s th f t x p sh l y g el hd m m' n
  dsimp only
  intro hready hp ha hacode hw1 hr1 hw2 hr2 hseg hdim hpq hmet hfmt hbirth hblk hlist hw3 hall
  rw [h]
  refine scan_done (fun _ => rfl) hready ?_
  have hform := hready.2.1
  rw [hg _ _ _ _ _ _ hform]
  have hsrc : (sh.offAblk == 0 && (readScanBlk (t.localRead f.imm.toNat 64)).foff != 0xFFFFFFFF
      && (t.filter (readScanBlk (t.localRead f.imm.toNat 64)).foff).preds.any (·.1.src)) = false := by
    rcases hblk with h | h | h
    · simp [h]
    · simp [h]
    · rw [any_eq_false_of_forall h, Bool.and_false]
  have hdist (P : Prop) [Decidable P] (p q : Bytes → Nat → Nat) : (fun b j => if P then p b j else q b j) = if P then p else q := by
    split <;> rfl
  unfold Node.scanSegment
  simp only [hp, ha, hacode, hw1, hr1, hw2, hr2, hseg, hdim, hpq, hmet, hfmt, Nat.not_lt.mpr hbirth, hsrc, check_zero, await_false,
    bne_self_eq_false, Bool.or_self, Bool.false_eq_true, if_false]
  simp only [Bool.or_eq_true, beq_iff_eq, ← hdist, hlist, hall, any_eq_false_of_forall hw3, await_false]
  rfl

/-! ### Centroids -/

/-- The state of a centroid scan after the blocks from the i-th on. -/
def centroidStep (n : Nat) (t : Thread) (x : Ctx) (k : ScanBlk) (base : Nat) (q : Bytes) (out : Bool) (r : Nat × Gather × Node) (b : Nat) :
    Nat × Gather × Node :=
  if r.1 != 0 then r
  else match r.2.2.centroidBlock t x k base q b with
    | (.error e, m) => (e, r.2.1, m)
    | (.ok ks, m) =>
      let nan := (ks.filter fun p => p.2 == nanKey).length
      if out then
        match m.uniWrite n t x (k.kout + 128 * b) (ks.flatMap fun p => natLe 4 p.2) with
        | .ok m => (0, { r.2.1 with nan := r.2.1.nan + nan }, m)
        | .error e => (e, r.2.1, m)
      else (0, { r.2.1 with list := ks.foldl (fun l p => l.candidate ⟨p.2, 2, 0, p.1⟩) r.2.1.list, nan := r.2.1.nan + nan }, m)

/-- What the keys of a block add to what a scan gathers: to the list, unless they go to memory, and to the NaN keys. -/
def Gather.keys (out : Bool) (g : Gather) (ks : List (Nat × Nat)) : Gather :=
  { g with list := if out then g.list else ks.foldl (fun l p => l.candidate ⟨p.2, 2, 0, p.1⟩) g.list
           nan := g.nan + (ks.filter fun p => p.2 == nanKey).length }

theorem Gather.keys_append (out : Bool) (g : Gather) (l m : List (Nat × Nat)) : g.keys out (l ++ m) = (g.keys out l).keys out m := by
  cases out <;> simp [Gather.keys, Nat.add_assoc]

/-- What a block of centroids that can be read, and whose keys can be written, adds. -/
theorem centroidStep_ok {n : Nat} {t : Thread} {x : Ctx} {k : ScanBlk} {base : Nat} {q v : Bytes} {out : Bool} {s m s' : Node} {b : Nat} (g : Gather)
    (hread : s.uniRead t x (base + 32 * b * exactSize k.vf k.dim) ((centroidKeys k q v b).length * exactSize k.vf k.dim) = (.ok v, m))
    (hwrite : if out then m.uniWrite n t x (k.kout + 128 * b) ((centroidKeys k q v b).flatMap fun p => natLe 4 p.2) = .ok s' else s' = m) :
    centroidStep n t x k base q out (0, g, s) b = (0, g.keys out (centroidKeys k q v b), s') := by
  have hblock : s.centroidBlock t x k base q b = (.ok (centroidKeys k q v b), m) := by
    rw [centroidKeys, List.length_map] at hread
    simp only [Node.centroidBlock, hread]
    rfl
  simp only [centroidStep, hblock, bne_self_eq_false, Bool.false_eq_true, if_false]
  cases out
  · simp only [Bool.false_eq_true, if_false] at hwrite
    simp [hwrite, Gather.keys]
  · simp only [if_true] at hwrite
    simp [hwrite, Gather.keys]

/-- The blocks of a centroid scan from the i-th on: each is read at a node of the sequence `ns` and leaves the next one. -/
def CentroidBlocks (n : Nat) (t : Thread) (x : Ctx) (k : ScanBlk) (base : Nat) (q : Bytes) (out : Bool) (ns ms : Nat → Node) (vs : Nat → Bytes)
    (bs : List Nat) (i : Nat) : Prop :=
  ∀ j b, bs[j]? = some b →
    (ns (i + j)).uniRead t x (base + 32 * b * exactSize k.vf k.dim) ((centroidKeys k q (vs (i + j)) b).length * exactSize k.vf k.dim)
        = (.ok (vs (i + j)), ms (i + j))
    ∧ (if out then (ms (i + j)).uniWrite n t x (k.kout + 128 * b) ((centroidKeys k q (vs (i + j)) b).flatMap fun p => natLe 4 p.2) = .ok (ns (i + j + 1))
      else ns (i + j + 1) = ms (i + j))

theorem foldl_centroidStep {n : Nat} {t : Thread} {x : Ctx} {k : ScanBlk} {base : Nat} {q : Bytes} {out : Bool} {ns ms : Nat → Node} {vs : Nat → Bytes}
    (bs : List Nat) (i : Nat) (g : Gather) (h : CentroidBlocks n t x k base q out ns ms vs bs i) :
    bs.foldl (centroidStep n t x k base q out) (0, g, ns i)
      = (0, g.keys out ((bs.zipIdx i).flatMap fun e => centroidKeys k q (vs e.2) e.1), ns (i + bs.length)) := by
  induction bs generalizing i g with
  | nil => cases out <;> simp [Gather.keys]
  | cons b bs ih =>
    obtain ⟨hread, hwrite⟩ := h 0 b rfl
    have hrest : CentroidBlocks n t x k base q out ns ms vs bs (i + 1) := fun j c hc => by
      have := h (j + 1) c hc
      simpa only [Nat.add_assoc, Nat.add_comm 1] using this
    rw [Nat.add_zero] at hread hwrite
    rw [List.foldl_cons, centroidStep_ok g hread hwrite, ih _ _ hrest, ← Gather.keys_append, List.zipIdx_cons, List.flatMap_cons,
      List.length_cons, Nat.add_assoc, Nat.add_comm 1]

/-- A centroid scan whose blocks can all be read, and written where its keys go to memory, ends well. -/
theorem scanCentroids_ends {m : Node} {n : Nat} {t : Thread} {x : Ctx} {f : F4} {k : ScanBlk} {out : Bool} {ns ms : Nat → Node} {vs : Nat → Bytes}
    (ha : t.addrCode true false (t.reg f.ra) 64 = 0) (hk : out = true → t.addrCode true false k.kout 4 = 0)
    (hw : ∀ b ∈ strided (t.reg f.rb) (t.reg f.rc) (f.fl.toNat % 64 + 1) (ceilDiv k.ccount 32),
      m.mustWait n (t.reg f.ra + 32 * b * exactSize k.vf k.dim, 32 * exactSize k.vf k.dim) = false
      ∧ (out = true → m.mustWait n (k.kout + 128 * b, 128) = false))
    (h0 : ns 0 = m)
    (h : CentroidBlocks n t x k (t.reg f.ra) (t.localRead k.qoff (exactSize k.vf k.dim)) out ns ms vs
      (strided (t.reg f.rb) (t.reg f.rc) (f.fl.toNat % 64 + 1) (ceilDiv k.ccount 32)) 0) :
    m.scanCentroids n t x f k out
      = (ns (strided (t.reg f.rb) (t.reg f.rc) (f.fl.toNat % 64 + 1) (ceilDiv k.ccount 32)).length).endScan n t x (if out then none else m.listOf t f.h.toNat)
        (0, (startGather (if out then none else m.listOf t f.h.toNat)).keys out
          ((strided (t.reg f.rb) (t.reg f.rc) (f.fl.toNat % 64 + 1) (ceilDiv k.ccount 32)).zipIdx.flatMap fun e =>
            centroidKeys k (t.localRead k.qoff (exactSize k.vf k.dim)) (vs e.2) e.1)) (t.reg f.ra) := by
  have hkout : (if out then t.addrCode true false k.kout 4 else 0) = 0 := by
    split
    · exact hk ‹_›
    · rfl
  have hfold := foldl_centroidStep _ 0 (startGather (if out then none else m.listOf t f.h.toNat)) h
  rw [h0, Nat.zero_add] at hfold
  dsimp only [Node.scanCentroids]
  rw [ha, hkout, check_zero, check_zero, any_eq_false_of_forall fun r hr => ?_, await_false]
  · exact congrArg (fun r : Nat × Gather × Node => r.2.2.endScan n t x (if out then none else m.listOf t f.h.toNat) (r.1, r.2.1) (t.reg f.ra)) hfold
  · obtain ⟨b, hb, hr⟩ := List.mem_flatMap.mp hr
    obtain ⟨hread, hwrite⟩ := hw b hb
    rcases List.mem_pair.mp hr with rfl | rfl
    · exact hread
    · cases out
      · rfl
      · exact hwrite rfl

/-- Settles O13: a scan whose checks pass gathers over its stretches as the statement's own sequences say. -/
theorem scanInstructionResults : Obligations.ScanInstructionResults := by
  refine ⟨scansSegment_of (g := fun f m n t x k => m.scanSegment n t x f k 7 0) (fun _ _ _ => rfl) fun _ _ _ _ _ _ _ => rfl,
    scansSegment_of (g := fun f m n t x k => m.scanSegment n t x f k 8 0) (fun _ _ _ => rfl) fun _ _ _ _ _ _ _ => rfl, ?exact, ?side, ?centroids⟩
  case exact =>
    refine scansSegment_of (g := fun f m n t x k => match fld f.fl.toNat 6 2 with
      | 0 => m.scanSegment n t x f k k.vf 2
      | 1 => m.scanSide n t x f k
      | _ => m.scanCentroids n t x f k (bitAt f.fl.toNat 8)) (fun _ _ _ => by dsimp only [exec]; exact rfl) fun f n k t x b hf => by rw [hf]; rfl
  case side =>
    intro s th f t x p l y g m
    dsimp only
    intro hready hp ha hz hblk hlist hw hall
    dsimp only [exec, execScanEx]
    refine scan_done (form := 1) (by omega) hready ?_
    have hform := hready.2.1
    have hsrc : ((readSpan (t.localRead (t.reg f.ra) 64)).blk == 0
        && (Node.scanArgs t x (readScanBlk (t.localRead f.imm.toNat 64)) p.gen).blocks) = false := by
      rcases hblk with h | h
      · simp [h]
      · rw [ScanArgs.blocks, any_eq_false_of_forall h, Bool.and_false]
    rw [hform]
    dsimp only [Node.scanSide]
    rw [hp]
    simp only [ha, hz, hsrc, hlist, hall, check_zero, Bool.not_true, Bool.or_self, Bool.false_eq_true, if_false]
    rw [any_eq_false_of_forall fun r hr => ?_, await_false]
    · rfl
    · obtain ⟨o, ho, hr⟩ := List.mem_flatMap.mp hr
      exact hw o ho r hr
  case centroids =>
    intro s th f t x out ns ms vs
    dsimp only
    intro hready ha hout hw h0 h
    obtain ⟨_, hform, hb, _⟩ := id hready
    have hends := scanCentroids_ends (m := s.node) (n := thrNo th) (f := f) ha hout hw h0 (fun j b hj => by rw [Nat.zero_add]; exact h j b hj)
    refine ⟨fun ho l y hlist => ?_, fun ho => ?_⟩
    · subst ho
      dsimp only [exec, execScanEx]
      refine scan_done (form := 2) (by omega) hready ?_
      rw [hform, hb]
      refine hends.trans ?_
      rw [if_neg Bool.false_ne_true, hlist, endScan_counted]
      simp [Gather.keys, startGather]
    · subst ho
      dsimp only [exec, execScanEx]
      refine scan_done (form := 2) (by omega) hready ?_
      rw [hform, hb]
      refine hends.trans ?_
      rw [if_pos rfl, endScan_addNan]
      simp [Gather.keys, startGather]

end Sys2Proof.Machine

/-! ## Register accesses (00 R8-R10, R556; 13 R415-R417; 17 R532-R537) -/

namespace Sys2Proof.Machine
open Sys2Proof.Claims

section
variable {n : Node} {src : Src} {name : RegName} {i v : Nat} {r : Option Role} {a : RegAt}

/-- A register other than the mailbox's: the write that the checks let through does its effect, after its audit record. -/
theorem writeOne_of_accepts (h : Accepts n src name i v r a) (hn : name ≠ .mboxCtl) (sigOk : Bool) :
    n.writeOne src (n.roleOf src) a v sigOk = (0, (recorded n src r a v).regEffect src a (taken a v)) := by
  obtain ⟨rfl, rfl⟩ := h.named
  exact writeOne_passes n src _ a v sigOk r hn h.role h.writable h.reserved h.inRange h.audited

theorem writeReg_of_accepts (h : Accepts n src name i v r a) (hn : name ≠ .mboxCtl) (sigOk : Bool) :
    n.writeReg src a.off a.row.width v sigOk = (recorded n src r a v).regEffect src a (taken a v) :=
  writeReg_passes n _ src a v sigOk h.source h.whole h.inside h.kept h.fits (writeOne_of_accepts h hn sigOk)

theorem writeNamed_of_accepts (h : Accepts n src name i v r a) (hn : name ≠ .mboxCtl) :
    n.writeNamed src name i v = (recorded n src r a v).regEffect src a (taken a v) :=
  writeNamed_passes n _ src name i a v false h.source h.found h.whole h.inside h.kept h.fits (writeOne_of_accepts h hn false)

end

/-- An access that covers no whole register is rejected and recorded. -/
theorem writeReg_of_bad {n : Node} {src : Src} {off w : Nat} (v : Nat) (sigOk : Bool) (hs : src = .pf ∨ src = .fw) (hp : n.dev.pewter = false)
    (hi : off + w ≤ 0x4000000) (hc : cover bar0Rows true off w = .bad) : n.writeReg src off w v sigOk = n.recordAcc src 0x0162 off true := by
  rcases hs with rfl | rfl <;> simp [Node.writeReg, Node.access, Node.srcOk, Nat.not_lt.mpr hi, hp, hc]

/-- A doorbell of a tenant's own queue. -/
theorem writeDb_vf {n : Node} {t : Fin 1024} {page q v : Nat} {a : RegAt} (hp : n.dev.pewter = false) (hu : n.tenantUse t.val = 0) (hpage : page < 15)
    (hv : v < 2 ^ 32) (hc : cover vfRows true (4096 * page) 4 = .regs [a]) (hname : a.row.name = .qDb) (hidx : a.idx = page) (hwidth : a.row.width = 4)
    (hw : a.row.mask (fun x => x != .ro) ≠ 0) (hr : a.row.reserved v = 0) (hq : n.vfQueue t.val page = some q) :
    n.writeDb (.vf t) page v = n.doorbell q v := by
  have hone : n.vfWriteOne t.val a v = (0, n.doorbell q v) := by simp [Node.vfWriteOne, hname, hidx, hq, hr, hw]
  have hregs := writeRegs_one n _ (.vf t) (fun s a v => s.vfWriteOne t.val a v) a v (by rw [hwidth]; exact hv) hone
  have hin : ¬ 65536 < 4096 * page + 4 := by omega
  simp [Node.writeDb, Node.writeReg, Node.access, Node.srcOk, hp, hin, hu, hc, hregs]

/-- Settles O26: each access covers one register, and its checks pass. -/
theorem registerAccessResults : Obligations.RegisterAccessResults := by
  refine ⟨?write, ?read, ?bad, ?vfDoorbell, ?pfDoorbell, ?cliStat⟩
  case write => exact fun s src name i v r a hn h => congrArg (fun n : Node => s.settled n.dropDisabled) (writeReg_of_accepts h hn _)
  case read => exact fun s a hc hin hk hr => congrArg s.next (readReg_passes s.node a hc hin hk hr)
  case bad => exact fun s src off w hs hp hin hc v => congrArg (fun n : Node => s.settled n.dropDisabled) (writeReg_of_bad v _ hs hp hin hc)
  case vfDoorbell =>
    intro s t page q v a hp hu hpage hv hc hname hidx hwidth hw hr hq
    have h := writeDb_vf hp hu hpage hv hc hname hidx hwidth hw hr hq
    dsimp only [exec, execDoorbell, execQueueFlush]
    exact ⟨fun hb => by rw [hb, h]; rfl, fun hb => by rw [hb, h]; rfl⟩
  case pfDoorbell =>
    intro s q v r a h hoff hwidth
    have hdb : s.node.writeDb .pf q v = (recorded s.node .pf r a v).doorbell q (taken a v) := by
      have := writeReg_of_accepts h (by decide) false
      rw [hoff, hwidth] at this
      refine Eq.trans this ?_
      obtain ⟨hname, hidx⟩ := h.named
      simp [Node.regEffect, hname, hidx]
    dsimp only [exec, execDoorbell, execQueueFlush]
    exact ⟨fun hb => by rw [hb, hdb]; rfl, fun hb => by rw [hb, hdb]; rfl⟩
  case cliStat =>
    intro s c a hoff hc hin hname hidx hwidth hp hr hvalid hremote hfunc
    have h := readReg_passes s.node a (by rw [hwidth]; exact hc) (by rw [hwidth]; exact hin) (.inl hp) hr
    rw [hwidth] at h
    dsimp only [exec, execClientStatRead]
    rw [hoff, h]
    simp [Node.readEffect, hname, hidx, hvalid, hremote, hfunc, Node.regValueAt, Node.regValue]

end Sys2Proof.Machine

/-! ## Writes of registers that do more than store (00 R8-R10, 13 R406-R430, 14 R434, 15, 16) -/

namespace Sys2Proof.Machine
open Sys2Proof.Claims

/-! ### What the table of registers says -/

theorem findReg_mem {rows : List RegRow} {off : Nat} {a : RegAt} (h : findReg rows off = some a) : a.row ∈ rows := by
  obtain ⟨row, hmem, hrow⟩ := List.exists_of_findSome?_eq_some h
  obtain ⟨i, -, rfl⟩ := Option.map_eq_some_iff.mp hrow
  exact hmem

/-- The registers whose commands store what is written. -/
def storing : List RegName := [.qcfg, .shpCfg, .clsCfg, .isoCfg, .cliId, .cliBw, .tq0, .tq1, .tbCfg]

/-- The registers none of whose bits is read-only. -/
def written : List RegName := [.rstReq, .rstProg, .strapOvr, .timeSet, .snapArm]

theorem mask_rw_of_storing : ∀ row ∈ bar0Rows, row.name ∈ storing → (row.mask (fun x => x == .rw) == 0) = false := by decide +kernel

theorem mask_of_written : ∀ row ∈ bar0Rows, row.name ∈ written → row.mask (fun x => x != .ro) = row.mask fun _ => true := by decide +kernel

theorem mask_logRing : ∀ row ∈ bar0Rows, row.name = .logRing → row.mask (fun x => x != .ro) = 2 ^ 32 - 1 := by decide +kernel

theorem mask_ffCtl : ∀ row ∈ bar0Rows, row.name = .ffCtl → row.mask (fun x => x != .ro) = 1 := by decide +kernel

section
variable {n : Node} {src : Src} {name : RegName} {i v : Nat} {r : Option Role} {a : RegAt}

/-- A register no bit of which is read-only takes what is written. -/
theorem taken_of_written (h : Accepts n src name i v r a) (hw : name ∈ written) : taken a v = v := by
  have hm := mask_of_written a.row (findReg_mem h.found) (h.named.1 ▸ hw)
  have hr := h.reserved
  have hle : v &&& a.row.mask (fun _ => true) ≤ v := Nat.and_le_left
  rw [taken, hm]
  rw [RegRow.reserved] at hr
  omega

theorem bitAt_taken (k : Nat) : bitAt (taken a v) k = (bitAt v k && bitAt (a.row.mask fun x => x != .ro) k) := by
  simp [taken, bitAt_eq_testBit]

/-! ### The audit record of a write -/

theorem audit_regs (n : Node) (x : AuditAct) (st : Nat) : (n.audit x st).regs = n.regs := by
  unfold Node.audit
  split <;> rfl

theorem recorded_regs : (recorded n src r a v).regs = n.regs := by
  cases r with
  | none => rfl
  | some r => exact audit_regs ..

theorem audit_store (n : Node) (x : AuditAct) (st : Nat) : (n.audit x st).store = n.store := by
  unfold Node.audit
  split <;> rfl

theorem recorded_store : (recorded n src r a v).store = n.store := by
  cases r with
  | none => rfl
  | some r => exact audit_store ..

theorem recorded_reg (name : RegName) (i : Nat) : (recorded n src r a v).reg name i = n.reg name i := by
  rw [Node.reg, recorded_regs, Node.reg]

theorem recorded_qcfg (q : Nat) : (recorded n src r a v).qcfg q = n.qcfg q := by rw [Node.qcfg, recorded_reg, Node.qcfg]

theorem recorded_cliId (c : Nat) : (recorded n src r a v).cliId c = n.cliId c := by rw [Node.cliId, recorded_reg, Node.cliId]

theorem recorded_client (c : Nat) : (recorded n src r a v).client c = n.client c := by rw [Node.client, recorded_store, Node.client]

/-- The bits that a register stores are in its register after the write. -/
theorem storeOf_storing (h : Accepts n src name i v r a) (hs : name ∈ storing) : (a.row.mask (fun x => x == .rw) == 0) = false :=
  mask_rw_of_storing a.row (findReg_mem h.found) (h.named.1 ▸ hs)

/-! ### Commands that are writes of one register -/

theorem writes_of {c : Src → Nat → Instr} {ok : Node → Nat → Prop} {g : Node → Src → RegAt → Nat → Node} (hn : name ≠ .mboxCtl)
    (hexec : ∀ s src v, ok s.node v → exec (c src v) s = s.next (s.node.writeNamed src name i v))
    (hg : ∀ n src v r a, Accepts n src name i v r a → ok n v →
      (recorded n src r a v).regEffect src a (taken a v) = g (recorded n src r a v) src a v) : Writes c name i ok g :=
  fun s src v r a h hok => by rw [hexec s src v hok, writeNamed_of_accepts h hn, hg _ _ _ _ _ h hok]

theorem writesSettled_of {c : Src → Nat → Instr} {ok : Node → Nat → Prop} {g : Node → Src → RegAt → Nat → Node} (hn : name ≠ .mboxCtl)
    (hexec : ∀ s src v, ok s.node v → exec (c src v) s = s.settled (s.node.writeNamed src name i v))
    (hg : ∀ n src v r a, Accepts n src name i v r a → ok n v →
      (recorded n src r a v).regEffect src a (taken a v) = g (recorded n src r a v) src a v) : WritesSettled c name i ok g :=
  fun s src v r a h hok => by rw [hexec s src v hok, writeNamed_of_accepts h hn, hg _ _ _ _ _ h hok]

end

/-- Settles O25: each command writes its register, and the effect of that register is the stated one. -/
theorem registerCommandResults : Obligations.RegisterCommandResults := by
  refine ⟨fun q => writesSettled_of (by decide) ?_ ?qcfg, fun q => writesSettled_of (by decide) ?_ ?qdis, fun t => writes_of (by decide) ?_ ?shp,
    fun t => writes_of (by decide) ?_ ?cls, writes_of (by decide) ?entry ?isoEntry, writes_of (by decide) ?exit ?isoExit,
    fun t => writes_of (by decide) ?create ?ten, fun t => writesSettled_of (by decide) ?destroy ?tenDestroy,
    fun c => writesSettled_of (by decide) ?_ ?cli, fun c => writesSettled_of (by decide) ?_ ?cliLapse,
    fun c => writes_of (by decide) ?_ ?cliBw, fun t => writes_of (by decide) ?_ ?tq0, fun t => writes_of (by decide) ?_ ?tq1,
    writes_of (by decide) ?_ ?tb, writes_of (by decide) ?_ ?rst, writes_of (by decide) ?_ ?rstProg, writes_of (by decide) ?_ ?strap,
    writes_of (by decide) ?_ ?time, writes_of (by decide) ?_ ?logRing, writes_of (by decide) ?_ ?ff, writes_of (by decide) ?_ ?susp,
    writesSettled_of (by decide) ?_ ?snap⟩
  case qcfg =>
    intro n src v r a h hok
    simp [Node.regEffect, h.named, storeOf_storing h (by decide), recorded_qcfg, hok, stored]
  case qdis =>
    intro n src v r a h hok
    simp [Node.regEffect, h.named, recorded_qcfg, hok, bitAt_taken]
  case shp | cls | cliBw | tq0 | tq1 | tb =>
    intro n src v r a h hok
    simp [Node.regEffect, h.named, storeOf_storing h (by decide), stored]
  case isoEntry =>
    intro n src v r a h hok
    simp [Node.regEffect, h.named, stored]
  case isoExit =>
    intro n src v r a h hok
    have hb : bitAt (stored a v) 0 = false := by
      rw [stored, bitAt_eq_testBit, Nat.testBit_and, ← bitAt_eq_testBit, bitAt_taken, hok]; rfl
    simp only [Node.regEffect, h.named]
    rw [← stored]
    simp [Node.writeIso, hb]
  case ten | tenDestroy =>
    intro n src v r a h hok
    simp [Node.regEffect, h.named]
  case cli =>
    intro n src v r a h hok
    simp [Node.regEffect, h.named, storeOf_storing h (by decide), recorded_cliId, hok, stored]
  case cliLapse =>
    intro n src v r a h hok
    simp [Node.regEffect, h.named, recorded_cliId, recorded_client, hok, bitAt_taken, stored]
  case rst | rstProg | strap | time | snap =>
    intro n src v r a h hok
    simp [Node.regEffect, h.named, taken_of_written h (by decide), hok] <;> rfl
  case logRing =>
    intro n src v r a h hok
    have ht : taken a v = v := by
      rw [taken, mask_logRing a.row (findReg_mem h.found) h.named.1, Nat.and_two_pow_sub_one_eq_mod, Nat.mod_eq_of_lt hok]
    simp [Node.regEffect, h.named, ht, Nat.mod_eq_of_lt (b := 4294967296) hok]
  case ff =>
    intro n src v r a h hok
    have ht : taken a v = 1 := by
      rw [taken, mask_ffCtl a.row (findReg_mem h.found) h.named.1, hok, Nat.and_self]
    simp [Node.regEffect, h.named, ht, bitAt_eq_testBit]
  case susp =>
    intro n src v r a h hok
    simp [Node.regEffect, h.named, Node.releaseReports]
  case entry => exact fun s src v hok => by dsimp only [exec, execFixedSlotEntry]; rw [hok]; rfl
  case exit => exact fun s src v hok => by dsimp only [exec, execFixedSlotExit]; rw [hok]; rfl
  case create => exact fun s src v hok => by dsimp only [exec, execTenantCreate]; rw [hok]; rfl
  case destroy => exact fun s src v hok => by dsimp only [exec, execTenantDestroy]; rw [hok.1]; rfl
  all_goals exact fun _ _ _ _ => rfl

end Sys2Proof.Machine

/-! ## The mailbox (15 R500, 17 R547) -/

namespace Sys2Proof.Machine
open Sys2Proof.Claims

/-- Settles O27: the write passes its checks, and each command does what the mailbox does for it. -/
theorem mailboxResults : Obligations.MailboxResults := by
  refine ⟨?write, ?commit, ?clear, ?reset⟩
  case write =>
    intro s src v b r a
    dsimp only
    intro h hcmd hchunk
    dsimp only [exec, execMboxWrite]
    rw [writeNamed_mboxCtl h (by simp only [Node.mailbox, hcmd, Nat.not_lt.mpr hchunk]; rfl), hcmd]
    rfl
  case commit =>
    intro s src v r a h hcmd hp hslot hrole haud
    dsimp only [exec, execMboxCommit]
    rw [writeNamed_mboxCtl h (m := (((s.node.audit (s.node.regAct src (some .installer) 0x10F00 v) 0).putSlot (bitAt v 16)).mboxStatus 0)) ?_, hcmd]
    · rfl
    · obtain ⟨role, hrole⟩ := Option.isSome_iff_exists.mp hrole
      simp [Node.mailbox, hcmd, hp, hslot, hrole, privileged_passes _ _ _ haud]
  case clear =>
    intro s src v r a h hcmd
    dsimp only [exec, execMboxClear]
    rw [writeNamed_mboxCtl h (by simp only [Node.mailbox, hcmd]; rfl), hcmd]
    rfl
  case reset =>
    intro s src v r a h hcmd hp
    dsimp only [exec, execMboxReset]
    rw [writeNamed_mboxCtl h (by simp only [Node.mailbox, hcmd, hp]; rfl), hcmd]
    rfl

end Sys2Proof.Machine

/-! ## The host and board interfaces (17 R538-R555) -/

namespace Sys2Proof.Machine
open Sys2Proof.Claims

/-- Settles O28: each command's branch is the one that its hypotheses name. -/
theorem hostInterfaceResults : Obligations.HostInterfaceResults := by
  refine ⟨fun _ _ => rfl, fun _ => rfl, fun _ _ => rfl, fun _ => ⟨rfl, rfl⟩, ?link, fun _ => rfl, fun _ => ⟨_, _, rfl, rfl⟩,
    fun _ _ _ => ⟨_, _, rfl, rfl⟩, fun _ _ => rfl, fun _ _ _ => rfl, fun _ => rfl, fun _ _ => rfl, ?pdr, ?sensor, ?state, ?poll, ?gpio⟩
  case link =>
    intro s w g flit cxl
    dsimp only
    intro hp hw h1 h6
    dsimp only [exec, execPcieLinkUp]
    rw [if_neg]
    simp only [hp, List.contains_iff_mem.mpr hw, Nat.not_lt.mpr h1, Nat.not_lt.mpr h6]
    decide
  case pdr =>
    intro s r hr
    dsimp only [exec, execGetPdr]
    rw [if_pos hr]
  case sensor =>
    intro s r v hr hlt hv
    dsimp only [exec, execGetSensorReading]
    rw [if_pos (by simp [hr, hlt]), hv]
  case state =>
    intro s r hr hle
    dsimp only [exec, execGetStateSensorReadings]
    rw [if_pos (by simp [hr, hle])]
  case poll =>
    intro s e l
    dsimp only
    intro he
    dsimp only [exec, execPollForPlatformEventMessage]
    rw [he]
  case gpio =>
    intro s p
    dsimp only [exec, execGpioFallingEdge]
    exact ⟨fun h => if_neg fun h3 => h (beq_iff_eq.mp h3), fun h => if_pos (beq_iff_eq.mpr h)⟩

end Sys2Proof.Machine

/-! ## Filters, lookup tables, lists, ARGMAX and FREE (07 R204-R208, R214-R218, R239) -/

namespace Sys2Proof.Machine
open Sys2Proof.Claims

/-- What is waited for only where the operand is not local. -/
theorem wait_local {loc w : Bool} (h : loc = false → w = false) : (!loc && w) = false := by
  cases loc
  · exact h rfl
  · rfl

/-- A code that is checked only in one case. -/
theorem code_if {p : Bool} {c : Nat} (h : p = true → c = 0) : (if p then c else 0) = 0 := by
  cases p
  · rfl
  · exact h rfl

/-- Settles O14: what each instruction checks holds, and its effect is the stated one. -/
theorem searchInstructionResults : Obligations.SearchInstructionResults := by
  refine ⟨?filt, ?lut, ?init, ?push, ?merge, ?emit, ?argmax, ?free, ?grant⟩
  case filt =>
    intro s th f t x preds blk m m'
    dsimp only
    intro hR hop hterms hnp hw hread hpreds hok hread' hloc himg
    dsimp only [exec, execFiltLd]
    refine f4_done (rs := [f.ra, f.rb, f.rc]) hR rfl ?_
    have hall : ((List.range (t.reg f.rc % 32)).all fun i => predOk (s.node.blocksFor x) (slice preds (32 * i) 32)) = true :=
      List.all_eq_true.mpr fun i hi => hpreds i (List.mem_range.mp hi)
    simp only [hop, hterms, Nat.not_lt.mpr hnp, wait_local fun h => (hw h).1, wait_local fun h => (hw h).2, hread, hall, hok,
      hread', code_if hloc, himg, check_zero, await_false, if_false,
      Bool.not_true, Bool.false_eq_true]
    rfl
  case lut =>
    intro s th f t x cb m
    dsimp only
    intro hR ha hsb hblk hm hq hl hw hread
    dsimp only [exec, execLutBuild]
    refine f4_done (rs := [f.ra]) hR rfl ?_
    simp only [ha, hsb, hblk, hm, hq, hl, hw, hread, check_zero, await_false, Bool.not_true, Bool.false_or, beq_iff_eq, if_false]
    rfl
  case init =>
    intro s th f t x
    dsimp only
    intro hR h1 hcap hnone
    dsimp only [exec, execTopkInit]
    refine ⟨fun l y hg hy => f4_done (rs := [f.ra]) hR rfl ?_, fun b hg hw hb => f4_done (rs := [f.ra]) hR rfl ?_⟩
    · simp [Nat.not_lt.mpr h1, Nat.not_lt.mpr hcap, hnone, hg, Node.initList, hy, Node.ret]
    · simp [Nat.not_lt.mpr h1, Nat.not_lt.mpr hcap, hnone, hg, Node.initList, hw, hb, Node.ret]
  case push =>
    intro s th f t x l y
    dsimp only
    intro hR hl hkey hfl
    dsimp only [exec, execTopkPush]
    refine f4_done (rs := [f.ra, f.rb]) hR rfl ?_
    rw [hl]
    exact if_pos (by simp [pushOk, hkey, hfl])
  case merge =>
    intro s th f t x l y b m
    dsimp only
    intro hR hc hop hl hw hread
    dsimp only [exec, execTopkMerge]
    refine f4_done (rs := [f.ra, f.rb, f.rc]) hR rfl ?_
    simp only [min_eq_left (Nat.le_succ_of_le hc), hop, Nat.not_lt.mpr hc, hl, wait_local hw, hread, check_zero, await_false, if_false]
    rfl
  case emit =>
    intro s th f t x l y
    dsimp only
    intro hR hop hl hw
    dsimp only [exec, execTopkEmit]
    have hwait : (bitAt f.fl.toNat 0 && !bitAt f.fl.toNat 1 && s.node.mustWait (thrNo th) (t.reg f.ra, 32 + 16 * y.list.cap)) = false := by
      cases h0 : bitAt f.fl.toNat 0
      · rfl
      · exact wait_local (hw h0)
    have hregs : (if bitAt f.fl.toNat 0 then [f.ra.toNat] else []) = (if bitAt f.fl.toNat 0 then [f.ra] else []).map BitVec.toNat := by
      split <;> rfl
    rw [hregs]
    refine f4_done hR rfl ?_
    simp only [code_if hop, hl, hwait, check_zero, await_false]
  case argmax =>
    intro s th f t x fmt w i v b m
    dsimp only
    intro hR hrd h0 hp hfmt ha h1 hle hheld hw hread hbest
    dsimp only [exec, execArgmax]
    refine search1_done (rs := [f.ra, f.rb]) hR (by simpa [hrd] using h0) ?_
    have hblock : (!(KList.find? s.node.sel.argmax (thrNo th)).isSome
        && (!((List.range 4).any fun u => (s.node.freeBlocks x.hub).getD u 0 == 16) || !(s.node.hubWaits x.hub).isEmpty)) = false := by
      rcases hheld with ⟨⟨u, hu, hfree⟩, hnone⟩ | h
      · have hany : ((List.range 4).any fun u => (s.node.freeBlocks x.hub).getD u 0 == 16) = true :=
          List.any_eq_true.mpr ⟨u, List.mem_range.mpr hu, by rw [hfree]; rfl⟩
        rw [hany, hnone]
        exact Bool.and_false _
      · rw [h]
        rfl
    have hcnt : (decide (t.reg f.rb = 0) || decide (2 ^ 24 < t.reg f.rb)) = false := by
      rw [decide_eq_false (Nat.ne_of_gt h1), decide_eq_false (Nat.not_lt.mpr hle)]
      rfl
    simp only [hp, hfmt, ha, hcnt, hblock, hw, hread, hbest, check_zero, await_false, Bool.false_eq_true, if_false]
    rfl
  case free =>
    intro s th f t x hR
    dsimp only [exec, execFree]
    refine ⟨fun hk l y hl => f4_done (rs := []) hR (by rw [hk]; rfl) ?_, fun hk hslot => f4_done (rs := []) hR (by rw [hk]; rfl) ?_⟩
    · rw [if_pos hk, hl]
    · rw [if_neg (by omega), if_pos hslot]
      rfl
  case grant =>
    intro s hub w rest t x hw ht hx
    dsimp only [exec, execTopkBlockGrant]
    rw [hw]
    dsimp only
    rw [ht]
    dsimp only
    rw [hx]
    dsimp only
    refine ⟨fun hwait u hu => ?_, fun hwait l m hm => ?_⟩
    · rw [if_pos (beq_iff_eq.mpr hwait), hu]
    · rw [if_neg (by simpa using hwait), hm]
      rfl

end Sys2Proof.Machine

/-! ## Generations, side lists and shard items (02 R34-R57, 07 R219-R223) -/

namespace Sys2Proof.Machine
open Sys2Proof.Claims

/-- An append that has what it needs takes the next ordinal. -/
theorem appendEntry_of_appends {n : Node} {sh : Shard} {part : Nat} {raw : Bytes} (h : Appends n sh part raw) :
    n.appendEntry sh part raw = (0, sh.nextOrd part, appended n sh part raw) := by
  obtain ⟨hcode, hpop, hro, -, hlt⟩ := h
  simp only [Node.appendEntry, hcode, hpop, hro, Nat.not_le.mpr hlt, Bool.not_true, Bool.false_eq_true, if_false]
  rfl

/-- A seal that may be requested is. -/
theorem requestSeal_of_mayAsk {n : Node} {sh : ShardId} (w : SealWaiter) (h : MayAsk n sh) : n.requestSeal sh w = (0, asked n sh w) := by
  unfold Node.requestSeal asked
  cases ho : n.openSeal sh with
  | some q => rfl
  | none =>
    rcases h with h | ⟨hpend, hfull⟩
    · rw [ho] at h
      exact absurd h Bool.false_ne_true
    · simp [Nat.not_le.mpr hpend, hfull]

/-- Settles O15: the pin, seal or append that the instruction asks for has what it needs. -/
theorem generationInstructionResults : Obligations.GenerationInstructionResults := by
  refine ⟨?pin, ?unpin, ?request, ?append⟩
  case pin =>
    intro s th f t x sh g h hR he hsh hv hg hh hp
    dsimp only [exec, execGenPin]
    refine search1_done (rs := [f.ra, f.rb]) hR (by simp [he]) ?_
    have hno : ¬ (t.reg f.rb ≠ 2 ^ 64 - 1 ∧ 2 ^ 48 ≤ t.reg f.rb) := by omega
    rw [hsh]
    dsimp only
    rw [if_neg hno, hg]
    dsimp only
    rw [hh]
    exact if_neg (Nat.not_le.mpr hp)
  case unpin =>
    intro s th f t x p
    dsimp only
    intro hR he hp
    dsimp only [exec, execGenUnpin]
    refine search1_done (rs := [f.ra]) hR (by simp [he]) ?_
    rw [hp]
    rfl
  case request =>
    intro s th f t x sh hR he hsh hask
    dsimp only [exec, execGenSeal]
    refine search1_done (rs := [f.ra]) hR (by simp [he]) ?_
    rw [hsh]
    dsimp only
    rw [requestSeal_of_mayAsk _ hask]
    rfl
  case append =>
    intro s th f t x sh
    dsimp only
    intro hR he hloc hsh hloc' happ
    dsimp only [exec, execSideAppend]
    have hentry := appendEntry_of_appends happ
    obtain ⟨-, -, -, hroom, -⟩ := happ
    refine ⟨fun hpair => search1_done (rs := [f.ra, f.rb, f.rc]) hR (by simp [he]) ?_, fun hpair => search1_done (rs := [f.ra, f.rb, f.rc]) hR (by simp [he]) ?_⟩
    all_goals
      rw [hloc, check_zero, hsh]
      dsimp only
      rw [hloc', check_zero, hroom, hentry, hpair]
      rfl

/-! ### Items -/

theorem mayAsk_popM {n : Node} {q : Nat} {sh : ShardId} (h : MayAsk n sh) : MayAsk (n.popM q) sh := h

/-- A run of appends, each of which has what it needs. -/
theorem appendFrom_of_appends {sh : ShardId} {it : Item} {cnt : Nat} {ns : Nat → Node} (fuel i : Nat) (hi : i ≤ cnt) (hfuel : cnt < i + fuel)
    (h : ∀ j, j < cnt → ∃ y part raw, (ns j).shard sh = some y ∧ (ns j).appendElem y it j = .ok (part, raw) ∧ Appends (ns j) y part raw
      ∧ ns (j + 1) = appended (ns j) y part raw) : (ns i).appendFrom sh it cnt i fuel = some (cnt, 0, ns cnt) := by
  induction fuel generalizing i with
  | zero => omega
  | succ fuel ih =>
    unfold Node.appendFrom
    by_cases hlt : i < cnt
    · obtain ⟨y, part, raw, hy, helem, happ, hnext⟩ := h i hlt
      have hentry := appendEntry_of_appends happ
      obtain ⟨-, -, -, hroom, -⟩ := happ
      rw [if_neg (Nat.not_le.mpr hlt), hy]
      dsimp only
      rw [helem]
      dsimp only
      rw [hroom, hentry, ← hnext]
      exact ih (i + 1) hlt (by omega)
    · obtain rfl : i = cnt := by omega
      rw [if_pos (Nat.le_refl i)]

/-- The bytes of a shard's codebook. -/
def bookBytes (p : ShardParams) : Nat := if p.isPq then 4 * p.nc * p.d else 0

/-- The shard that an INDEX_CREATE item makes. -/
def createdShard (n : Node) (sh : ShardId) (it : Item) (plan : Option Plan) : Shard :=
  let p := createParams (it.arg 1) it.count
  { id := sh, inst := n.index.nextInst, params := p, centroids := n.read (shOwner sh) (it.arg 2) (p.c * (p.exact + 8))
    codebook := n.read (shOwner sh) (it.arg 3) (bookBytes p), plan := plan, openGen := 0, sides := [], segSerial := 0 }

/-- A shard is created where it does not exist, a record is free, its tables can be read and its list numbers are right. -/
theorem createShard_ok {n : Node} {sh : ShardId} {it : Item} {plan : Option Plan} {p : ShardParams} (hp : createParams (it.arg 1) it.count = p)
    (hno : n.shard sh = none) (hrec : n.recFree sh 0 = true) (htab : n.rangeCode (shOwner sh) (it.arg 2) (p.c * (p.exact + 8)) = 0)
    (hbook : bookBytes p ≠ 0 → n.rangeCode (shOwner sh) (it.arg 3) (bookBytes p) = 0)
    (htags : ∀ i, i < p.c → tagCode sh p.p (getLe (n.read (shOwner sh) (it.arg 2) (p.c * (p.exact + 8))) (p.c * p.exact + 8 * i) 8) = 0)
    (hplan : if it.arg 4 = 0 then plan = none else ∃ pl, plan = some pl ∧ n.readPlan (shOwner sh) (it.arg 4) = .ok pl) :
    n.createShard sh it = .ok (createdShard n sh it plan) := by
  have hbad : (((List.range p.c).map fun i =>
      tagCode sh p.p (getLe (n.read (shOwner sh) (it.arg 2) (p.c * (p.exact + 8))) (p.c * p.exact + 8 * i) 8)).find? (· != 0)) = none := by
    rw [List.find?_eq_none]
    intro c hc
    obtain ⟨i, hi, rfl⟩ := List.mem_map.mp hc
    rw [htags i (List.mem_range.mp hi)]
    decide
  have hcode : (if bookBytes p = 0 then 0 else n.rangeCode (shOwner sh) (it.arg 3) (bookBytes p)) = 0 := by
    by_cases h : bookBytes p = 0
    · exact if_pos h
    · rw [if_neg h, hbook h]
  obtain ⟨cb, hcb⟩ : ∃ cb, bookBytes p = cb := ⟨_, rfl⟩
  rw [hcb] at hcode
  simp only [bookBytes] at hcb
  simp only [Node.createShard, createdShard, bookBytes, hp, hno, hrec, htab, hbad, hcb, hcode, Option.isSome_none, Bool.not_true, Bool.false_eq_true, if_false]
  split at hplan
  next h => rw [if_pos h, hplan]
  next h =>
    obtain ⟨pl, rfl, hread⟩ := hplan
    rw [if_neg h, hread]

/-- Settles O16: each item is at the head of its line, and what it checks holds. -/
theorem shardItemResults : Obligations.ShardItemResults := by
  refine ⟨?request, ?create, ?drop, ?plan, ?append⟩
  case request =>
    intro s q a
    dsimp only
    intro hq hsh hask
    dsimp only [exec, execSeal]
    rw [runM_some _ _ _ _ _ hq, ← Option.not_isSome, hsh, requestSeal_of_mayAsk _ (mayAsk_popM hask)]
    rfl
  case create =>
    intro s q a plan
    dsimp only
    intro hq hsh hrec hr1 hr2 htags hplan
    dsimp only [exec, execIndexCreate]
    rw [runM_some _ _ _ _ _ hq, createShard_ok rfl hsh hrec hr1 hr2 htags hplan]
    rfl
  case drop =>
    intro s q a
    dsimp only
    intro hq hsh
    dsimp only [exec, execIndexDrop]
    rw [runM_some _ _ _ _ _ hq, ← Option.not_isSome, hsh]
    rfl
  case plan =>
    intro s q a x p
    dsimp only
    intro hq hx hp
    dsimp only [exec, execMergePlan]
    rw [runM_some _ _ _ _ _ hq, hx]
    dsimp only
    rw [hp]
  case append =>
    intro s c x a ns
    dsimp only
    intro hx ha hop hg hd h0 hs
    have hrun := appendFrom_of_appends (sh := shardOfKey (s.node.qcfg a.item.q).tid (a.item.arg 0)) (it := a.item)
      ((if bitAt a.item.iflags 0 then 1 else a.item.count) + 1) 0 (Nat.zero_le _) (by omega) hs
    rw [h0] at hrun
    dsimp only [exec, execAppend]
    rw [hx]
    dsimp only
    rw [ha]
    dsimp only
    rw [if_neg (by simp [hop, hg, hd]), hrun]
    dsimp only
    refine ⟨fun hpair => ?_, fun hpair hords => ?_⟩
    · rw [hpair]
      rfl
    · rw [if_pos (by rw [hpair, bne_iff_ne.mpr hords]; rfl)]
      rfl

end Sys2Proof.Machine

/-! ## Seals, compaction and merge sessions (02 R55-R65, 04 R113-R124) -/

namespace Sys2Proof.Machine
open Sys2Proof.Claims

/-- Settles O17: the generation of the request, or the compaction, is in the state that the step needs. -/
theorem sealAndCompactionResults : Obligations.SealAndCompactionResults := by
  refine ⟨?close, ?nothing, ?commit, ?start, ?compacted, ?fold⟩
  case close =>
    intro s sh q x hopen hx hclosed hlinks hpf hparts hrec
    have hup : s.node.sealUp = true := by simp [Node.sealUp, hlinks, hpf]
    have hsome : ((s.node.openParts x).isEmpty && (s.node.compactionsOf q).isEmpty) = false := by
      rw [Bool.and_eq_false_iff, List.isEmpty_eq_false_iff, List.isEmpty_eq_false_iff]
      exact hparts
    dsimp only [exec, execSealClose]
    rw [hopen, hx]
    dsimp only
    rw [hclosed, hup, hsome, hrec]
    rfl
  case nothing =>
    intro s sh q x hopen hx hclosed hlinks hpf hparts hcomp
    have hup : s.node.sealUp = true := by simp [Node.sealUp, hlinks, hpf]
    dsimp only [exec, execSealClose]
    rw [hopen, hx]
    dsimp only
    rw [hclosed, hup, hparts, hcomp]
    rfl
  case commit =>
    intro s sh q x g hclosed hx hg hlinks hpf hflash hfollows hstandby
    have hup : s.node.sealUp = true := by simp [Node.sealUp, hlinks, hpf]
    have hheld : (s.node.paired sh && !q.standbyOk) = false := by
      rcases hstandby with h | h <;> simp [h]
    dsimp only [exec, execSealCommit]
    rw [hclosed, hx]
    dsimp only
    rw [hg]
    dsimp only
    rw [hup, hflash, hfollows, hheld]
    refine ⟨fun h => ?_, fun h => ?_⟩ <;> rw [h] <;> rfl
  case start =>
    intro s sh part x g hx hg hdue hgate hup hpins hfollows hnone
    have hfree : (s.node.index.compactions.any fun c => c.shard == sh && c.part == part) = false :=
      any_eq_false_of_forall fun c hc => by simpa using hnone c hc
    dsimp only [exec, execCompactionStart]
    rw [hx, hg]
    dsimp only
    rw [hdue, hgate, hup, hfollows, hfree, decide_eq_true hpins]
    rfl
  case compacted =>
    intro s sh part x c hx hc hsh hpart hseals hrec hup
    have hhas : (s.node.index.compactions.any fun c => c.shard == sh && c.part == part) = true :=
      List.any_eq_true.mpr ⟨c, hc, by simp [hsh, hpart]⟩
    have hnoseal : (s.node.index.seals.any fun q => q.shard == sh) = false :=
      any_eq_false_of_forall fun q hq => beq_eq_false_iff_ne.mpr (hseals q hq)
    dsimp only [exec, execCompactionSeal]
    rw [hx]
    dsimp only
    rw [hhas, hnoseal, hrec, hup]
    rfl
  case fold =>
    intro s k b hb hroom hro hup
    dsimp only [exec, execSealAreaFold]
    rw [hb]
    dsimp only
    rw [hroom, hro, hup]
    rfl

/-- Settles O18: the session, the input or the context that the step looks for is the one that the statement names. -/
theorem mergeSessionResults : Obligations.MergeSessionResults := by
  refine ⟨?merge, ?reserve, ?taken, ?kept, ?done, ?due, ?late, fun _ _ => rfl, ?pin⟩
  case merge =>
    intro s c x q
    dsimp only
    intro hx hq hgang hthreads hpart hup hturn
    have hmine : (bitAt (getLe q.desc 1 1) 3 && !s.node.ownTurn x.hub) = false := by
      cases hb : bitAt (getLe q.desc 1 1) 3
      · rfl
      · rw [hturn hb]
        rfl
    dsimp only [exec, execNodeMerge]
    rw [hx]
    dsimp only
    rw [hq]
    dsimp only
    rw [beq_false_of_ne hgang, hthreads, hpart, hup, hmine]
    rfl
  case reserve =>
    intro s c l x q hl hx hq hroom hfull hup
    dsimp only [exec, execMergeSessionReserve]
    rw [hl]
    dsimp only
    rw [hx]
    dsimp only
    rw [hq]
    dsimp only
    rw [decide_eq_false (Nat.not_le.mpr hroom), hfull, hup]
    rfl
  case taken =>
    intro s m k x hup hk
    dsimp only [exec, execMergeStream]
    rw [hup, if_pos rfl, Node.takeStream, hk]
  case kept =>
    intro s m hup hk hlate
    dsimp only [exec, execMergeStream]
    rw [hup, if_pos rfl, Node.takeStream, hk]
    dsimp only
    rw [hlate]
    dsimp only
    refine ⟨fun h => ?_, fun h => ?_⟩ <;> rw [h] <;> rfl
  case done =>
    intro s tag k m hk hup
    dsimp only [exec, execMergeSessionClose]
    rw [hk]
    dsimp only
    rw [hup, if_pos rfl]
  case due =>
    intro s tag k m hk hup
    dsimp only [exec, execMergeSessionTimeout]
    rw [hk]
    dsimp only
    rw [hup, if_pos rfl]
  case late =>
    intro s tag h hh
    dsimp only [exec, execHeldStreamTimeout]
    rw [hh]
    rfl
  case pin =>
    intro s c q t hq ht hf hp
    dsimp only [exec, execShardPinTimeout]
    rw [hq]
    dsimp only
    rw [ht]
    dsimp only
    rw [hf, hp]
    rfl

end Sys2Proof.Machine

/-! ## Tables, locks and bandwidth (07 R224-R226, 08 R244-R264) -/

namespace Sys2Proof.Machine
open Sys2Proof.Claims

/-! ### Items with bandwidth -/

/-- An item that no line holds runs at once where no client stands behind it. -/
theorem runItem_unlimited {n : Node} {a : Admitted} (size : Nat) (f : Node → Node) (hline : n.inLine a = false) (hc : n.itemClient a.item = none) :
    n.runItem a size f = f n := by
  rw [Node.runItem, hline, hc]
  rfl

/-- An item whose client's bandwidth lets it go on runs with its size drawn. -/
theorem runItem_drew {n : Node} {a : Admitted} {c size : Nat} (f : Node → Node) (hline : n.inLine a = false) (hc : n.itemClient a.item = some c)
    (hmay : MayDraw n c size) : n.runItem a size f = f (drew n c size) := by
  rw [Node.runItem, hline, hc, if_neg Bool.false_ne_true]
  dsimp only
  rw [draw_of_mayDraw hmay]

theorem limited_eq (n : Node) (c : Nat) : n.limited c = decide (fld (n.reg .cliBw c) 0 16 ≠ 0) := by
  rw [Bool.eq_iff_iff]
  simp [Node.limited]

/-! ### Tables -/

theorem tabStarts_of {c : Thr → F4 → Instr} {kind fl : Nat} {legal : F4 → Prop} {ok : F4 → Bool}
    (h : ∀ th f s, exec (c th f) s = s.tab th kind f fl (ok f)) (hok : ∀ f, legal f → ok f = true) : TabStarts c kind fl legal := by
  intro s th f t x o o' m m' hR hl hfunc hw hhead hspans hfill
  rw [h]
  have hfunc : (s.node.dev.func == 3) = false := beq_false_of_ne hfunc
  have hspans : (o.spans (t.reg f.rb)).any (m.mustWait (thrNo th)) = false := any_eq_false_of_forall hspans
  refine ⟨fun ha => f4_done (rs := [f.ra, f.rb, f.rc]) hR (hok f hl) ?_, fun ha hroom => f4_done (rs := [f.ra, f.rb, f.rc]) hR (hok f hl) ?_⟩
  all_goals
    dsimp only
    rw [hfunc, hw, hhead, if_neg Bool.false_ne_true, await_false]
    dsimp only
    rw [hspans, await_false, hfill]
    dsimp only
    rw [ha]
  · rfl
  · rw [hroom]
    rfl

theorem beginTab_of {n m : Node} {a : Admitted} {o : TabOp} (h : n.itemTab a = .ok (o, m)) : n.beginTab a = (m.startOp o).2 := by
  rw [Node.beginTab, h]

theorem tabItemStarts_of {c : Nat → Instr} {op : Nat} (h : ∀ k s, exec (c k) s = s.tabItem k op) : TabItemStarts c op := by
  intro s k x a o m hx ha hop hthreads hup hops hline
  have hnone : (s.node.store.ops.any fun p => p.2.item == some a) = false :=
    any_eq_false_of_forall fun p hp => beq_false_of_ne (hops p hp)
  have hrun : exec (c k) s = s.settled (s.node.runItem a (s.node.tabSize a) fun n => n.beginTab a) := by
    rw [h, State.tabItem, hx]
    dsimp only
    rw [ha]
    dsimp only
    rw [hnone, hup, List.isEmpty_eq_false_iff.mpr hthreads, hop, bne_self_eq_false]
    rfl
  refine ⟨fun hc htab => ?_, fun i hi hmay htab => ?_⟩
  · rw [hrun, runItem_unlimited _ _ hline hc, beginTab_of htab]
  · rw [hrun, runItem_drew _ hline hi hmay, beginTab_of htab]

/-- A row that is ready is run by its engine's function. -/
theorem rowStep_ready {s : State} {e : Fin 128} {kinds : List Nat} {r : RowOp} {o : TabOp} {old : Bytes} {m : Node} (h : RowReady s e kinds r o old m)
    (f : TabOp → Nat → Bytes → Option Bytes × Nat) :
    s.rowStep e kinds f = s.settled (match f o r.idx old with
      | (some b, c) => (m.storeOver o.owner (rowAddr r o) b).endRow r.op r.idx o (some old) c
      | (none, c) => m.endRow r.op r.idx o (if c = 0 then some old else none) c) := by
  obtain ⟨hup, hhas, hpick, hin, hread⟩ := h
  unfold rowAddr lessRow at hread
  have hhas : ((KList.getD s.node.store.engines e.val []) != []) = true := bne_iff_ne.mpr hhas
  unfold State.rowStep
  dsimp only
  rw [hup, hhas, Bool.or_true, Bool.and_true, if_pos rfl, Node.runRow, hpick]
  dsimp only
  rw [if_neg (Nat.not_le.mpr hin), hread]
  rfl

/-- A replica's next write is applied, or passed over, and counted. -/
theorem replicaApply_next {n : Node} {o a k : Nat} {r : Repl} {b : Bytes} {skip : Bool} (h : NextWrite n o a k r) :
    n.replicaApply o a k b skip = caughtUp n (if skip then n else n.write o a b) o k r := by
  obtain ⟨hr, his, hk, hup⟩ := h
  rw [Node.replicaApply, hr]
  dsimp only
  rw [his, hup, beq_iff_eq.mpr hk]
  rfl

/-- Settles O19: the operation, the row or the record has what it needs. -/
theorem tableResults : Obligations.TableResults := by
  refine ⟨tabStarts_of (fun _ _ _ => rfl) fun f h => bne_iff_ne.mpr h, tabStarts_of (fun _ _ _ => rfl) fun f h => bne_iff_ne.mpr h,
    tabStarts_of (fun _ _ _ => rfl) fun _ _ => rfl, tabStarts_of (fun _ _ _ => rfl) fun _ _ => rfl, tabItemStarts_of fun _ _ => rfl,
    tabItemStarts_of fun _ _ => rfl, tabItemStarts_of fun _ _ => rfl, tabItemStarts_of fun _ _ => rfl, ?update, ?replace, ?gather, ?recompute, ?applied⟩
  case update =>
    intro s e r o old b m h hb
    dsimp only [exec, execRowUpdateApply]
    rw [rowStep_ready h, hb]
    rfl
  case replace =>
    intro s e r o old b m h hb
    dsimp only [exec, execRowReplaceApply]
    rw [rowStep_ready h, hb]
    rfl
  case gather =>
    intro s e r o old m h
    dsimp only [exec, execRowGatherRead]
    rw [rowStep_ready h]
    rfl
  case recompute =>
    intro s hremap hup hidle
    have hidle : (s.node.sweepRows.store.engines.all fun e => e.2.isEmpty) = true :=
      List.all_eq_true.mpr fun p hp => List.isEmpty_iff.mpr (hidle p hp)
    have hremap : s.node.sweepRows.store.remap = true := hremap
    have hup : s.node.sweepRows.dataUp = true := hup
    dsimp only [exec, execRowOwnerRecompute]
    rw [hremap, hup, hidle]
    rfl
  case applied =>
    intro s o a k b r h
    dsimp only [exec, execReplicaRowApply]
    refine ⟨fun hlen hver => ?_, fun hold => ?_⟩
    · rw [replicaApply_next h, decide_eq_false (Nat.not_lt.mpr hlen), hver]
      rfl
    · have hskip : (decide (b.length < 8) || !rverNewer (getLe b 4 4) (s.node.readLe o (a + 4) 4)) = true := by
        rcases hold with h | h
        · rw [decide_eq_true h, Bool.true_or]
        · rw [h, Bool.not_false, Bool.or_true]
      rw [replicaApply_next h, hskip]
      rfl

/-! ### Locks, atomics and grants -/

theorem mHead_op {n : Node} {q op : Nat} {a : Admitted} (h : n.mHead q op = some a) : a.item.op = op := by
  unfold Node.mHead at h
  split at h
  · split at h
    · next hc =>
      obtain ⟨⟨hop, -⟩, -⟩ : ((_ ∧ _) ∧ _) := by simpa only [Bool.and_eq_true] using hc
      cases h
      exact beq_iff_eq.mp hop
    · cases h
  · cases h

/-- An item on a word runs with 8 bytes of its client's bandwidth drawn. -/
theorem wordStep_of {s : State} {q : Fin 8192} {op c : Nat} {a : Admitted} {p : Admitted → Bool} (h : WordItem s q op a c) (hp : p a = true) :
    s.wordStep q op p = s.settled ((drew s.node c 8).wordItem a) := by
  obtain ⟨hhead, hq, hroom, hline, hc, hmay⟩ := h
  rw [State.wordStep, hhead]
  dsimp only
  rw [hp, hroom, runItem_drew _ hline hc hmay]
  rfl

theorem itemClient_drew (n : Node) (c size : Nat) (it : Item) : (drew n c size).itemClient it = n.itemClient it := by
  unfold drew
  split <;> rfl

/-- A free word that the client may lock takes the lock word. -/
theorem acquire_free {n : Node} {q c : Nat} {a : Admitted} (hal : a.item.arg 0 % 8 = 0) (hcode : n.wordCode (n.qcfg q).owner (a.item.arg 0) 8 = 0)
    (hepoch : a.item.arg 1 % 65536 = (n.client c).epoch) (hfree : n.readLe (n.qcfg q).owner (a.item.arg 0) 8 = 0)
    (hroom : n.store.locks.length < 65536) :
    n.acquire q c a =
      let o := (n.qcfg q).owner
      let m := (n.storeAt o (a.item.arg 0) (natLe 8 (lockWord c n.now)) (allBytes 8)).served o (a.item.arg 0) n.clk 0
      let k : Lock := { owner := o, addr := a.item.arg 0, client := c, value := lockWord c n.now }
      ({ m with store := { m.store with locks := m.store.locks ++ [k] } }).doneM q a (done 0) := by
  simp only [Node.acquire, hal, hcode, hepoch, hfree, Nat.not_le.mpr hroom, ne_eq, not_true, if_false]

/-- Settles O20: the word is free, held or in reach as the statement says, and the bandwidth is there. -/
theorem lockAndLeaseResults : Obligations.LockAndLeaseResults := by
  refine ⟨?acquire, ?release, ?amo, ?lapse, ?grant⟩
  case acquire =>
    intro s q a c
    dsimp only
    intro h hfl hal hcode hepoch hfree hroom
    have hop : (a.item.op == 0x1D) = false := by rw [mHead_op h.head]; rfl
    dsimp only [exec, execLockAcquire]
    rw [wordStep_of h (by rw [hfl]; rfl), Node.wordItem, itemClient_drew, h.client, h.queue]
    dsimp only
    rw [hop, hfl, acquire_free hal hcode hepoch hfree hroom]
    simp only [Bool.false_eq_true, if_false, lockWord]
  case release =>
    intro s q a c l
    dsimp only
    intro h hfl hal hlock hcode
    have hop : (a.item.op == 0x1D) = false := by rw [mHead_op h.head]; rfl
    dsimp only [exec, execLockRelease]
    rw [wordStep_of h hfl, Node.wordItem, itemClient_drew, h.client, h.queue]
    dsimp only
    rw [hop, hfl, Node.release]
    dsimp only
    rw [if_neg (not_not_intro hal), hlock]
    dsimp only
    rw [hcode]
    rfl
  case amo =>
    intro s q a c
    dsimp only
    intro h hal hcode
    have hop : (a.item.op == 0x1D) = true := by rw [mHead_op h.head]; rfl
    dsimp only [exec, execStoreAmo]
    rw [wordStep_of h rfl, Node.wordItem, itemClient_drew, h.client, h.queue]
    dsimp only
    have hcodes : firstCode [codeIf (decide (a.item.arg 0 % amoWidth (a.item.iflags % 32) ≠ 0)) 0x0162,
        (drew s.node c 8).wordCode ((drew s.node c 8).qcfg q).owner (a.item.arg 0) (amoWidth (a.item.iflags % 32))] = 0 := by
      simp [firstCode, codeIf, hal, hcode]
    rw [hop, if_pos rfl, Node.itemAmo]
    dsimp only
    rw [hcodes]
    rfl
  case lapse =>
    intro s c hlive hpast
    dsimp only [exec, execLeaseLapse]
    rw [hlive, decide_eq_true hpast]
    rfl
  case grant =>
    intro s c id size rest
    dsimp only
    intro hwait hup hlim hroom
    dsimp only [exec, execStoreBandwidthGrant]
    generalize (s.node.fillClient c.val).dropEnded c.val = n at *
    have hgo : (n.limited c.val && decide ((n.client c.val).tokens < size)) = false := by
      rw [limited_eq]
      by_cases h : fld (n.reg .cliBw c.val) 0 16 ≠ 0
      · rw [decide_eq_false (Nat.not_lt.mpr (hlim h)), Bool.and_false]
      · rw [decide_eq_false h, Bool.false_and]
    have htok : (if n.limited c.val then (n.client c.val).tokens - size else (n.client c.val).tokens)
        = if fld (n.reg .cliBw c.val) 0 16 ≠ 0 then (n.client c.val).tokens - size else (n.client c.val).tokens := by
      rw [limited_eq]
      exact if_congr decide_eq_true_iff rfl rfl
    rw [hwait]
    dsimp only
    rw [hup, hgo, hroom, htok]
    refine ⟨fun w hw => ?_, fun a hw ha => ?_⟩
    · rw [hw]
      rfl
    · rw [hw, ha]
      rfl

end Sys2Proof.Machine

/-! ## Cassettes, admission and synchronisation items (05 R149-R161, 13 R405-R432) -/

namespace Sys2Proof.Machine
open Sys2Proof.Claims

/-- Settles O22: the slot, the image, the batch or the tile is as the statement says. -/
theorem cassetteResults : Obligations.CassetteResults := by
  refine ⟨?load, ?loaded, ?unload, ?shift, ?run, ?start, ?done, ?window⟩
  case load =>
    intro s q a b hq hb
    dsimp only [exec, execModelLoad]
    rw [runM_some _ _ _ _ _ hq, hb]
    rfl
  case loaded =>
    intro s i a m
    dsimp only
    intro hx hitem hup hresets
    have hnone : (s.node.mgt.resets.any fun r => r.begun) = false := any_eq_false_of_forall hresets
    dsimp only [exec, execModelLoadDone]
    rw [hx, hup, hnone, hitem]
    refine ⟨fun k code hk => ?_, fun c code hc => ?_, fun code h1 h2 h3 => ?_⟩
    · simp only [Node.takeImage, hk, if_true]
      rfl
    · simp only [Node.takeImage, hc, if_true]
      rfl
    · have hcode : Option.filter imageFailure (some code) = some code := by simp [imageFailure, h1, h2, h3]
      simp only [Node.takeImage, hcode, Bool.false_eq_true, if_false]
      rfl
  case unload =>
    intro s q a
    dsimp only
    intro hq hown hstate
    dsimp only [exec, execModelUnload]
    have hst : ((s.node.slot (a.item.arg 0 % 64)).state != 2 && (s.node.slot (a.item.arg 0 % 64)).state != 4) = false := by
      rcases hstate with h | h <;> rw [h] <;> rfl
    rw [runM_some _ _ _ _ _ hq, hown, hst, bne_self_eq_false]
    rfl
  case shift =>
    intro s th f t x m
    dsimp only
    intro hR hown hstate hm
    dsimp only [exec, execCasShift]
    refine f4_done (rs := []) hR rfl ?_
    simp only [hown, hstate, bne_self_eq_false, Bool.false_eq_true, if_false]
    rw [hm]
    rfl
  case run =>
    intro s th f t x m
    dsimp only
    intro hR hown h1 h2 hstg hin hout hw1 hw2
    dsimp only [exec, execCasRun]
    have hargs : (!x.slotRefs.contains (f.imm.toNat % 64) || decide (t.reg f.rc < 1) || decide (4096 < t.reg f.rc)
        || (bitAt f.fl.toNat 2 && (!x.staged || t.reg f.rc != 1))) = false := by
      simp only [hown, decide_eq_false (Nat.not_lt.mpr h1), decide_eq_false (Nat.not_lt.mpr h2), Bool.not_true, Bool.false_or]
      cases hb : bitAt f.fl.toNat 2
      · rfl
      · obtain ⟨hs, hk⟩ := hstg hb
        rw [hs, hk]
        rfl
    have hcode : (if bitAt f.fl.toNat 2 = true then 0 else t.operandCode (bitAt f.fl.toNat 0) (t.reg f.ra)
        (if bitAt f.fl.toNat 0 then t.reg f.rc * (readModel (s.node.slot (f.imm.toNat % 64)).image).inStride else 1)
        (elemAlign (readModel (s.node.slot (f.imm.toNat % 64)).image).inFmt)) = 0 := by
      cases hb : bitAt f.fl.toNat 2
      · exact hin hb
      · rfl
    refine ⟨fun hst hm => f4_done (rs := [f.ra, f.rb, f.rc]) hR rfl ?_, fun hst => f4_done (rs := [f.ra, f.rb, f.rc]) hR rfl ?_⟩
    · simp only [hargs, hcode, hout, hw1, hw2, beq_false_of_ne hst, Bool.or_self, check_zero, await_false, Bool.false_eq_true, if_false]
      rw [hm]
    · simp only [hargs, hcode, hout, hw1, hw2, hst, Bool.or_self, check_zero, await_false, Bool.false_eq_true, beq_self_eq_true, if_false, if_true]
  case start =>
    intro s t hb hup hpll hret
    dsimp only [exec, execCassetteBatchStart]
    rw [hb, hup, hpll, hret]
    rfl
  case done =>
    intro s t b hb hup k hk
    dsimp only [exec, execCassetteBatchDone]
    rw [hb]
    dsimp only
    rw [hup, hk]
    rfl
  case window =>
    intro s t h
    dsimp only [exec, execCassetteWindow]
    rw [h, if_pos rfl]

/-- Settles O23: the queue, the line, the bucket or the gate is as the statement says. -/
theorem admissionResults : Obligations.AdmissionResults := by
  refine ⟨?fetch, ?timeout, ?query, ?admitItem, ?dispatch, ?refill, ?opens, ?closes⟩
  case fetch =>
    intro s q sl res hdue
    dsimp only [exec, execDescriptorFetch]
    rw [hdue]
    refine ⟨fun hhost hres hlen => ?_, fun hhost => ?_⟩
    · rw [hhost, hres]
      exact if_pos hlen
    · rw [hhost]
      rfl
  case timeout =>
    intro s q hhost hdue hpast
    dsimp only [exec, execRingDmaTimeout]
    rw [hhost, hdue, hpast]
    rfl
  case query =>
    intro s q i rest hitems hop hnew hup hcheck hburst
    dsimp only [exec, execQuery]
    rw [hitems]
    dsimp only
    rw [hop, hnew, hup, hcheck, hburst]
    rfl
  case admitItem =>
    intro s m hup hm
    dsimp only [exec, execItemAdmit]
    rw [hup, hm]
    rfl
  case dispatch =>
    intro s m hup hm
    dsimp only [exec, execItemDispatch]
    rw [hup, hm]
    rfl
  case refill => exact fun _ => rfl
  case opens =>
    intro s
    dsimp only
    intro hw
    dsimp only [exec, execGateOpen]
    rw [if_neg (Nat.not_lt.mpr hw)]
  case closes =>
    intro s hopen hpast
    dsimp only [exec, execGateClose]
    rw [hopen, decide_eq_true hpast]
    rfl

/-- Settles O24: the item is at the head of its line, and its object is of the type that the statement says. -/
theorem syncItemResults : Obligations.SyncItemResults := by
  refine ⟨?create, ?destroy, ?signal⟩
  case create =>
    intro s q a i
    dsimp only
    intro hq h0 h1 h2 hfree hfull
    have hok : syncBad a.item = false := by
      simp only [syncBad, Bool.or_eq_false_iff, Bool.and_eq_false_imp, beq_iff_eq, decide_eq_false_iff_not, Nat.not_le, Nat.not_lt]
      exact ⟨⟨h0, h1⟩, h2⟩
    dsimp only [exec, execSyncCreate]
    rw [runM_some _ _ _ _ _ hq, hok, hfree, hfull]
    simp only [beq_iff_eq]
    rfl
  case destroy =>
    intro s q a i x hq hx
    dsimp only [exec, execSyncDestroy]
    rw [runM_some _ _ _ _ _ hq, hx]
  case signal =>
    intro s q a i x hq hx
    dsimp only [exec, execSyncSignal]
    rw [runM_some _ _ _ _ _ hq, hx]
    dsimp only
    refine ⟨fun ht => ?_, fun h => ?_⟩
    · rw [if_neg (by simp [ht, Sync.postOk]), if_pos (beq_iff_eq.mpr ht)]
    · have hne : x.type ≠ 2 ∧ x.type ≠ 1 ∧ x.postOk (a.item.arg 1) = true := by
        rcases h with ⟨ht, h1, h2, h3⟩ | ht
        · simpa [ht, Sync.postOk, semCount, h1] using And.intro h2 h3
        · simp [ht, Sync.postOk]
      obtain ⟨h2, h1, hpost⟩ := hne
      rw [if_neg (by simp [h2, hpost]), if_neg (by simp [h1])]

end Sys2Proof.Machine

/-! ## Steps, reset and the fields of a word -/

namespace Sys2Proof.Machine
open Sys2Proof.Claims

/-- The tick of a node by its node time. -/
theorem tick_eq {n : Node} {t : Nat} (h : (if n.mgt.timeHold.isSome then n.mgt.timeNs else (n.mgt.timeNs + 1) % 2 ^ 64) = t) :
    State.tick { node := n, pending := [] } = { node := { n with clk := n.clk + 1, mgt := { n.mgt with timeNs := t } }, pending := [] } := by
  rw [← h]
  rfl

/-- Settles O44: by the two cases of the queue, and whether node time is held. -/
theorem stepRunsFrontCommand : Obligations.StepRunsFrontCommand :=
  ⟨fun _ _ _ => rfl, fun _ h => congrArg Host.Outcome.next (tick_eq (by rw [h]; rfl)),
    fun _ _ h => congrArg Host.Outcome.next (tick_eq (by rw [h]; rfl))⟩

/-- Settles O47: after reset nothing is stored, so a register reads its reset value; the fields are a small table. -/
theorem resetState : Obligations.ResetState := by
  have hreg (i : Nat) (n : RegName) : State.reset.node.reg n i = regReset n := rfl
  have hfields : ∀ p ∈ resetFields, fld (regReset p.1) p.2.1 p.2.2.1 = p.2.2.2 := by decide +kernel
  exact ⟨rfl, rfl, rfl, rfl, fun i p hp => hreg i p.1 ▸ hfields p hp, hreg, rfl, fun t => if_neg (Nat.succ_ne_zero _)⟩

/-! ### Words (06 Table 6.7) -/

theorem fld_toNat {n : Nat} (x : BitVec n) (lo w : Nat) : fld x.toNat lo w = (x.extractLsb' lo w).toNat := rfl

/-- A field above a boundary is one of the upper part; one below it, of the lower part. -/
theorem fld_append_high {n m : Nat} {a : BitVec n} {b : BitVec m} {lo w : Nat} (h : m ≤ lo) : fld (no_index (a ++ b)).toNat lo w = fld a.toNat (lo - m) w := by
  rw [fld_toNat, BitVec.extractLsb'_append_eq_of_le h]
  rfl

theorem fld_append_low {n m : Nat} {a : BitVec n} {b : BitVec m} {lo w : Nat} (h : lo + w ≤ m) : fld (no_index (a ++ b)).toNat lo w = fld b.toNat lo w := by
  rw [fld_toNat, BitVec.extractLsb'_append_eq_of_add_le h]
  rfl

theorem fld_whole {w : Nat} (x : BitVec w) : fld x.toNat 0 w = x.toNat := by
  rw [fld_toNat, BitVec.extractLsb'_eq_self]

/-- Settles O52: by the place of each field in the concatenation; the two words are evaluated. -/
theorem fieldsOfAWord : Obligations.FieldsOfAWord := by
  refine ⟨?f1, ?f2, ?f3, ?f4, ?f5, by decide, by decide⟩
  case f1 =>
    intro op fn f
    simp [encF1, fld_append_high, fld_append_low, fld_whole, -BitVec.toNat_ofNat]
    exact ⟨BitVec.toNat_ofNat op 7, BitVec.toNat_ofNat fn _⟩
  case f2 =>
    intro op fn f
    simp [encF2, fld_append_high, fld_append_low, fld_whole, -BitVec.toNat_ofNat]
    exact ⟨BitVec.toNat_ofNat op 7, BitVec.toNat_ofNat fn _⟩
  case f3 =>
    intro op fn f
    simp [encF3, fld_append_high, fld_append_low, fld_whole, -BitVec.toNat_ofNat]
    exact ⟨BitVec.toNat_ofNat op 7, BitVec.toNat_ofNat fn _⟩
  case f4 =>
    intro op fn f
    simp [encF4, fld_append_high, fld_append_low, fld_whole, -BitVec.toNat_ofNat]
    exact ⟨BitVec.toNat_ofNat op 7, BitVec.toNat_ofNat fn _⟩
  case f5 =>
    intro op fn f
    simp [encF5, fld_append_high, fld_append_low, fld_whole, -BitVec.toNat_ofNat]
    exact ⟨BitVec.toNat_ofNat op 7, BitVec.toNat_ofNat fn _⟩

end Sys2Proof.Machine

/-! ## Links: lanes, flits and replay (11 R336-R349) -/

namespace Sys2Proof.Machine
open Sys2Proof.Claims

theorem setPort_setPort (n : Node) (k : Nat) (x y : Port) : (n.setPort k x).setPort k y = n.setPort k y := by
  simp only [Node.setPort, KList.put_put]

/-- Two changes of one port are one. -/
theorem onPort_onPort (p : Fin 16) (f g : Node → Port → Port) (n : Node) :
    onPort p g (onPort p f n) = n.setPort p.val (g (onPort p f n) (f n (n.port p.val))) := by
  conv_lhs => unfold onPort
  rw [Node.setPort_port, if_pos rfl, setPort_setPort]
  rfl

theorem live_of {x : Port} (h : 3 ≤ x.state) : x.live = true := decide_eq_true h

theorem flitCode_bad {x : Port} {b : Bytes} (h : ¬ (b.length = 640 ∧ getLe b 636 4 = crc32c (slice b 0 636))) : x.flitCode b = some 3 := by
  rw [Port.flitCode, if_pos]
  rw [Bool.or_eq_true, bne_iff_ne, bne_iff_ne]
  exact not_and_or.mp h

/-- A whole flit passes if its tag does. -/
theorem flitCode_whole {x : Port} {b : Bytes} (h : b.length = 640 ∧ getLe b 636 4 = crc32c (slice b 0 636)) :
    x.flitCode b = if (gcmOpen (KList.getD x.rxKeys (b2n (readHead b).keyPhase) []) (headIv b) (slice b 0 32) (slice b 32 576) (slice b 608 16)).isNone
      then some 4 else none := by
  obtain ⟨hlen, hcrc⟩ := h
  rw [Port.flitCode, if_neg]
  rw [Bool.or_eq_true, bne_iff_ne, bne_iff_ne, ← hlen, ← hcrc]
  simp

/-- What a codeword that decodes does, by the check that fails. -/
theorem codeword_decoded {n : Node} {p : Fin 16} (c : Nat) (l : List Nat) (b : Bytes) (h : 3 ≤ (n.port p.val).state) :
    n.codeword p.val c l true b = match (n.port p.val).flitCode b with
      | some k => onPort p (fun _ x => ({ x with rxCount := c % 4096 } : Port).count k)
          (onPort p (fun _ x => ({ x with rxCount := c % 4096 } : Port).count 6 (sumN l)) n)
      | none => (onPort p (fun _ x => ({ x with rxCount := c % 4096 } : Port).count 6 (sumN l)) n).flitGood p.val b := by
  have hcode : (({ (n.port p.val) with rxCount := c % 4096 } : Port).count 6 (sumN l)).flitCode b = (n.port p.val).flitCode b := rfl
  simp only [Node.codeword, live_of h, hcode, Bool.not_true, Bool.false_eq_true, if_false]
  cases (n.port p.val).flitCode b with
  | some k =>
    dsimp only
    rw [onPort_onPort]
    rfl
  | none => rfl

theorem flitGood_eq (n : Node) (p : Nat) (b : Bytes) : n.flitGood p b = match getLe b 0 1 % 16 with
    | 0 | 3 => n.flitIn p (readHead b)
    | 1 | 2 => (n.flitIn p (readHead b)).sequenced p (readHead b)
    | 4 => if (readHead b).replayReq then (n.flitIn p (readHead b)).replay p else n.flitIn p (readHead b)
    | _ => n := by
  unfold Node.flitGood
  split <;> simp [*]

/-- Settles O29: the port is in the state that the command needs, and of a codeword each check passes or fails as stated. -/
theorem linkDataResults : Obligations.LinkDataResults := by
  refine ⟨fun _ _ _ _ => rfl, fun _ _ _ _ => rfl, ?laser, ?spare, ?width, fun _ _ _ _ => rfl, fun _ _ _ _ => rfl, ?data, ?ack, ?idle, ?codeword, ?timer, ?replay⟩
  case laser =>
    intro p l
    refine ⟨fun ⟨v, hv, h⟩ s _ => ?_, fun h s _ => ?_⟩
    · dsimp only [exec, execLaserPowerSample]
      rw [if_neg]
      · rfl
      · rw [List.all_eq_true]
        intro hall
        exact absurd (of_decide_eq_true (hall v hv)) (Nat.not_lt.mpr h)
    · dsimp only [exec, execLaserPowerSample]
      rw [if_pos (List.all_eq_true.mpr fun v hv => decide_eq_true (h v hv))]
      rfl
  case spare =>
    intro p m hl s h
    dsimp only [exec, execSpare]
    rw [if_pos (by simp [h, hl])]
    rfl
  case width =>
    intro p m hl s h
    dsimp only [exec, execWidth]
    rw [if_pos (by simp [h, hl])]
    rfl
  case data =>
    intro p f s h
    dsimp only [exec, execDataFlit]
    rw [if_pos (live_of h)]
  case ack =>
    intro p f s h
    dsimp only [exec, execAckFlit]
    rw [if_pos (live_of h)]
  case idle =>
    intro p f s h
    dsimp only [exec, execIdleFlit]
    rw [if_pos (live_of h)]
  case codeword =>
    intro p c l b₀ b₁ b₂ b₃
    dsimp only
    refine ⟨fun s h => ?_, fun s ⟨h, hbad⟩ => ?_, fun s ⟨h, hwhole, hopen⟩ => ?_, fun s ⟨h, hwhole, hopen⟩ => ?_⟩ <;>
      dsimp only [exec, execCodewordReceive] <;> generalize b₀ ++ b₁ ++ b₂ ++ b₃ = b at *
    · rw [Node.codeword]
      simp only [live_of h, Bool.not_true, Bool.not_false, Bool.false_eq_true, if_true, if_false]
      rfl
    · rw [codeword_decoded c l b h, flitCode_bad hbad]
    · rw [codeword_decoded c l b h, flitCode_whole hwhole, hopen]
      rfl
    · rw [codeword_decoded c l b h, flitCode_whole hwhole, if_neg (by rw [← Option.not_isSome, hopen]; exact Bool.false_ne_true)]
      exact congrArg s.settled (flitGood_eq _ _ _)
  case timer =>
    intro p s ⟨h, hdue⟩
    dsimp only [exec, execAckTimer]
    rw [live_of h, hdue]
    rfl
  case replay =>
    intro p t s ⟨ht, hpast⟩
    dsimp only [exec, execReplayTimeout]
    rw [ht]
    exact congrArg s.settled (if_pos (decide_eq_true hpast))

end Sys2Proof.Machine

/-! ## Links: keys, bring-up and time (11 R353-R361, 15 R502) -/

namespace Sys2Proof.Machine
open Sys2Proof.Claims

theorem passed_of {n : Node} {t us : Nat} (h : t + us * 1000 ≤ n.clk) : n.passed t us = true := decide_eq_true h

theorem not_passed_of {n : Node} {t us : Nat} (h : n.clk < t + us * 1000) : n.passed t us = false := decide_eq_false (Nat.not_le.mpr h)

/-- Settles O30: the port is in the state that the command needs, within its time. -/
theorem linkControlResults : Obligations.LinkControlResults := by
  refine ⟨?start, ?first, ?turn, ?fail, ?cert, ?neigh, ?light, ?train, ?key, ?neighbour, ?up, ?step, ?retry, ?exchange, ?sync, ?follow, ?req, ?resp, ?hold⟩
  case start =>
    intro p s ⟨hst, hctr⟩
    dsimp only [exec, execRekeyStart]
    rw [if_pos (by simp [hst, hctr])]
  case first =>
    intro p q src sport s hst
    dsimp only [exec, execRekey]
    rw [beq_iff_eq.mpr hst]
    rfl
  case turn =>
    intro p b q src sport s ⟨hst, hph⟩
    dsimp only [exec, execRekey]
    rw [hst, bne_iff_ne.mpr hph.symm]
    rfl
  case fail =>
    intro p s ⟨hst, hctr⟩
    dsimp only [exec, execRekeyFail]
    rw [hst, decide_eq_true hctr]
    rfl
  case cert =>
    intro p i c ok s ⟨hst, hi⟩
    dsimp only [exec, execLcert]
    rw [if_neg (by simp [hst]), if_neg (by simp [hi])]
    rfl
  case neigh =>
    intro p x k t d hk s hst
    dsimp only [exec, execNeigh]
    rw [if_neg (by simp [Nat.not_lt.mpr hst, hk])]
    rfl
  case light =>
    intro p rx s ⟨hst, hretry, hen, hlinks, hready, htx, hrx⟩
    dsimp only [exec, execPortLight]
    rw [if_pos (by simp [hst, hretry, hen, hlinks, hready, htx, hrx])]
    rfl
  case train =>
    intro p e he s ⟨hst, hclk⟩
    dsimp only [exec, execPortTrain]
    rw [hst, decide_eq_true he, not_passed_of hclk]
    rfl
  case key =>
    intro p s ⟨hst, hclk⟩
    dsimp only [exec, execPortKey]
    rw [hst, not_passed_of hclk]
    rfl
  case neighbour =>
    intro p s ⟨hst, hcert, hkey, hclk⟩
    dsimp only [exec, execPortNeigh]
    rw [if_pos (by simp [hst, hcert, hkey, not_passed_of (us := 20000) hclk])]
    rfl
  case up =>
    intro p s ⟨hst, hnb, hclk, hen⟩
    dsimp only [exec, execPortUp]
    rw [if_pos (by simp [hst, hnb, not_passed_of (us := 1000) hclk, hen])]
    rfl
  case step =>
    intro p s ⟨h1, h4, hpast⟩
    dsimp only [exec, execPortStepTimeout]
    rw [decide_eq_true h1, decide_eq_true h4, hpast]
    rfl
  case retry =>
    intro p t s ⟨hretry, hst, ht⟩
    dsimp only [exec, execPortRetry]
    rw [hretry]
    dsimp only
    rw [hst, decide_eq_true ht]
    rfl
  case exchange =>
    intro p s hst
    dsimp only [exec, execTimeExchange]
    rw [beq_iff_eq.mpr hst]
    rfl
  case sync =>
    intro p k t s hst
    dsimp only [exec, execSync]
    rw [beq_iff_eq.mpr hst]
    rfl
  case follow =>
    intro p k t t' s ⟨hst, hk⟩
    dsimp only [exec, execFollowUp]
    rw [if_pos (by simp [hst, hk])]
    rfl
  case req =>
    intro p k t s hst
    dsimp only [exec, execDelayReq]
    rw [beq_iff_eq.mpr hst]
    rfl
  case resp =>
    intro s p k t4
    dsimp only
    intro hst hk
    dsimp only [exec, execDelayResp]
    rw [hst, hk, bne_self_eq_false, bne_self_eq_false]
    refine ⟨fun hen hp => ?_, fun hno => ?_⟩
    · rw [hen, hp, beq_self_eq_true]
      rfl
    · rw [Bool.or_self, if_neg Bool.false_ne_true, if_neg]
      rcases hno with h | h <;> simp [h]
  case hold =>
    intro t s ⟨hh, ht⟩
    dsimp only [exec, execTimeHoldEnd]
    rw [hh, decide_eq_true ht]
    rfl

end Sys2Proof.Machine

/-! ## Fabric memory, windows, jobs and routes (12 R365-R381, R399) -/

namespace Sys2Proof.Machine
open Sys2Proof.Claims

/-- A packet that arrives is taken. -/
theorem arrive_of {s : State} {p : Packet} (f : Node → Node) (h : Arrives s.node p) : s.arrive p f = s.settled (f s.node) := by
  obtain ⟨hport, hdst, hup⟩ := h
  exact arrive_here s p f hport hdst hup

theorem checked_of {n : Node} {p : Packet} (f : Node → Node) (h : n.stale p = false) : n.checked p f = f n := by
  rw [Node.checked, h, if_neg Bool.false_ne_true]

/-- Where nothing waits for the journal, a write or an atomic is served at once. -/
theorem serveNext_first {n : Node} (p : Packet) (h : n.fabric.held = []) : n.serveNext p = if p.ptype == 7 then n.serveAmo p else n.serveWrite p := by
  have hn : ({ n with fabric := { n.fabric with held := [] } } : Node) = { n with fabric := { n.fabric with held := n.fabric.held } } := by rw [h]
  have hn : ({ n with fabric := { n.fabric with held := [] } } : Node) = n := hn
  have hbehind : n.behind p = false := by rw [Node.behind, h]; rfl
  simp only [Node.serveNext, Node.serveHeld, h, List.nil_append, List.foldl_cons, List.foldl_nil, hn, hbehind, Bool.false_eq_true, if_false]

theorem serveNext_wr {n : Node} {p : Packet} (h : n.fabric.held = []) (ht : p.ptype = 3) :
    n.serveNext p = n.arrivingWrite p 2 fun n => n.answer p 4 0 [] false := by
  rw [serveNext_first _ h, if_neg (by simp [ht]), Node.serveWrite, if_neg (by simp [ht])]

theorem serveNext_pwr {n : Node} {p : Packet} (h : n.fabric.held = []) (ht : p.ptype = 5) :
    n.serveNext p = n.arrivingWrite p 4 fun n => n.postedDone p := by
  rw [serveNext_first _ h, if_neg (by simp [ht]), Node.serveWrite, if_pos (by simp [ht])]

theorem serveNext_amo {n : Node} {p : Packet} (h : n.fabric.held = []) (ht : p.ptype = 7) : n.serveNext p = n.serveAmo p := by
  rw [serveNext_first _ h, if_pos (by simp [ht])]

/-- An answer does not depend on the type of its request. -/
theorem answer_ptype (n : Node) (p : Packet) (k t st : Nat) (b : Bytes) (x : Bool) :
    n.answer { p with ptype := k } t st b x = n.answer p t st b x := rfl

theorem not_nodePort {p : Packet} (h : p.addr < 0xF00000000000) : ¬ portBase ≤ p.addr := Nat.not_le.mpr h

/-- An admitted write with room is stored. -/
theorem arrivingWrite_room {n : Node} {p : Packet} {bit o a : Nat} (ok : Node → Node) (haddr : p.addr < 0xF00000000000)
    (hadmit : n.admitReq p bit true = .ok (o, a)) (hroom : n.storeRoom o a p.len = true) :
    n.arrivingWrite p bit ok = ok ((n.storeAt o a p.data (allBytes p.data.length)).served o a n.clk 0) := by
  rw [Node.arrivingWrite, if_neg (not_nodePort haddr), hadmit]
  exact if_pos hroom

/-- What a response leads to. -/
theorem responds_of {c : Packet → Instr} {ptype : Nat} {g : Packet → Node → Nat → Access → Node}
    (h : ∀ p s, exec (c p) s = s.respond p ptype (g p)) : Responds c ptype g := by
  intro p r id a s ⟨harr, hr, hfail, hacc, ha⟩
  rw [h, State.respond, arrive_of _ harr, hr]
  dsimp only
  rw [hfail, hacc]
  dsimp only
  rw [ha]
  rfl

theorem reqTimeout_of {s : State} {k : Nat} {r : Request} {posted : Bool} (hr : KList.find? s.node.fabric.reqs k = some r)
    (hkind : (r.ptype == 5) = posted) (hpast : s.node.passed r.issued s.node.tgtUs = true) :
    s.reqTimeout k posted = s.settled (s.node.failReq k 0x0603 1).tagFreed := by
  rw [State.reqTimeout, hr]
  dsimp only
  rw [hkind, hpast, beq_self_eq_true]
  rfl

/-- Settles O31: the packet arrives, and is admitted, waits, answers or is past its time as stated. -/
theorem fabricMemoryResults : Obligations.FabricMemoryResults := by
  refine ⟨?forward, ?rd, ?wr, ?pwr, ?amo, ?held, ?wrNext, ?pwrNext, ?amoNext, ?acks, responds_of fun _ _ => rfl, responds_of fun _ _ => rfl,
    responds_of fun _ _ => rfl, ?ack, ?note, ?target, ?posted⟩
  case forward =>
    intro p s ⟨hport, hdst⟩
    dsimp only [exec, execRd]
    exact arrive_other s p _ hport hdst
  case rd =>
    intro p o a b s ⟨harr, hstale, haddr, hadmit, hread⟩
    dsimp only [exec, execRd]
    rw [arrive_of _ harr, checked_of _ hstale, if_neg (not_nodePort haddr), hadmit]
    dsimp only
    generalize s.node.tierRead { owner := o, tile := 0, due := false } a p.len = x at hread ⊢
    obtain ⟨r, m⟩ := x
    obtain rfl : r = .ok b := hread
    rfl
  case wr =>
    intro p o a s ⟨⟨harr, hstale, haddr, hheld⟩, hadmit, hroom⟩
    dsimp only [exec, execWr]
    have hadmit' : s.node.admitReq { p with ptype := 3 } 2 true = .ok (o, a) := hadmit
    rw [arrive_of _ harr, checked_of _ hstale, serveNext_wr hheld rfl, arrivingWrite_room (p := { p with ptype := 3 }) _ haddr hadmit' hroom]
    rfl
  case pwr =>
    intro p o a s ⟨⟨harr, hstale, haddr, hheld⟩, hadmit, hroom⟩
    dsimp only [exec, execPwr]
    have hadmit' : s.node.admitReq { p with ptype := 5 } 4 true = .ok (o, a) := hadmit
    rw [arrive_of _ harr, checked_of _ hstale, serveNext_pwr hheld rfl, arrivingWrite_room (p := { p with ptype := 5 }) _ haddr hadmit' hroom]
    rfl
  case amo =>
    intro p o a s ⟨⟨harr, hstale, haddr, hheld⟩, hadmit, hcode, hroom⟩
    dsimp only [exec, execAmoPacket]
    have hadmit' : s.node.admitReq { ({ p with ptype := 7 } : Packet) with len := amoWidth p.status } 3 true = .ok (o, a) := hadmit
    rw [arrive_of _ harr, checked_of _ hstale, serveNext_amo hheld rfl, Node.serveAmo, if_neg (not_nodePort haddr), hadmit']
    dsimp only
    simp only [hcode, hroom, answer_ptype, bne_self_eq_false, Bool.not_true, Bool.false_eq_true, if_false]
  case held =>
    intro p o a s ⟨⟨harr, hstale, haddr, hheld⟩, hadmit, hroom⟩
    dsimp only [exec, execWr]
    have hadmit' : s.node.admitReq { p with ptype := 3 } 2 true = .ok (o, a) := hadmit
    rw [arrive_of _ harr, checked_of _ hstale, serveNext_wr hheld rfl, Node.arrivingWrite, if_neg (not_nodePort haddr), hadmit']
    dsimp only
    rw [hroom, hheld]
    rfl
  case wrNext =>
    intro p s ⟨harr, hstale⟩
    dsimp only [exec, execWr]
    rw [arrive_of _ harr, checked_of _ hstale]
  case pwrNext =>
    intro p s ⟨harr, hstale⟩
    dsimp only [exec, execPwr]
    rw [arrive_of _ harr, checked_of _ hstale]
  case amoNext =>
    intro p s ⟨harr, hstale⟩
    dsimp only [exec, execAmoPacket]
    rw [arrive_of _ harr, checked_of _ hstale]
  case acks =>
    intro p x l s ⟨hl, hpast⟩
    dsimp only [exec, execPwrAckTimer]
    rw [hl]
    exact congrArg s.settled (if_pos (passed_of hpast))
  case ack =>
    intro p s harr
    dsimp only [exec, execPwrAck]
    exact arrive_of _ harr
  case note =>
    intro p r id s ⟨harr, hr, hacc⟩
    dsimp only [exec, execFaultNote]
    rw [arrive_of _ harr, hr]
    dsimp only
    rw [hacc]
  case target =>
    intro k r s ⟨hr, hkind, hpast⟩
    dsimp only [exec, execTargetTimeout]
    exact reqTimeout_of hr (beq_false_of_ne hkind) hpast
  case posted =>
    intro k r s ⟨hr, hkind, hpast⟩
    dsimp only [exec, execPostedWriteTimeout]
    exact reqTimeout_of hr (beq_iff_eq.mpr hkind) hpast

/-- Settles O32: the item is at the head of its line, and its window, job or route may be set. -/
theorem fabricItemResults : Obligations.FabricItemResults := by
  refine ⟨?create, ?grant, ?remove, ?start, ?stop, ?route⟩
  case create =>
    intro q a i b s ⟨hq, hfwd, hok, hjob, hover, hfree⟩
    have hlent : (a.item.fwd && windowOk b && s.node.lentHere (readWindow b)) = false := by
      rcases hfwd with h | h <;> simp [h]
    have hnone : (s.node.fabric.windows.any fun x => x.2.overlaps (readWindow b)) = false := any_eq_false_of_forall hover
    dsimp only [exec, execWindowCreate]
    rw [runM_some _ _ _ _ _ hq, hlent, hok, hjob, hnone, hfree]
    rfl
  case grant =>
    intro q a w s ⟨hq, hfwd, hok, hlent⟩
    dsimp only [exec, execWindowCreate]
    rw [runM_some _ _ _ _ _ hq, hfwd, hok, hlent]
    rfl
  case remove =>
    intro q a w i s ⟨hq, hw⟩
    dsimp only [exec, execWindowRemove]
    rw [runM_some _ _ _ _ _ hq, hw]
  case start =>
    intro q a
    dsimp only
    intro s ⟨hq, hj, hnone, hroom⟩
    dsimp only [exec, execJobStart]
    rw [runM_some _ _ _ _ _ hq, if_neg (by simp [hj, hnone]), if_neg (Nat.not_le.mpr hroom)]
  case stop =>
    intro q a j s ⟨hq, hj⟩
    dsimp only [exec, execJobStop]
    rw [runM_some _ _ _ _ _ hq, ← Option.not_isSome, hj]
    rfl
  case route =>
    intro q a s hq
    exact runM_some _ _ _ _ _ hq

end Sys2Proof.Machine

/-! ## The peloton (12 R383-R390) -/

namespace Sys2Proof.Machine
open Sys2Proof.Claims

/-! ### Packets leave the membership as it is -/

theorem sendFlit_peloton (n : Node) (p : Nat) (f : OutFlit) : (n.sendFlit p f).peloton = n.peloton := rfl

theorem drainPort_peloton (n : Node) (p fuel : Nat) : (n.drainPort p fuel).peloton = n.peloton := by
  induction fuel generalizing n with
  | zero => rfl
  | succ fuel ih =>
    unfold Node.drainPort
    dsimp only
    split
    · rfl
    · split
      · rw [ih, sendFlit_peloton]
        rfl
      · rfl

theorem tellPort_peloton (n : Node) (p kind : Nat) (b : Bytes) : (n.tellPort p kind b).peloton = n.peloton := by
  unfold Node.tellPort Node.sendOn Node.pushFlit
  dsimp only
  rw [drainPort_peloton]
  rfl

theorem floodPel_peloton (n : Node) (kind : Nat) (f : List Nat) (but : Option Nat) : (n.floodPel kind f but).peloton = n.peloton := by
  unfold Node.floodPel
  generalize (n.upPorts.filter fun p => but != some p) = l
  induction l generalizing n with
  | nil => rfl
  | cons p l ih => rw [List.foldl_cons, ih, tellPort_peloton]

/-- A beacon changes nothing more where the node is not fenced. -/
theorem lifted_of_unfenced {n : Node} (h : n.peloton.fenced = false) :
    (if n.peloton.fenced && n.ownState == 7 then n.requestReset 6 none
      else if n.peloton.fenced then { n with peloton := { n.peloton with fenced := false, state := n.ownState } } else n) = n := by
  rw [if_neg (by simp [h]), if_neg (by simp [h])]

/-! ### Decisions -/

/-- The first decision waits, and it is not one of a node that leaves. -/
theorem leavingDue_of_head {n : Node} {h : Held} {l : List Held} (hl : n.peloton.pending = h :: l) (hk : h.kind ≠ .leaving) (fuel : Nat) :
    n.leavingDue fuel = n := by
  cases fuel with
  | zero => rfl
  | succ fuel =>
    rw [Node.leavingDue, hl]
    exact if_neg (by simp [hk])

/-- The first decision, once it is due, is applied. -/
theorem decision_due {s : State} {kind : DecisionKind} {h : Held} {l : List Held} (f : Held → Node → Node) (hon : s.node.pelOn = true)
    (hl : s.node.peloton.pending = h :: l) (hk : h.kind = kind) (hne : kind ≠ .leaving) (ht : h.te ≤ s.node.now) :
    s.decision kind f = s.settled (f h (s.node.popDecision h)) := by
  rw [State.decision]
  simp only [hon, leavingDue_of_head hl (hk ▸ hne), Bool.not_true, Bool.false_eq_true, if_false]
  rw [hl]
  exact if_pos (by simp [hk, ht])

/-- Settles O33: the message comes in its time, and the decision is first and due. -/
theorem pelotonResults : Obligations.PelotonResults := by
  refine ⟨?miss, ?suspect, ?vote, ?decide, ?sends, ?beat, ?beaconSend, ?beacon, ?fence, ?failed, ?join, ?jobFault, ?function, ?absent⟩
  case miss =>
    intro x s ⟨hon, ⟨p, hp, hup⟩, h0, h7, hnew, hlate⟩
    have hne : (s.node.portsTo x).isEmpty = false := List.isEmpty_eq_false_iff.mpr (List.ne_nil_of_mem hp)
    have hany : ((s.node.portsTo x).any fun p => p.state == 5) = true := List.any_eq_true.mpr ⟨p, hp, beq_iff_eq.mpr hup⟩
    dsimp only [exec, execHeartbeatMiss]
    rw [hon, hne, hany, hnew, beq_false_of_ne h0, beq_false_of_ne h7, decide_eq_true hlate]
    rfl
  case suspect =>
    intro a b c d s hon
    dsimp only [exec, execSuspect]
    rw [if_pos hon]
  case vote =>
    intro a b c d k s ⟨hon, hlead⟩
    dsimp only [exec, execVote]
    rw [hon, hlead]
    rfl
  case decide =>
    intro d s ⟨hon, hup, hseq, hnew⟩
    have hnone : (s.node.peloton.pending.any fun h => h.dseq == d.dseq) = false := any_eq_false_of_forall fun h hh => beq_false_of_ne (hnew h hh)
    dsimp only [exec, execDecide]
    rw [hon, hup, hnone, decide_eq_false (Nat.not_lt.mpr hseq)]
    rfl
  case sends =>
    intro s ⟨hon, hdue⟩
    dsimp only [exec, execHeartbeatSend]
    rw [hon, decide_eq_false (Nat.not_lt.mpr hdue)]
    rfl
  case beat =>
    intro m s ⟨hon, hup, hnew⟩
    dsimp only [exec, execHeartbeat]
    rw [hon, hup, hnew]
    rfl
  case beaconSend =>
    intro s ⟨hon, hlead, hmost, hdue⟩
    dsimp only [exec, execBeaconSend]
    rw [hon, hlead, decide_eq_false (Nat.not_le.mpr hmost), decide_eq_false (Nat.not_lt.mpr hdue)]
    rfl
  case beacon =>
    intro l q d p s ⟨hon, hup, hfree, hseq⟩
    have hnew : (s.node.peloton.leader == some l && decide (q ≤ s.node.peloton.beaconSeq)) = false := by
      simp only [Bool.and_eq_false_imp, beq_iff_eq, decide_eq_false_iff_not, Nat.not_le]
      exact hseq
    dsimp only [exec, execBeacon]
    rw [hon, hup, hnew]
    exact congrArg s.settled (lifted_of_unfenced (by rw [floodPel_peloton]; exact hfree))
  case fence =>
    intro s ⟨hon, hfree, h4, h6, hlate⟩
    dsimp only [exec, execFenceTimeout]
    rw [hon, hfree, decide_eq_true ⟨h4, h6⟩, decide_eq_false (Nat.not_lt.mpr hlate)]
    rfl
  case failed =>
    intro h l s ⟨hon, hl, hk, ht⟩
    dsimp only [exec, execNodeFailedDecision]
    rw [decision_due _ hon hl hk (by decide) ht]
    simp only [bne_iff_ne, beq_iff_eq]
    rfl
  case join =>
    intro h l s ⟨hon, hl, hk, ht⟩
    dsimp only [exec, execJoinDecision]
    rw [decision_due _ hon hl hk (by decide) ht]
    simp only [Bool.and_eq_true, beq_iff_eq]
    rfl
  case jobFault =>
    intro h l s ⟨hon, hl, hk, ht⟩
    dsimp only [exec, execJobFaultDecision]
    rw [decision_due _ hon hl hk (by decide) ht]
  case function =>
    intro h l s ⟨hon, hl, hk, ht⟩
    dsimp only [exec, execFunctionDecision]
    rw [decision_due _ hon hl hk (by decide) ht]
    simp only [beq_iff_eq]
    rfl
  case absent =>
    intro x h l s ⟨hon, hl, hk, hx, ht⟩
    dsimp only [exec, execAbsentDecision]
    rw [hl]
    dsimp only
    rw [if_pos (by simp [hk, hx]), decision_due _ hon hl hk (by decide) ht]
    rw [hx]
    refine congrArg s.settled ?_
    split
    next he =>
      rw [if_pos (beq_iff_eq.mp he)]
      rfl
    next he =>
      rw [if_neg (mt beq_iff_eq.mpr he)]
      rfl

end Sys2Proof.Machine

/-! ## Requests to the leader, roles and copies (12 R389-R397, 13 R411) -/

namespace Sys2Proof.Machine
open Sys2Proof.Claims

/-- Settles O34: the request comes where the peloton is on, or its item is at the head of its line at the leader. -/
theorem membershipRequestResults : Obligations.MembershipRequestResults := by
  refine ⟨?join, ?job, ?function, ?leave, ?swap, ?drain, ?message, ?copied, ?committed, ?append, ?pair, ?replicas, ?itemJoin, ?itemFunction,
    ?itemLeave, ?itemSwap, ?faultOff, ?faultOn⟩
  case join =>
    intro x i f sp s hon
    dsimp only [exec, execJoinRequest]
    rw [if_pos hon]
  case job =>
    intro j t s hon
    dsimp only [exec, execJobFaultRequest]
    rw [if_pos hon]
  case function =>
    intro x f t l v hcode s hon
    dsimp only [exec, execFunctionRequest]
    rw [hon, hcode]
    rfl
  case leave =>
    intro x t s hon
    dsimp only [exec, execLeaveRequest]
    rw [if_pos hon]
  case swap =>
    intro x l r s ⟨hon, hlead, hcode⟩
    dsimp only [exec, execSwapOutRequest]
    rw [hon, hlead, hcode]
    rfl
  case drain =>
    intro sh d s ⟨hd, hpast⟩
    dsimp only [exec, execDrainTimeout]
    rw [hd]
    exact if_pos hpast
  case message =>
    intro m hcopy hcommit s hup
    dsimp only [exec, execShardStream]
    rw [hup]
    cases m with
    | copySealed sh g p => exact absurd rfl (hcopy sh g p)
    | commit sh g => exact absurd rfl (hcommit sh g)
    | _ => rfl
  case copied =>
    intro sh g p s hup
    dsimp only [exec, execShardStream]
    rw [hup]
    rfl
  case committed =>
    intro sh g s hup
    dsimp only [exec, execShardStream]
    rw [hup]
    rfl
  case append =>
    intro sh part b x p s ⟨hup, hx, hp, hroom⟩
    dsimp only [exec, execShardStream]
    rw [hup, Bool.not_true, if_neg Bool.false_ne_true, Node.shardMsg, hx, hp]
    dsimp only
    rw [if_neg (Nat.lt_irrefl _), if_pos (by simp [hroom])]
  case pair =>
    intro q a
    dsimp only
    intro hne s hq
    dsimp only [exec, execShardPair]
    rw [runM_some _ _ _ _ _ hq, if_neg (by simpa using hne)]
  case replicas =>
    intro q a
    dsimp only
    intro s hq
    dsimp only [exec, execReplSet]
    rw [runM_some _ _ _ _ _ hq]
  case itemJoin =>
    intro q a hkind s ⟨hq, hon, hlead⟩
    dsimp only [exec, execPelRequestJoin]
    rw [pelRequest_leads _ _ _ _ a hq hkind hon hlead]
    simp only [beq_iff_eq]
    rfl
  case itemFunction =>
    intro q a
    dsimp only
    intro hkind s ⟨hq, hon, hlead, hcode⟩
    dsimp only [exec, execPelRequestFunction]
    rw [pelRequest_leads _ _ _ _ a hq hkind hon hlead, hcode]
    rfl
  case itemLeave =>
    intro q a
    dsimp only
    intro hkind s ⟨hq, hon, hlead⟩
    dsimp only [exec, execPelRequestLeave]
    rw [pelRequest_leads _ _ _ _ a hq hkind hon hlead]
  case itemSwap =>
    intro q a
    dsimp only
    intro hkind s ⟨hq, hon, hlead, hcode⟩
    dsimp only [exec, execPelRequestSwapOut]
    rw [pelRequest_leads _ _ _ _ a hq hkind hon hlead, hcode]
    rfl
  case faultOff =>
    intro q a
    dsimp only
    intro s ⟨hq, hj, hoff⟩
    dsimp only [exec, execJobFault]
    rw [runM_some _ _ _ _ _ hq, ← Option.not_isSome, hj, hoff]
    rfl
  case faultOn =>
    intro q a
    dsimp only
    intro s ⟨hq, hj, hon, hlead⟩
    dsimp only [exec, execJobFault]
    rw [runM_some _ _ _ _ _ hq, ← Option.not_isSome, hj, hon, hlead]
    rfl

end Sys2Proof.Machine

/-! ## SPDM (14 R450-R453) -/

namespace Sys2Proof.Machine
open Sys2Proof.Claims

/-- The blocks of a channel that have an index are the one of it. -/
theorem blocksOf_filter {n : Node} {ch : Chan} {i : Nat} (h : (n.blocksOf ch).contains i = true) : i ≠ 0xFF ∧ (n.blocksOf ch).filter (· == i) = [i] := by
  have hmem : i ∈ n.blocksOf ch := List.contains_iff_mem.mp h
  have hcases : n.blocksOf ch = [1, 2, 3, 4, 5, 6] ∨ n.blocksOf ch = [1, 2, 3, 4, 5, 6, 0x10] := by
    unfold Node.blocksOf
    cases ch with
    | vfDoe t =>
      dsimp only
      split
      · exact .inr rfl
      · exact .inl rfl
    | pfDoe => exact .inl rfl
    | mctp => exact .inl rfl
  have hsmall : ∀ j ∈ [1, 2, 3, 4, 5, 6, 0x10], j ≠ 0xFF ∧ [1, 2, 3, 4, 5, 6, 0x10].filter (· == j) = [j] := by decide
  have hsmall' : ∀ j ∈ [1, 2, 3, 4, 5, 6], [1, 2, 3, 4, 5, 6].filter (· == j) = [j] := by decide
  rcases hcases with h | h <;> rw [h] at hmem ⊢
  · exact ⟨(hsmall i (List.mem_append_left [0x10] hmem)).1, hsmall' i hmem⟩
  · exact hsmall i hmem

/-- Settles O35: the request comes in the order of negotiation, and the session is there. -/
theorem spdmResults : Obligations.SpdmResults := by
  refine ⟨?version, ?caps, ?algs, ?digests, ?cert0, ?cert1, ?challenge, ?measure, ?measureAll, ?exchange, ?exchangeCert, ?finish, ?beat, ?lost, ?key,
    ?ends, ?csr, ?setCert, ?last, ?chunk, ?get⟩
  case version =>
    intro ch s ⟨hup, hvalid, hneed, _⟩
    dsimp only [exec, execGetVersion]
    rw [spdm_passes _ _ _ _ hup hvalid hneed]
  case caps =>
    intro ch s ⟨hup, hvalid, hneed, _⟩
    dsimp only [exec, execGetCapabilities]
    rw [spdm_passes _ _ _ _ hup hvalid hneed]
  case algs =>
    intro ch s ⟨hup, hvalid, hneed, _⟩
    dsimp only [exec, execNegotiateAlgorithms]
    rw [spdm_passes _ _ _ _ hup hvalid hneed]
    rfl
  case digests =>
    intro ch s ⟨hup, hvalid, hneed, hslot⟩
    dsimp only [exec, execGetDigests]
    rw [spdm_passes _ _ _ _ hup hvalid hneed]
    rw [if_neg (by simpa using hslot)]
  case cert0 =>
    intro ch o l s ⟨hup, hvalid, hneed, _⟩
    dsimp only [exec, execGetCertificate]
    rw [spdm_passes _ _ _ _ hup hvalid hneed]
    rfl
  case cert1 =>
    intro ch o l s ⟨hup, hvalid, hneed, ho⟩
    dsimp only [exec, execGetCertificate]
    rw [spdm_passes _ _ _ _ hup hvalid hneed]
    have hsome : s.node.sec.slot1.isEmpty = false := List.isEmpty_eq_false_iff.mpr (List.ne_nil_of_length_pos (Nat.zero_lt_of_lt ho))
    rw [if_neg Nat.one_ne_zero, if_pos (by simp [hsome, ho])]
  case challenge =>
    intro ch i k hi s ⟨hup, hvalid, hneed, _⟩
    dsimp only [exec, execChallenge]
    rw [spdm_passes _ _ _ _ hup hvalid hneed]
    rw [if_pos hi, Nat.zero_mul]
  case measure =>
    intro ch i k s ⟨hup, hvalid, hneed, hi⟩
    dsimp only [exec, execGetMeasurements]
    rw [spdm_passes _ _ _ _ hup hvalid hneed]
    obtain ⟨hne, hone⟩ := blocksOf_filter hi
    simp only [if_neg hne, hone, Nat.zero_mul, List.isEmpty_cons, Bool.false_eq_true, if_false, List.flatMap_cons, List.flatMap_nil, List.append_nil] <;>
      rfl
  case measureAll =>
    intro ch k s ⟨hup, hvalid, hneed, _⟩
    dsimp only [exec, execGetMeasurements]
    rw [spdm_passes _ _ _ _ hup hvalid hneed]
    have hsome : (s.node.blocksOf ch).isEmpty = false := rfl
    simp only [if_true, Nat.zero_mul, hsome, Bool.false_eq_true, if_false] <;> rfl
  case exchange =>
    intro ch i s ⟨hup, hvalid, hneed, hi⟩
    dsimp only [exec, execKeyExchange]
    rw [spdm_passes _ _ _ _ hup hvalid hneed]
    rw [hi]
    rfl
  case exchangeCert =>
    intro ch i cert s ⟨hup, hvalid, hneed, ⟨hi, hok⟩⟩
    dsimp only [exec, execKeyExchange]
    rw [spdm_passes _ _ _ _ hup hvalid hneed]
    rw [hi, Option.map_some, hok]
    rfl
  case finish =>
    intro i x s ⟨hx, he, hup⟩
    dsimp only [exec, execFinish]
    rw [inSession_passes _ _ _ _ x hx he hup]
    rfl
  case beat =>
    intro i x s ⟨hx, he, hup⟩
    dsimp only [exec, execSpdmHeartbeat]
    rw [inSession_passes _ _ _ _ x hx he hup]
  case lost =>
    intro i x s ⟨hx, hpast⟩
    dsimp only [exec, execSpdmHeartbeatTimeout]
    rw [hx]
    exact congrArg s.next (if_pos (passed_of hpast))
  case key =>
    intro i x s ⟨hx, he, hup⟩
    dsimp only [exec, execKeyUpdate]
    rw [inSession_passes _ _ _ _ x hx he hup]
  case ends =>
    intro i x s ⟨hx, he, hup⟩
    dsimp only [exec, execEndSession]
    rw [inSession_passes _ _ _ _ x hx he hup]
  case csr =>
    intro ch s ⟨hup, hvalid, hneed, _⟩
    dsimp only [exec, execGetCsr]
    rw [spdm_passes _ _ _ _ hup hvalid hneed]
  case setCert =>
    intro i chain x s ⟨hx, he, hup, hrole, haudit⟩
    dsimp only [exec, execSetCertificate]
    rw [inSession_passes _ _ _ _ x hx he hup]
    simp only [hrole, bne_self_eq_false, Bool.false_eq_true, if_false, if_true, privileged_passes _ _ _ haudit]
    rfl
  case last =>
    intro ch k b s ⟨hup, hvalid, hneed, hk⟩
    dsimp only [exec, execChunkSend]
    rw [spdm_passes _ _ _ _ hup hvalid hneed]
    rw [if_neg fun h => bne_iff_ne.mp h hk]
    rfl
  case chunk =>
    intro ch k b s ⟨hup, hvalid, hneed, hk⟩
    dsimp only [exec, execChunkSend]
    rw [spdm_passes _ _ _ _ hup hvalid hneed]
    rw [if_neg fun h => bne_iff_ne.mp h hk]
    rfl
  case get =>
    intro ch k s ⟨hup, hvalid, hneed, hk⟩
    dsimp only [exec, execChunkGet]
    rw [spdm_passes _ _ _ _ hup hvalid hneed]
    rw [if_neg (Nat.not_le.mpr hk)]

end Sys2Proof.Machine

/-! ## Vendor operations and JTAG (14 R435-R466, 17 R553) -/

namespace Sys2Proof.Machine
open Sys2Proof.Claims

/-- Settles O36: the session may ask for the operation, and its checks pass. -/
theorem vendorOperationResults : Obligations.VendorOperationResults := by
  refine ⟨?destroyed, ?bothCopies, ?oneCopy, ?key, ?consent, ?withdraw, ?read, ?write, ?anchor, ?debug, ?expiry, ?maker⟩
  case destroyed =>
    intro t u s ⟨hu, hctx, hslots, hregions⟩
    have hnone : (s.node.spokes.ctxs.any fun c => c.2.owner == t.val) = false := any_eq_false_of_forall fun c hc => beq_false_of_ne (hctx c hc)
    dsimp only [exec, execTenantDestroyComplete]
    rw [hu]
    simp only [hslots, List.filter_nil, List.foldl_nil, hnone, hregions, bne_self_eq_false, Bool.or_self, Bool.false_eq_true, if_false]
  case bothCopies =>
    intro k s hk
    dsimp only [exec, execKeyParityError]
    rw [beq_false_of_ne hk]
    rfl
  case oneCopy =>
    intro k s hk
    dsimp only [exec, execKeyParityError]
    rw [if_neg (by simp [hk]), if_neg Bool.false_ne_true, if_pos (by simp [hk])]
    rfl
  case key =>
    intro i kp t key k x s ⟨hx, he, hup, ⟨hrole, hchan⟩, haudit, hcode⟩
    have hcode : s.node.keyLoadCode t.val (key % 2 ^ 256) = 0 := hcode
    have hother : x.chan = .pfDoe ∨ x.chan = .mctp := by
      cases hc : x.chan with
      | vfDoe v => exact absurd hc (hchan v)
      | pfDoe => exact .inl rfl
      | mctp => exact .inr rfl
    dsimp only [exec, execSetTenantKey]
    rw [vendor_passes _ _ _ _ x hx he hup (by simp [hrole])]
    rcases hother with hc | hc
    all_goals
      rw [hc]
      dsimp only
      rw [hcode, privileged_passes _ _ _ haudit]
      rfl
  case consent =>
    intro i t x s ⟨hx, he, hup, hchan, haudit, hvalid⟩
    dsimp only [exec, execSetConsent]
    rw [vendor_passes _ _ _ _ x hx he hup (by rw [hchan]), hchan]
    dsimp only
    rw [hvalid, if_pos rfl, privileged_passes _ _ _ haudit]
    rfl
  case withdraw =>
    intro i t x s ⟨hx, he, hup, hchan, haudit, hvalid⟩
    dsimp only [exec, execSetConsent]
    rw [vendor_passes _ _ _ _ x hx he hup (by rw [hchan]), hchan]
    dsimp only
    rw [hvalid, if_pos rfl, privileged_passes _ _ _ haudit]
    rfl
  case read =>
    intro i o w x s ⟨hx, he, hchan, hrole⟩
    dsimp only [exec, execRegRead]
    rw [vendor_passes _ _ _ _ x hx he (by rw [hchan]; rfl) (by rw [hchan, hrole]; rfl)]
  case write =>
    intro i o w v x s ⟨hx, he, hchan, hrole⟩
    dsimp only [exec, execRegWrite]
    rw [vendor_passes _ _ _ _ x hx he (by rw [hchan]; rfl) (by rw [hchan, hrole]; rfl)]
    rfl
  case anchor =>
    intro i d x s ⟨hx, he, hrole, hany, hroom, haudit⟩
    dsimp only [exec, execSetAnchor]
    have hempty : s.node.fuses.anchors.isEmpty = false := List.isEmpty_eq_false_iff.mpr hany
    rw [Option.bind_some, hx, hempty]
    simp only [Option.map_some, Option.getD_some, he, hrole, decide_eq_false (Nat.not_le.mpr hroom), privileged_passes _ _ _ haudit,
      beq_self_eq_true, Bool.and_self, Bool.true_or, Bool.not_true, Bool.or_self, Bool.false_eq_true, if_false]
  case debug =>
    intro i tok x s ⟨hx, he, hup, hrole, haudit, hserial, hsig, hchal, hnow⟩
    dsimp only [exec, execDebugToken]
    rw [vendor_passes _ _ _ _ x hx he hup (by rw [hrole]; rfl), if_pos (by simp [hserial, hsig, hchal, hnow]), privileged_passes _ _ _ haudit]
    rfl
  case expiry =>
    intro t s ⟨ht, hpast⟩
    dsimp only [exec, execDebugTokenExpiry]
    rw [ht]
    exact congrArg s.next (if_pos hpast)
  case maker =>
    intro i tok x s ⟨hx, he, hup, hrole, haudit, hserial, hsig, hstrap⟩
    dsimp only [exec, execMakerToken]
    rw [vendor_passes _ _ _ _ x hx he hup (by rw [hrole]; rfl), if_pos (by simp [hserial, hsig, hstrap]), privileged_passes _ _ _ haudit]

/-- Settles O37: the policy, the token, the consent or the unlock is there. -/
theorem jtagResults : Obligations.JtagResults := by
  refine ⟨fun _ _ _ => rfl, fun _ _ => rfl, ?preload, ?extest, ?sys, ?tenant, ?maker⟩
  case preload =>
    intro p s ⟨htok, hheld⟩
    dsimp only [exec, execSamplePreload]
    rw [htok, hheld]
    rfl
  case extest =>
    intro p s ⟨htok, hheld⟩
    dsimp only [exec, execExtest]
    rw [htok, hheld]
    rfl
  case sys =>
    intro c s ⟨hpol, htok⟩
    dsimp only [exec, execJtagSystemDebug]
    rw [decide_eq_true hpol, htok]
    rfl
  case tenant =>
    intro c t th h s ⟨hpol, htok, hcons, hown, hthr⟩
    dsimp only [exec, execJtagTenantDebug]
    rw [if_neg (by simp [hpol, htok, hcons, hown]), ← Option.not_isSome, hthr]
    cases h <;> rfl
  case maker =>
    intro c s ⟨hpol, hunl⟩
    dsimp only [exec, execJtagMakerTest]
    rw [hpol, hunl]
    rfl

end Sys2Proof.Machine

/-! ## Power, clocks and power failure (15 R471-R483) -/

namespace Sys2Proof.Machine
open Sys2Proof.Claims

theorem foldl_max_le {l : List Nat} {a b : Nat} (ha : a ≤ b) (h : ∀ x ∈ l, x ≤ b) : l.foldl max a ≤ b := by
  induction l generalizing a with
  | nil => exact ha
  | cons x l ih => exact ih (Nat.max_le.mpr ⟨ha, h x List.mem_cons_self⟩) fun y hy => h y (List.mem_cons_of_mem x hy)

/-- What is past for each of some times is past for the greatest. -/
theorem passed_maxN {n : Node} {l : List Nat} {us : Nat} (h0 : l ≠ []) (h : ∀ t ∈ l, n.passed t us = true) : n.passed (maxN l) us = true := by
  have hle : ∀ t ∈ l, t ≤ n.clk - us * 1000 ∧ us * 1000 ≤ n.clk := by
    intro t ht
    have := of_decide_eq_true (h t ht)
    omega
  obtain ⟨t, ht⟩ := List.exists_mem_of_ne_nil l h0
  have hmax := foldl_max_le (Nat.zero_le _) fun t ht => (hle t ht).1
  have hus := (hle t ht).2
  exact decide_eq_true (by unfold maxN; omega)

theorem any_true_of_exists {α : Type} {l : List α} {p : α → Prop} [DecidablePred p] (h : ∃ a ∈ l, p a) : (l.any fun a => decide (p a)) = true := by
  obtain ⟨a, ha, hp⟩ := h
  exact List.any_eq_true.mpr ⟨a, ha, decide_eq_true hp⟩

theorem all_true_of_forall {α : Type} {l : List α} {p : α → Prop} [DecidablePred p] (h : ∀ a ∈ l, p a) : (l.all fun a => decide (p a)) = true :=
  List.all_eq_true.mpr fun a ha => decide_eq_true (h a ha)

/-! ### Power estimates -/

/-- Estimates of a tile in a row above the limit, with one of a power. -/
def overCount (n : Node) (t mw : Nat) : Nat := if 1000 * fld (n.reg .tpwrLim) 0 8 < mw then n.power.overCnt.getD t 0 + 1 else 0

/-- Estimates of a tile in a row with room for a hub, with one of a power. -/
def roomCount (n : Node) (t mw : Nat) : Nat := if mw + 7030 ≤ 1000 * fld (n.reg .tpwrLim) 0 8 then n.power.roomCnt.getD t 0 + 1 else 0

/-- The node with an estimate counted. -/
def estimated (n : Node) (t mw w : Nat) : Node :=
  { n with power := { n.power with
    nodeW := min 1023 w
    overCnt := setCount n.power.overCnt t (if overCount n t mw = 4 then 0 else overCount n t mw)
    roomCnt := setCount n.power.roomCnt t (if roomCount n t mw = 100 then 0 else roomCount n t mw) } }

/-- The node with an estimate counted, and a hub withdrawn where it is the fourth above the limit. -/
def cutBack (n : Node) (t mw w : Nat) : Node := if overCount n t mw = 4 then (estimated n t mw w).withdraw t false else estimated n t mw w

theorem exec_tilePowerEstimate {s : State} (t : Fin 8) (mw w : Nat) (hfix : s.node.fixedSlot = false) :
    exec (.tilePowerEstimate t mw w) s =
      s.next (if roomCount s.node t mw = 100 then (cutBack s.node t mw w).giveBack (cutBack s.node t mw w).powerWd t else cutBack s.node t mw w) := by
  dsimp only [exec, execTilePowerEstimate]
  exact if_neg (Bool.eq_false_iff.mp hfix)

/-- An estimate above the limit leaves no room. -/
theorem roomCount_of_overCount {n : Node} {t mw : Nat} (h : overCount n t mw ≠ 0) : roomCount n t mw = 0 := by
  unfold overCount at h
  unfold roomCount
  split at h <;> split <;> omega

/-- Settles O38: the estimate, the rail, the hub or the die is as the statement says. -/
theorem powerResults : Obligations.PowerResults := by
  refine ⟨?estimate, ?low, ?reported, fun _ _ _ => rfl, ?telemetry, ?wheel, ?down, ?relock, ?sample, ?withdraw, ?release, ?back⟩
  case estimate =>
    intro s t mw w
    dsimp only
    refine ⟨fun hfix => ?_, fun hfix hhi hroom => ?_, fun hfix hhi => ?_, fun hfix hhi hroom => ?_⟩
    · exact if_pos hfix
    · have hhi : overCount s.node t mw < 4 := hhi
      have hroom : roomCount s.node t mw < 100 := hroom
      rw [exec_tilePowerEstimate t mw w hfix, if_neg (Nat.ne_of_lt hroom), cutBack, if_neg (Nat.ne_of_lt hhi)]
      rfl
    · have hhi : overCount s.node t mw = 4 := hhi
      have hroom : roomCount s.node t mw ≠ 100 := by
        rw [roomCount_of_overCount (by omega)]
        decide
      rw [exec_tilePowerEstimate t mw w hfix, if_neg hroom, cutBack, if_pos hhi]
      rfl
    · have hhi : overCount s.node t mw ≠ 4 := by
        intro h
        exact absurd (hhi.symm.trans h) (by decide)
      have hroom : roomCount s.node t mw = 100 := hroom
      rw [exec_tilePowerEstimate t mw w hfix, if_pos hroom, cutBack, if_neg hhi]
      rfl
  case low =>
    intro r mv hmv s _
    dsimp only [exec, execRailFault]
    rw [if_pos (by simpa using hmv)]
  case reported =>
    intro r mv s _
    dsimp only [exec, execRailFault]
    rw [if_pos (by simp)]
  case telemetry =>
    intro mv ma dc s _
    dsimp only [exec, execPmbusTelemetryPoll]
    rw [ite_self]
  case wheel =>
    intro h s ⟨hnone, hidle⟩
    dsimp only [exec, execHubFreewheel]
    rw [hnone, hidle]
    rfl
  case down =>
    intro t s ⟨hwheel, hqueue, hbatch, hon, hhubs, htile⟩
    dsimp only [exec, execPllPowerDown]
    rw [if_pos]
    have hidle : s.node.passed (maxN (((List.range 4).map fun j => KList.getD s.node.power.idleSince (4 * t.val + j) 0)
        ++ [KList.getD s.node.power.idleSince (32 + t.val) 0])) (1000 * fld (s.node.reg .clkCfg) 16 16) = true := by
      refine passed_maxN (by simp) fun x hx => ?_
      rcases List.mem_append.mp hx with hx | hx
      · obtain ⟨j, hj, rfl⟩ := List.mem_map.mp hx
        exact hhubs j (List.mem_range.mp hj)
      · rw [List.mem_singleton.mp hx]
        exact htile
    simp [hwheel, hqueue, hbatch, hon, hidle]
  case relock =>
    intro t s ⟨hoff, hwork⟩
    dsimp only [exec, execPllRelock]
    have hany : (((List.range 4).any fun j => s.node.threadsOf (4 * t.val + j) != []) || (s.node.tile t).queue != []) = true := by
      rcases hwork with ⟨j, hj, hthr⟩ | hq
      · rw [Bool.or_eq_true]
        exact .inl (List.any_eq_true.mpr ⟨j, List.mem_range.mpr hj, bne_iff_ne.mpr hthr⟩)
      · rw [bne_iff_ne.mpr hq, Bool.or_true]
    rw [hoff, hany]
    rfl
  case sample =>
    intro s d h
    dsimp only
    refine ⟨fun hhot htrip hnear => ?_, fun hhot htrip hwas => ?_, fun hcool hhbm hfar => ?_⟩ <;> dsimp only [exec, execThermalSample]
    · have hno : (d.all fun x => decide (x + 10 < fld (((s.node.setSensors 1 (d.take 11)).setSensors 12 (h.take 8)).reg .therm) 8 8)) = false := by
        rw [List.all_eq_false]
        obtain ⟨x, hx, hle⟩ := hnear
        exact ⟨x, hx, by simpa using hle⟩
      rw [any_true_of_exists hhot, any_eq_false_of_forall fun x hx => decide_eq_false (Nat.not_le.mpr (htrip x hx)), hno]
      rfl
    · rw [any_true_of_exists hhot, any_true_of_exists htrip, Bool.true_or, if_pos rfl, if_pos rfl, hwas, if_pos rfl]
    · have hthr : (d.any fun x => decide (fld (((s.node.setSensors 1 (d.take 11)).setSensors 12 (h.take 8)).reg .therm) 0 8 ≤ x)) = false :=
        any_eq_false_of_forall fun x hx => decide_eq_false (by have := hcool x hx; omega)
      have h95 : (h.any fun x => decide (95 ≤ x)) = false := any_eq_false_of_forall fun x hx => decide_eq_false (by have := hhbm x hx; omega)
      have htrip : (d.any fun x => decide (fld (((s.node.setSensors 1 (d.take 11)).setSensors 12 (h.take 8)).reg .therm) 8 8 ≤ x)) = false :=
        any_eq_false_of_forall fun x hx => decide_eq_false (by have := hfar x hx; omega)
      rw [hthr, h95, htrip, all_true_of_forall hcool, all_true_of_forall hhbm, all_true_of_forall hfar]
      rfl
  case withdraw =>
    intro s ⟨hthr, hpast⟩
    dsimp only [exec, execThrottleWithdraw]
    rw [hthr, hpast]
    rfl
  case release =>
    intro t s ⟨hcool, hthr, hpast⟩
    dsimp only [exec, execThrottleRelease]
    rw [hcool]
    dsimp only
    rw [hthr, passed_of (us := 10000) hpast]
    rfl
  case back =>
    intro s ⟨hthr, hpast⟩
    dsimp only [exec, execThrottleReturn]
    rw [hthr, hpast]
    rfl

/-- Settles O39: each step comes in its phase, at its time. -/
theorem powerFailureResults : Obligations.PowerFailureResults := by
  refine ⟨?trip, ?freeze, ?gate, ?save, ?complete, ?under, ?recovery⟩
  case trip =>
    intro dv ns hns s ⟨hidle, hdv⟩
    dsimp only [exec, execPfSenseTrip]
    rw [if_pos (by simp [hidle, hdv, hns])]
  case freeze =>
    intro s ⟨hph, hpast⟩
    dsimp only [exec, execPfFreeze]
    rw [if_pos (by simp [hph, passed_of (us := 3) hpast])]
  case gate =>
    intro s ⟨hph, hpast⟩
    dsimp only [exec, execPfPowerGate]
    rw [if_pos (by simp [hph, passed_of (us := 8) hpast])]
  case save =>
    intro s ⟨hph, hpast⟩
    dsimp only [exec, execJournalSave]
    rw [if_pos (by simp [hph, passed_of (us := 18) hpast])]
  case complete =>
    intro s hph
    dsimp only [exec, execJournalSaveComplete]
    rw [if_pos (beq_iff_eq.mpr hph)]
  case under =>
    intro dv hdv s ⟨hidle, hdone⟩
    dsimp only [exec, execBusUndervoltage]
    rw [if_pos (by simp [hidle, hdone, hdv])]
  case recovery =>
    intro dv ms hms s ⟨hph, hdv⟩
    dsimp only [exec, execBusRecovery]
    rw [if_pos (by simp [hph, hdv, hms])]

end Sys2Proof.Machine

/-! ## Resets and the start (15 R484-R499) -/

namespace Sys2Proof.Machine
open Sys2Proof.Claims

/-- A due reset of a level acts while no power failure runs. -/
theorem runReset_of {s : State} {level : Nat} {tile : Option Nat} {r : ResetRun} (f : Node → ResetRun → Node) (hidle : s.node.mgt.pfPhase = .idle)
    (hr : s.node.dueReset level tile = some r) : s.runReset level tile f = s.next (f (s.node.begun r) r) := by
  rw [State.runReset, hr]
  exact if_pos (beq_iff_eq.mpr hidle)

/-- Settles O40: the source is one of the fuse table, the request is due, and the start ends as the boot information says. -/
theorem resetResults : Obligations.ResetResults := by
  refine ⟨fun _ _ => rfl, ?brown, ?pin, fun _ _ => rfl, fun _ _ => rfl, fun _ _ => rfl, fun _ _ => rfl, ?watchdog, ?l3, ?l2, ?l1, ?l0, ?done2, ?done3,
    ?start, ?ready, ?timeout⟩
  case brown =>
    intro s hidle
    dsimp only [exec, execBrownOut]
    rw [if_pos (beq_iff_eq.mpr hidle)]
  case pin =>
    intro us hus s _
    dsimp only [exec, execNodeRstN]
    rw [if_pos hus]
  case watchdog =>
    intro h ms hms s _
    dsimp only [exec, execTileWatchdog]
    rw [if_pos hms]
  case l3 =>
    intro t r s ⟨hidle, hr⟩
    dsimp only [exec, execResetL3]
    rw [runReset_of _ hidle hr]
  case l2 =>
    intro r s ⟨hidle, hr⟩
    dsimp only [exec, execResetL2]
    rw [runReset_of _ hidle hr]
  case l1 =>
    intro r s ⟨hidle, hr⟩
    dsimp only [exec, execResetL1]
    rw [runReset_of _ hidle hr]
    rfl
  case l0 =>
    intro r s ⟨hidle, hr⟩
    dsimp only [exec, execResetL0]
    rw [runReset_of _ hidle hr]
    rfl
  case done2 =>
    intro t l r s hr
    have hr : (s.node.mgt.resets.find? fun r => r.begun && r.level == 2 && (2 == 2 || r.tile == t.val)) = some r := by
      simpa using hr
    dsimp only [exec, execResetComplete]
    rw [hr]
    rfl
  case done3 =>
    intro t l r s hr
    have hr : (s.node.mgt.resets.find? fun r => r.begun && r.level == 3 && (3 == 2 || r.tile == t.val)) = some r := by
      simpa using hr
    dsimp only [exec, execResetComplete]
    rw [hr]
    rfl
  case start =>
    intro s i ⟨r, hr, hbegun, hlevel⟩ hnone
    have hdue : (s.node.mgt.resets.any fun r => r.begun && decide (r.level ≤ 1)) = true :=
      List.any_eq_true.mpr ⟨r, hr, by simp [hbegun, hlevel]⟩
    dsimp only [exec, execNodeStart]
    rw [hdue, hnone]
    refine ⟨fun hfails => ?_, fun hfails hstrap => ?_, fun hfails hstrap hrails => ?_⟩
    · rw [decide_eq_true hfails]
      rfl
    · rw [decide_eq_false (Nat.not_le.mpr hfails), hstrap]
      rfl
    · intro hslot k hk
      have hstrap : ((s.node.readStrap i.adc).dev.strap == 14) = false := beq_false_of_ne hstrap
      have hboot (a b : Bool) (h : a = true ∨ b = true) : (!a && !b) = false := by rcases h with h | h <;> simp [h]
      rw [decide_eq_false (Nat.not_le.mpr hfails), hstrap, hboot _ _ hslot, hrails, hk]
      rfl
  case ready =>
    intro t s ht
    dsimp only [exec, execNodeReady]
    rw [ht]
    rfl
  case timeout =>
    intro t s ⟨ht, hpast⟩
    dsimp only [exec, execStartTimeout]
    rw [ht]
    exact congrArg s.next (if_pos (passed_of (us := 2000000) hpast))

end Sys2Proof.Machine

/-! ## Detection and tiers (16 R505-R525, 09 R271-R295) -/

namespace Sys2Proof.Machine
open Sys2Proof.Claims

/-- Settles O41: the unit, the error, the clock or the snapshot is as the statement says. -/
theorem detectionResults : Obligations.DetectionResults := by
  refine ⟨?passed, ?failed, ?casPassed, ?casFailed, fun _ _ => rfl, fun _ _ _ _ => rfl, fun _ _ _ => rfl, fun _ _ _ => rfl, ?spoke,
    ?control, ?again, ?pcie, fun _ _ => rfl, ?tile, ?ports, ?clock, ?arm, ?latch, ?complete⟩
  case passed =>
    intro h p s hret
    dsimp only [exec, execSpokeKat]
    rw [hret]
    rfl
  case failed =>
    intro h p s hret
    dsimp only [exec, execSpokeKat]
    rw [hret]
    rfl
  case casPassed =>
    intro t s ⟨hret, hbatch⟩
    dsimp only [exec, execCassetteKat]
    rw [if_neg (by simp [hret, hbatch])]
    rfl
  case casFailed =>
    intro t s ⟨hret, hbatch⟩
    dsimp only [exec, execCassetteKat]
    rw [if_neg (by simp [hret, hbatch])]
    rfl
  case spoke =>
    intro h p s _
    have hunit : unitOf 1 (64 * h.val + p.val) = 2 ^ 28 + 64 * h.val + p.val := by
      rw [unitOf, Nat.one_mul, Nat.add_assoc]
    dsimp only [exec, execEccError]
    rw [hunit]
  case control =>
    intro t s h
    dsimp only [exec, execEccError]
    refine congrArg (fun m : Node => s.settled (m.requestReset 13 (some t.val))) (if_neg ?_)
    cases hk : KList.find? s.node.power.src13At t.val with
    | none => exact Bool.false_ne_true
    | some k => exact decide_eq_true_iff.not.mpr (Nat.not_lt.mpr (h k hk))
  case again =>
    intro t k s ⟨hk, hsoon⟩
    dsimp only [exec, execEccError]
    refine congrArg (fun m : Node => s.settled (m.requestReset 13 (some t.val))) (if_pos ?_)
    rw [hk]
    exact decide_eq_true hsoon
  case pcie =>
    intro s _
    rfl
  case tile =>
    intro k hk s _
    dsimp only [exec, execClockLoss]
    rw [if_pos hk]
    rfl
  case ports =>
    intro k h9 h10 s _
    dsimp only [exec, execClockLoss]
    rw [if_neg (by omega), if_neg (by omega), if_pos h10]
    rfl
  case clock =>
    intro k h11 s _
    dsimp only [exec, execClockLoss]
    rw [if_neg (by omega), if_neg (by omega), if_neg (by omega)]
    rfl
  case arm =>
    intro t i q p s ⟨hi, hseen, hup, ht, hroom⟩
    dsimp only [exec, execSnapshotPortArm]
    rw [hseen, hup, beq_false_of_ne hi]
    refine congrArg (fun m : Node => s.settled (m.floodArm t i q (some p.val))) ?_
    exact (if_neg (Nat.not_le.mpr ht)).trans (if_pos hroom)
  case latch =>
    intro a s ha
    dsimp only [exec, execSnapshotLatch]
    rw [ha]
    simp only [beq_iff_eq]
  case complete =>
    intro b a s ha
    dsimp only [exec, execSnapshotComplete]
    rw [ha]
    simp only [beq_iff_eq]

/-- Settles O42: the regions, the move or the copy are as the statement says. -/
theorem tierResults : Obligations.TierResults := by
  refine ⟨?map, ?unmap, ?unmapped, ?flag, ?epoch, ?demotion, ?chunk, ?lost, ?stop, ?applied, ?lag⟩
  case map =>
    intro q a m
    dsimp only
    intro s ⟨hq, hm⟩
    dsimp only [exec, execRegionMap]
    rw [runM_some _ _ _ _ _ hq, hm]
    rfl
  case unmap =>
    intro q a
    dsimp only
    intro hne s ⟨hq, hall⟩
    dsimp only [exec, execRegionUnmap]
    rw [runM_some _ _ _ _ _ hq, hall, List.isEmpty_eq_false_iff.mpr hne]
    rfl
  case unmapped =>
    intro o r u s ⟨hu, hquiet, hup, hroom⟩
    dsimp only [exec, execRegionUnmapComplete]
    rw [hu]
    dsimp only
    rw [hquiet, hup, hroom]
    rfl
  case flag =>
    intro q a
    dsimp only
    intro s ⟨hq, hall, hfit⟩
    dsimp only [exec, execRegionFlag]
    rw [runM_some _ _ _ _ _ hq, hall, hfit]
    rfl
  case epoch =>
    intro s ⟨hpast, hup⟩
    dsimp only [exec, execDerailleurEpoch]
    rw [hpast, hup]
    rfl
  case demotion =>
    intro t s ⟨hfix, hup, hfull⟩
    dsimp only [exec, execCapacityDemotion]
    rw [hfix, hup, decide_eq_false (Nat.not_le.mpr hfull)]
    rfl
  case chunk =>
    intro i m c k hi hc s ⟨hm, hgo, hup, hclear, hset, hk⟩
    have hfirst : (List.range 32).find? (fun c => !bitAt m.atDst c) = some c := by
      rw [List.find?_range_eq_some]
      exact ⟨by rw [hclear]; rfl, List.mem_range.mpr hc, fun d hd => by rw [hset d hd]; rfl⟩
    dsimp only [exec, execChunkCommit]
    rw [hm]
    dsimp only
    rw [if_neg (by simp [Nat.not_le.mpr hi, hgo, hup]), hfirst]
    dsimp only
    rw [hk]
  case lost =>
    intro i m hi s ⟨hm, hup, hpool⟩
    dsimp only [exec, execMoveStop]
    rw [hm]
    dsimp only
    rw [if_neg (by simp [Nat.not_le.mpr hi, hup]), hpool]
    rfl
  case stop =>
    intro i c m hi s ⟨hm, hup, hother⟩
    dsimp only [exec, execMoveStop]
    rw [hm]
    dsimp only
    rw [if_neg (by simp [Nat.not_le.mpr hi, hup]), if_neg]
    rw [Bool.and_eq_true, beq_iff_eq, beq_iff_eq]
    exact not_and_or.mpr hother
  case applied =>
    intro o a k b r s h
    dsimp only [exec, execReplicaWriteApply]
    rw [replicaApply_next h]
    rfl
  case lag =>
    intro o r s h
    dsimp only [exec, execReplicaLagExceeded]
    rw [if_pos h]

end Sys2Proof.Machine

/-! ## The flash media (10 R300-R325) -/

namespace Sys2Proof.Machine
open Sys2Proof.Claims

/-- Settles O43: the unit, the die, the block or the page is as the statement says. -/
theorem flashResults : Obligations.FlashResults := by
  refine ⟨?slot, ?hard, ?soft, ?worst, ?patrol, ?good, ?bad, ?die, ?collect, ?fold, ?wear, ?refresh, ?zq, ?writeBack, ?page, ?noWait, ?stage⟩
  case slot =>
    intro c s hfix
    dsimp only [exec, execFlashServiceSlot]
    rw [if_pos hfix]
  case hard =>
    intro u w i p hw s ⟨hp, hon⟩
    dsimp only [exec, execFlashReadDone]
    rw [hp]
    exact if_neg (by simp [hon, Nat.not_le.mpr hw])
  case soft =>
    intro u w r i p hw s ⟨hp, hon⟩
    dsimp only [exec, execFlashReadDone]
    rw [hp]
    exact if_neg (by simp [hon, Nat.not_le.mpr hw])
  case worst =>
    intro u w p
    dsimp only
    intro hw
    refine ⟨?_, ?_, ?_⟩
    all_goals
      intro s ⟨hp, hon⟩
      dsimp only [exec, execFlashReadDone]
      rw [hp]
      exact if_neg (by simp [hon, Nat.not_le.mpr hw])
  case patrol =>
    intro d b i r s ⟨hon, hfilled, h0, h4⟩
    dsimp only [exec, execPatrolRead]
    rw [if_neg (by simp [hon, hfilled, h0, h4])]
  case good =>
    intro d b e s _
    dsimp only [exec, execFlashProgramDone]
    rw [if_pos (by simp)]
    rfl
  case bad =>
    intro d b s ⟨hon, hd, hret, hlo, hhi, h4, h0⟩
    dsimp only [exec, execFlashProgramDone]
    rw [if_neg (by simp [hon, hd, hret, hlo, hhi, h4, h0])]
  case die =>
    intro d k s ⟨hon, h⟩
    dsimp only [exec, execDieRetire]
    rw [if_pos (by simpa [hon] using h)]
  case collect =>
    intro d s ⟨hon, hd, hret, hwin, hlow, hgo⟩
    dsimp only [exec, execGarbageCollection]
    rw [if_neg (by simp [hon, hd, hret, hwin]), if_pos (by simpa [hlow] using hgo)]
  case fold =>
    intro d b s ⟨hb, hon, hwin⟩
    dsimp only [exec, execSlcFold]
    rw [hb]
    exact congrArg s.settled (if_pos (by simp [hon, hwin]))
  case wear =>
    intro d a b s ⟨hpair, hon, hwin, hpast, hret, htop, hroom⟩
    dsimp only [exec, execWearLevelMove]
    rw [hpair]
    cases hk : KList.find? s.node.flash.lastMove d.val with
    | none => exact if_pos (by simp [hon, hwin, hret, htop, hroom])
    | some t => exact if_pos (by simp [hon, hwin, hret, htop, hroom, hpast t hk])
  case refresh =>
    intro d b s ⟨hon, hwin, hpool, hreads, hnew⟩
    dsimp only [exec, execBlockRefresh]
    rw [if_neg, hnew]
    · rfl
    · rcases hpool with h | h <;> simp [hon, hwin, h, Nat.not_lt.mpr hreads]
  case zq =>
    intro d s ⟨hon, hpast, hd, hret⟩
    dsimp only [exec, execZqCalibration]
    cases hk : KList.find? s.node.flash.zqAt d.val with
    | none => exact congrArg s.next (if_pos (by simp [hon, hd, hret]))
    | some t => exact congrArg s.next (if_pos (by simp [hon, hd, hret, hpast t hk]))
  case writeBack =>
    intro u s ⟨hu, hon, hopen⟩
    dsimp only [exec, execWriteBack]
    rw [hu]
    refine congrArg s.settled (if_pos ?_)
    rw [hon, Bool.true_and]
    cases hh : s.node.unitHome u with
    | none => rfl
    | some h =>
      cases hd : s.node.nextDie with
      | none => rfl
      | some d => exact hopen h.1 h.2 d hh hd
  case page =>
    intro p s ⟨hon, hdue⟩
    dsimp only [exec, execMapPageWriteback]
    rw [hon, hdue]
    rfl
  case noWait =>
    intro s hnone
    dsimp only [exec, execJournalStage]
    rw [hnone]
    rfl
  case stage =>
    intro w s ⟨hon, hw⟩
    have hsome : s.node.flash.waits.isEmpty = false := List.isEmpty_eq_false_iff.mpr (List.ne_nil_of_mem (List.mem_of_find?_eq_some hw))
    dsimp only [exec, execJournalStage]
    rw [hsome, hon, if_neg Bool.false_ne_true, if_pos rfl, hw]

end Sys2Proof.Machine
